-- ==== Sys2Proof/Word.lean ====
section
/-! DEFINITION. The word types of the machine and their plainest arithmetic: bit fields of a number, sign
extension, and total reading and writing of fixed-length vectors. -/

namespace Sys2Proof

/-- A byte of memory. -/
abbrev Byte := BitVec 8
/-- One vector register of one lane, one instruction word, one program counter (R24, R59). -/
abbrev Word := BitVec 32
/-- A 64-bit quantity. -/
abbrev Dword := BitVec 64
/-- A scalar register and a virtual address (R59, R96). -/
abbrev Wide := BitVec 72

/-- Bits lo to lo + n - 1 of a number. -/
def bitsAt (w lo n : Nat) : BitVec n := BitVec.ofNat n (w / 2 ^ lo)

/-- The n-bit field x read as a signed number (R173, SignExtend). -/
def signExtend {n : Nat} (x : BitVec n) : Int := x.toInt

/-- The element of a vector at i, or d outside it. -/
def vget {α : Type} {n : Nat} (v : Vector α n) (i : Nat) (d : α) : α := (v[i]?).getD d

/-- The vector with element i replaced; unchanged outside it. -/
def vset {α : Type} {n : Nat} (v : Vector α n) (i : Nat) (x : α) : Vector α n := v.setIfInBounds i x

end Sys2Proof
end

