-- ==== Sys2Proof/Config.lean ====
section
/-! DEFINITION. What the spec leaves open, as constants without a body: no proof can see a value of them. Each is
named in the assumption log. -/

namespace Sys2Proof.Config

/-- How much device time passes in step n beyond one unit (log 6). -/
opaque elapsed : Nat → Nat

/-- A fresh open value: applied to the State's counter of open values (log 5). -/
opaque freeValue : Nat → BitVec 64

/-- The byte that a read through a key returns from a line written under another key (R355; log 9):
the address, the reading key, the writing key and the stored 16 bytes of the cipher's block. -/
opaque otherKeyByte : Nat → Nat → Nat → BitVec 128 → BitVec 8

/-- The role to which a quadrant without a resident gang charges its idle cycles (R322; log 20). -/
opaque idleRole : Nat

/-- The reason charged to an oldest gang that is not ready for a cause outside the list of R322 (log 20). -/
opaque otherReason : Nat

/-- In how many cycles of a step a quadrant's gangs wait for arithmetic results (R247, R322; log 20): step, core and quadrant. -/
opaque lateCycles : Nat → Nat

/-- Whether a home's read of its directory entry in step n has an uncorrectable error (R371; log 24). -/
opaque directoryFails : Nat → Bool

/-- Which of the links of a route carries a message: a hash of bits 15:7 of its physical address (R409; log 15). -/
opaque linkHash : Nat → Nat

/-- The check value over the opaque parts of a context record or an engine image (R293, R339; log 14). -/
opaque checkValue : List (BitVec 8) → BitVec 64

/-- A byte of an opaque part of a context record or an engine image: the part's number and the byte's index
(R293, R339; log 14). -/
opaque opaqueByte : Nat → Nat → BitVec 8

/-- Whether a firmware image's signature verifies (R417; log 14). -/
opaque signatureValid : List (BitVec 8) → Bool

/-- What unwrapping a key packet gives: whether it authenticates (R419; log 14). -/
opaque keyUnwraps : List (BitVec 8) → Bool

/-- The bytes of an attestation report's signature (R418; log 14). -/
opaque attestSignature : List (BitVec 8) → List (BitVec 8)

end Sys2Proof.Config
end

