-- ==== Sys2Proof/Syntax.lean ====
section
/-! DEFINITION. The instructions: one constructor per row of spec/opcode_table.json, in its order. The first 165 are
encoded words (R158-R172): each carries its header (the run-end bit and its prefix group) and the fields of its
word. The other 113 are the device's events, which have no encoding: each carries what the event is about. -/

namespace Sys2Proof

/-- The modifier prefix (R171). -/
structure Mods where
  rnd : BitVec 3
  ftz : Bool
  sat : Bool
  scv : Bool
  scope : BitVec 2
  orv : Bool
  order : BitVec 2
  hint : BitVec 2
  w64 : Bool
  deriving DecidableEq, Repr

/-- The extra-operand prefix: a vector code (R64) or a scalar register (R171). -/
inductive ExtOp where
  | vec (code : BitVec 7)
  | sca (n : BitVec 6)
  deriving DecidableEq, Repr

/-- What every encoded instruction carries beside its fields: the run-end bit E (R31) and its prefixes (R168, R169). -/
structure Hdr where
  e : Bool
  imm : Option (BitVec 22)
  mod : Option Mods
  ext : Option ExtOp
  deriving DecidableEq, Repr

/-- The header of a word without prefixes. -/
def Hdr.plain (e : Bool) : Hdr := ⟨e, none, none, none⟩

/-- What a frame on one of the device's two host ports carries (R402): the port, and the bytes of the IP packet in it. -/
structure HostPkt where
  port : Nat
  frame : List (BitVec 8)
  deriving DecidableEq, Repr

/-- A message of the Axfen fabric, field by field as R408 lays it out. -/
structure FabMsg where
  kind : BitVec 8
  src : BitVec 8
  dst : BitVec 8
  key : BitVec 8
  fseq : BitVec 32
  tag : BitVec 32
  pa : BitVec 64
  mask : BitVec 128
  agent : BitVec 32
  clk : BitVec 32
  mseq : BitVec 32
  aop : BitVec 32
  data : BitVec 1024
  deriving DecidableEq, Repr

/-- A flit of an Axfen link, as its 256 bytes (R406). -/
structure FlitIn where
  bytes : List (BitVec 8)
  deriving DecidableEq, Repr

/-- The instructions and events of the device. -/
inductive Instr where
  /-- R181: Sets each active member's PC to the PC-relative branch target, and other members' PCs to the next word; ends the run. -/
  | bra (h : Hdr) (g : BitVec 3) (o : BitVec 21)
  /-- R181: Writes LNK with the return address for each active member and branches to the PC-relative target. -/
  | call (h : Hdr) (g : BitVec 3) (o : BitVec 21)
  /-- R184: Changes no state, and ends the run when E is 1. -/
  | nop (h : Hdr) (g : BitVec 3)
  /-- R181: Sets each active member's PC to its LNK. -/
  | ret (h : Hdr) (g : BitVec 3)
  /-- R184: Checks set membership (R52) and makes the active threads Exited; the gang drains after its last exit. -/
  | exit (h : Hdr) (g : BitVec 3)
  /-- R53: Quits every rejoin set for the active threads, possibly releasing waiters, and then exits them. -/
  | exitQ (h : Hdr) (g : BitVec 3)
  /-- R43: Ends the run; passes the quadrant to the next runnable gang in deterministic mode, or sets the yield marks of the active threads otherwise. -/
  | yield (h : Hdr) (g : BitVec 3)
  /-- R187: Returns each active thread in handler state to its resume PC, clears its trap registers and sets its watch pass; other active threads take Trap-Instruction. -/
  | tret (h : Hdr) (g : BitVec 3)
  /-- R181: Branches each active member to the address held in a vector register, with bits 1:0 cleared. -/
  | brx (h : Hdr) (g : BitVec 3) (t : BitVec 7)
  /-- R181: Writes LNK and branches each active member to the address held in a vector register. -/
  | callx (h : Hdr) (g : BitVec 3) (t : BitVec 7)
  /-- R186: Raises Breakpoint on each active thread, with the code in TADDR. -/
  | bkpt (h : Hdr) (g : BitVec 3) (c : BitVec 9)
  /-- R186: Raises Trap-Instruction on each active thread, with the code in TADDR. -/
  | trap (h : Hdr) (g : BitVec 3) (c : BitVec 9)
  /-- R49: Adds the sheaf's lanes to the membership mask of a rejoin set. -/
  | jenter (h : Hdr) (j : BitVec 4)
  /-- R49: Removes the sheaf's lanes from a set's masks, and releases the waiters when they are then all the members. -/
  | jquit (h : Hdr) (j : BitVec 4)
  /-- R49: Records the sheaf's arrival on a set, and either releases every arrived member or blocks the sheaf. -/
  | jwait (h : Hdr) (j : BitVec 4)
  /-- R49: Clears the membership mask of a set that has no arrivals. -/
  | jclr (h : Hdr) (j : BitVec 4)
  /-- R49: Writes a set's membership mask to a scalar register, from a full sheaf. -/
  | jmask (h : Hdr) (j : BitVec 4) (s : BitVec 6)
  /-- R49: Writes a set's arrival mask to a scalar register, from a full sheaf. -/
  | jarr (h : Hdr) (j : BitVec 4) (s : BitVec 6)
  /-- R49: Loads a set's membership mask from a scalar register, restricted to live lanes. -/
  | jload (h : Hdr) (j : BitVec 4) (s : BitVec 6)
  /-- R192: Writes pA and pB to pD in each active lane. -/
  | pand (h : Hdr) (g : BitVec 3) (d : BitVec 3) (a : BitVec 3) (b : BitVec 3)
  /-- R192: Writes pA or pB to pD in each active lane. -/
  | por (h : Hdr) (g : BitVec 3) (d : BitVec 3) (a : BitVec 3) (b : BitVec 3)
  /-- R192: Writes pA xor pB to pD in each active lane. -/
  | pxor (h : Hdr) (g : BitVec 3) (d : BitVec 3) (a : BitVec 3) (b : BitVec 3)
  /-- R192: Writes pA and not pB to pD in each active lane. -/
  | pandn (h : Hdr) (g : BitVec 3) (d : BitVec 3) (a : BitVec 3) (b : BitVec 3)
  /-- R192: Writes not pA to pD in each active lane. -/
  | pnot (h : Hdr) (g : BitVec 3) (d : BitVec 3) (a : BitVec 3)
  /-- R192: Sets pD in each active lane to whether the vector register is non-zero. -/
  | pmov (h : Hdr) (g : BitVec 3) (d : BitVec 3) (a : BitVec 7)
  /-- R192: Writes the lane mask of a predicate over the active members to a scalar register, from a full sheaf. -/
  | pget (h : Hdr) (g : BitVec 3) (s : BitVec 6) (a : BitVec 3)
  /-- R192: Sets pD true in the lowest active lane and false in the other active lanes. -/
  | elect (h : Hdr) (g : BitVec 3) (d : BitVec 3)
  /-- R70: Asks for a larger vector budget for the gang, completing at once or blocking the gang until the request is granted. -/
  | reggrow (h : Hdr) (n : BitVec 9)
  /-- R195: Reads a per-gang special register into a scalar register, from a full sheaf. -/
  | sget (h : Hdr) (d : BitVec 6) (n : BitVec 6)
  /-- R68: Writes FPSTAT from a scalar register, from a full sheaf. -/
  | sset (h : Hdr) (a : BitVec 6) (n : BitVec 6)
  /-- R195: Reads a per-gang special register into a vector register of every member. -/
  | vgetGang (h : Hdr) (d : BitVec 7) (n : BitVec 6)
  /-- R195: Reads a per-thread special register into a vector register of each active lane. -/
  | vgetThread (h : Hdr) (g : BitVec 3) (d : BitVec 7) (n : BitVec 6)
  /-- R196: Writes device time to a scalar register, from a full sheaf. -/
  | clkScalar (h : Hdr) (d : BitVec 6)
  /-- R196: Writes device time to a vector register pair of every member. -/
  | clkVector (h : Hdr) (d : BitVec 7)
  /-- R198: Writes the 64-bit sum of two scalar registers. -/
  | sadd (h : Hdr) (d : BitVec 6) (a : BitVec 6) (b : BitVec 6)
  /-- R198: Writes the 64-bit difference of two scalar registers. -/
  | ssub (h : Hdr) (d : BitVec 6) (a : BitVec 6) (b : BitVec 6)
  /-- R198: Writes the low 64 bits of the product of two scalar registers. -/
  | smul (h : Hdr) (d : BitVec 6) (a : BitVec 6) (b : BitVec 6)
  /-- R198: Writes the high 64 bits of the unsigned product. -/
  | smulhN (h : Hdr) (d : BitVec 6) (a : BitVec 6) (b : BitVec 6)
  /-- R198: Writes the high 64 bits of the signed product. -/
  | smulhI (h : Hdr) (d : BitVec 6) (a : BitVec 6) (b : BitVec 6)
  /-- R198: Writes the bitwise and of two scalar registers. -/
  | sand (h : Hdr) (d : BitVec 6) (a : BitVec 6) (b : BitVec 6)
  /-- R198: Writes the bitwise or of two scalar registers. -/
  | sor (h : Hdr) (d : BitVec 6) (a : BitVec 6) (b : BitVec 6)
  /-- R198: Writes the bitwise xor of two scalar registers. -/
  | sxor (h : Hdr) (d : BitVec 6) (a : BitVec 6) (b : BitVec 6)
  /-- R198: Writes sA and not sB. -/
  | sandn (h : Hdr) (d : BitVec 6) (a : BitVec 6) (b : BitVec 6)
  /-- R198: Writes sA shifted left by sB, or 0 for counts of 64 or more. -/
  | sshl (h : Hdr) (d : BitVec 6) (a : BitVec 6) (b : BitVec 6)
  /-- R198: Writes sA shifted right logically by sB. -/
  | sshrN (h : Hdr) (d : BitVec 6) (a : BitVec 6) (b : BitVec 6)
  /-- R198: Writes sA shifted right arithmetically by sB. -/
  | sshrI (h : Hdr) (d : BitVec 6) (a : BitVec 6) (b : BitVec 6)
  /-- R198: Writes the signed minimum of two scalar registers. -/
  | sminI (h : Hdr) (d : BitVec 6) (a : BitVec 6) (b : BitVec 6)
  /-- R198: Writes the signed maximum of two scalar registers. -/
  | smaxI (h : Hdr) (d : BitVec 6) (a : BitVec 6) (b : BitVec 6)
  /-- R198: Writes the unsigned minimum of two scalar registers. -/
  | sminN (h : Hdr) (d : BitVec 6) (a : BitVec 6) (b : BitVec 6)
  /-- R198: Writes the unsigned maximum of two scalar registers. -/
  | smaxN (h : Hdr) (d : BitVec 6) (a : BitVec 6) (b : BitVec 6)
  /-- R198: Writes the 72-bit sum of sA and the sign-extended sB. -/
  | sadda (h : Hdr) (d : BitVec 6) (a : BitVec 6) (b : BitVec 6)
  /-- R198: Copies all 72 bits of a scalar register. -/
  | smov (h : Hdr) (d : BitVec 6) (a : BitVec 6)
  /-- R198: Writes the number of one bits in bits 63:0 of a scalar register. -/
  | spopc (h : Hdr) (d : BitVec 6) (a : BitVec 6)
  /-- R199: Writes the 64-bit sum of a scalar register and an immediate. -/
  | saddi (h : Hdr) (d : BitVec 6) (a : BitVec 6) (i : BitVec 12)
  /-- R199: Writes a scalar register shifted left by an immediate count. -/
  | sshli (h : Hdr) (d : BitVec 6) (a : BitVec 6) (n : BitVec 6)
  /-- R199: Loads a signed immediate into a scalar register. -/
  | sli (h : Hdr) (d : BitVec 6) (i : BitVec 18)
  /-- R200: Compares two scalar registers in 64 bits and writes the result to a predicate of every member. -/
  | scmp (h : Hdr) (p : BitVec 3) (a : BitVec 6) (b : BitVec 6) (c : BitVec 6)
  /-- R199: Writes the 72-bit sum of a scalar register and an immediate. -/
  | saddai (h : Hdr) (d : BitVec 6) (a : BitVec 6) (i : BitVec 12)
  /-- R203: Loads 1 to 8 bytes of global memory into a scalar register, once per sheaf. -/
  | sld (h : Hdr) (d : BitVec 6) (a : BitVec 6) (w : BitVec 3) (i : BitVec 9)
  /-- R203: Loads and checks a 16-byte pointer into a scalar register. -/
  | sldp (h : Hdr) (d : BitVec 6) (a : BitVec 6) (i : BitVec 9)
  /-- R203: Stores 1 to 8 bytes of a scalar register to global memory, once per sheaf. -/
  | sst (h : Hdr) (d : BitVec 6) (a : BitVec 6) (w : BitVec 3) (i : BitVec 9)
  /-- R203: Stores a scalar register as a 16-byte pointer. -/
  | sstp (h : Hdr) (d : BitVec 6) (a : BitVec 6) (i : BitVec 9)
  /-- R205: Reads 4, 8 or 16 bytes of the launch's parameter copy into a scalar register. -/
  | sldparam (h : Hdr) (d : BitVec 6) (w : BitVec 3) (o : BitVec 12)
  /-- R206: Writes the lowest member's vector value to a scalar register, from a full sheaf. -/
  | sfirst (h : Hdr) (d : BitVec 6) (a : BitVec 7)
  /-- R249: Writes the 32-bit sum in each active lane. -/
  | iadd (h : Hdr) (g : BitVec 3) (d : BitVec 7) (a : BitVec 7) (b : BitVec 7)
  /-- R249: Writes the 32-bit difference in each active lane. -/
  | isub (h : Hdr) (g : BitVec 3) (d : BitVec 7) (a : BitVec 7) (b : BitVec 7)
  /-- R249: Writes the low 32 bits of the product in each active lane. -/
  | imulLo (h : Hdr) (g : BitVec 3) (d : BitVec 7) (a : BitVec 7) (b : BitVec 7)
  /-- R249: Writes the high 32 bits of the signed product. -/
  | imulhI32 (h : Hdr) (g : BitVec 3) (d : BitVec 7) (a : BitVec 7) (b : BitVec 7)
  /-- R249: Writes the high 32 bits of the unsigned product. -/
  | imulhN32 (h : Hdr) (g : BitVec 3) (d : BitVec 7) (a : BitVec 7) (b : BitVec 7)
  /-- R249: Writes x times y plus a third operand, modulo 2^32. -/
  | imad (h : Hdr) (g : BitVec 3) (d : BitVec 7) (a : BitVec 7) (b : BitVec 7)
  /-- R249: Writes the bitwise and in each active lane. -/
  | iand (h : Hdr) (g : BitVec 3) (d : BitVec 7) (a : BitVec 7) (b : BitVec 7)
  /-- R249: Writes the bitwise or in each active lane. -/
  | ior (h : Hdr) (g : BitVec 3) (d : BitVec 7) (a : BitVec 7) (b : BitVec 7)
  /-- R249: Writes the bitwise xor in each active lane. -/
  | ixor (h : Hdr) (g : BitVec 3) (d : BitVec 7) (a : BitVec 7) (b : BitVec 7)
  /-- R249: Writes x shifted left by y, or 0 for counts of 32 or more. -/
  | ishl (h : Hdr) (g : BitVec 3) (d : BitVec 7) (a : BitVec 7) (b : BitVec 7)
  /-- R249: Writes x shifted right logically by y. -/
  | ishrN (h : Hdr) (g : BitVec 3) (d : BitVec 7) (a : BitVec 7) (b : BitVec 7)
  /-- R249: Writes x shifted right arithmetically by y. -/
  | ishrI (h : Hdr) (g : BitVec 3) (d : BitVec 7) (a : BitVec 7) (b : BitVec 7)
  /-- R249: Writes the signed minimum in each active lane. -/
  | iminI32 (h : Hdr) (g : BitVec 3) (d : BitVec 7) (a : BitVec 7) (b : BitVec 7)
  /-- R249: Writes the signed maximum in each active lane. -/
  | imaxI32 (h : Hdr) (g : BitVec 3) (d : BitVec 7) (a : BitVec 7) (b : BitVec 7)
  /-- R249: Writes the unsigned minimum in each active lane. -/
  | iminN32 (h : Hdr) (g : BitVec 3) (d : BitVec 7) (a : BitVec 7) (b : BitVec 7)
  /-- R249: Writes the unsigned maximum in each active lane. -/
  | imaxN32 (h : Hdr) (g : BitVec 3) (d : BitVec 7) (a : BitVec 7) (b : BitVec 7)
  /-- R249: Writes the 64-bit sum of two register pairs. -/
  | iadd64 (h : Hdr) (g : BitVec 3) (d : BitVec 7) (a : BitVec 7) (b : BitVec 7)
  /-- R249: Adds the signed 64-bit product of two 32-bit operands to a pair. -/
  | imadw (h : Hdr) (g : BitVec 3) (d : BitVec 7) (a : BitVec 7) (b : BitVec 7)
  /-- R253: Writes an integer comparison to a predicate, recording a region constraint when one operand is tagged. -/
  | icmp (h : Hdr) (g : BitVec 3) (p : BitVec 3) (c : BitVec 4) (a : BitVec 7) (b : BitVec 7)
  /-- R249: Writes vA or vB in every member, according to a predicate. -/
  | isel (h : Hdr) (s : BitVec 3) (d : BitVec 7) (a : BitVec 7) (b : BitVec 7)
  /-- R251: Applies a unary bit operation chosen by func7 in each active lane. -/
  | ibit (h : Hdr) (g : BitVec 3) (d : BitVec 7) (a : BitVec 7) (f : BitVec 7)
  /-- R249: Extracts a bit field, optionally sign-extended. -/
  | ibfe (h : Hdr) (g : BitVec 3) (d : BitVec 7) (a : BitVec 7) (b : BitVec 7)
  /-- R249: Inserts a bit field into the third operand. -/
  | ibfi (h : Hdr) (g : BitVec 3) (d : BitVec 7) (a : BitVec 7) (b : BitVec 7)
  /-- R252: Writes the signed quotient, or raises Integer-Divide when any active divisor is zero. -/
  | idivI32 (h : Hdr) (g : BitVec 3) (d : BitVec 7) (a : BitVec 7) (b : BitVec 7)
  /-- R252: Writes the unsigned quotient, or raises Integer-Divide. -/
  | idivN32 (h : Hdr) (g : BitVec 3) (d : BitVec 7) (a : BitVec 7) (b : BitVec 7)
  /-- R252: Writes the signed remainder, or raises Integer-Divide. -/
  | iremI32 (h : Hdr) (g : BitVec 3) (d : BitVec 7) (a : BitVec 7) (b : BitVec 7)
  /-- R252: Writes the unsigned remainder, or raises Integer-Divide. -/
  | iremN32 (h : Hdr) (g : BitVec 3) (d : BitVec 7) (a : BitVec 7) (b : BitVec 7)
  /-- R250: Adds a signed immediate in each active lane. -/
  | iaddi (h : Hdr) (g : BitVec 3) (d : BitVec 7) (a : BitVec 7) (i : BitVec 7)
  /-- R250: Shifts left by an immediate count. -/
  | ishli (h : Hdr) (g : BitVec 3) (d : BitVec 7) (a : BitVec 7) (n : BitVec 5)
  /-- R250: Shifts right logically by an immediate count. -/
  | ishriN (h : Hdr) (g : BitVec 3) (d : BitVec 7) (a : BitVec 7) (n : BitVec 5)
  /-- R250: Shifts right arithmetically by an immediate count. -/
  | ishriI (h : Hdr) (g : BitVec 3) (d : BitVec 7) (a : BitVec 7) (n : BitVec 5)
  /-- R263: Reads vA from the lane named by vB when it is a member, or from the lane itself otherwise. -/
  | vshfl (h : Hdr) (g : BitVec 3) (d : BitVec 7) (a : BitVec 7) (b : BitVec 7)
  /-- R264: Writes the lowest active lane's value to every active lane, or to a scalar under a prefix. -/
  | vfirst (h : Hdr) (g : BitVec 3) (d : BitVec 7) (a : BitVec 7)
  /-- R264: Writes lane n's value, or 0 when lane n is not a member, to every active lane. -/
  | vbcast (h : Hdr) (g : BitVec 3) (d : BitVec 7) (a : BitVec 7) (n : BitVec 5)
  /-- R265: Computes an ordered prefix over the active lanes in ascending lane order. -/
  | vscan (h : Hdr) (g : BitVec 3) (d : BitVec 7) (a : BitVec 7) (o : BitVec 3)
  /-- R266: Folds the active lanes' values in ascending lane order and writes the result to every active lane or to a scalar. -/
  | vred (h : Hdr) (g : BitVec 3) (d : BitVec 7) (a : BitVec 7) (f : BitVec 7)
  /-- R255: Correctly rounded F32 addition in each active lane. -/
  | faddF32 (h : Hdr) (g : BitVec 3) (d : BitVec 7) (a : BitVec 7) (b : BitVec 7)
  /-- R255: Correctly rounded F32 subtraction. -/
  | fsubF32 (h : Hdr) (g : BitVec 3) (d : BitVec 7) (a : BitVec 7) (b : BitVec 7)
  /-- R255: Correctly rounded F32 multiplication. -/
  | fmulF32 (h : Hdr) (g : BitVec 3) (d : BitVec 7) (a : BitVec 7) (b : BitVec 7)
  /-- R255: F32 fused multiply-add with one rounding. -/
  | ffmaF32 (h : Hdr) (g : BitVec 3) (d : BitVec 7) (a : BitVec 7) (b : BitVec 7)
  /-- R256: Writes the smaller F32 operand. -/
  | fminF32 (h : Hdr) (g : BitVec 3) (d : BitVec 7) (a : BitVec 7) (b : BitVec 7)
  /-- R256: Writes the larger F32 operand. -/
  | fmaxF32 (h : Hdr) (g : BitVec 3) (d : BitVec 7) (a : BitVec 7) (b : BitVec 7)
  /-- R257: Writes an F32 comparison to a predicate. -/
  | fcmpF32 (h : Hdr) (g : BitVec 3) (p : BitVec 3) (c : BitVec 4) (a : BitVec 7) (b : BitVec 7)
  /-- R258: Applies the F32 function chosen by func7. -/
  | ffunF32 (h : Hdr) (g : BitVec 3) (d : BitVec 7) (a : BitVec 7) (f : BitVec 7)
  /-- R255: Correctly rounded F32 division. -/
  | fdivF32 (h : Hdr) (g : BitVec 3) (d : BitVec 7) (a : BitVec 7) (b : BitVec 7)
  /-- R255: Correctly rounded F64 addition on register pairs. -/
  | faddF64 (h : Hdr) (g : BitVec 3) (d : BitVec 7) (a : BitVec 7) (b : BitVec 7)
  /-- R255: Correctly rounded F64 subtraction. -/
  | fsubF64 (h : Hdr) (g : BitVec 3) (d : BitVec 7) (a : BitVec 7) (b : BitVec 7)
  /-- R255: Correctly rounded F64 multiplication. -/
  | fmulF64 (h : Hdr) (g : BitVec 3) (d : BitVec 7) (a : BitVec 7) (b : BitVec 7)
  /-- R255: F64 fused multiply-add with one rounding. -/
  | ffmaF64 (h : Hdr) (g : BitVec 3) (d : BitVec 7) (a : BitVec 7) (b : BitVec 7)
  /-- R256: Writes the smaller F64 operand. -/
  | fminF64 (h : Hdr) (g : BitVec 3) (d : BitVec 7) (a : BitVec 7) (b : BitVec 7)
  /-- R256: Writes the larger F64 operand. -/
  | fmaxF64 (h : Hdr) (g : BitVec 3) (d : BitVec 7) (a : BitVec 7) (b : BitVec 7)
  /-- R257: Writes an F64 comparison to a predicate. -/
  | fcmpF64 (h : Hdr) (g : BitVec 3) (p : BitVec 3) (c : BitVec 4) (a : BitVec 7) (b : BitVec 7)
  /-- R258: Applies the F64 function chosen by func7 (sqrt, abs, neg, rint). -/
  | ffunF64 (h : Hdr) (g : BitVec 3) (d : BitVec 7) (a : BitVec 7) (f : BitVec 7)
  /-- R255: Correctly rounded F64 division. -/
  | fdivF64 (h : Hdr) (g : BitVec 3) (d : BitVec 7) (a : BitVec 7) (b : BitVec 7)
  /-- R259: Adds two packed F16 elements per lane. -/
  | faddF16x2 (h : Hdr) (g : BitVec 3) (d : BitVec 7) (a : BitVec 7) (b : BitVec 7)
  /-- R259: Multiplies two packed F16 elements per lane. -/
  | fmulF16x2 (h : Hdr) (g : BitVec 3) (d : BitVec 7) (a : BitVec 7) (b : BitVec 7)
  /-- R259: Fused multiply-add on two packed F16 elements per lane. -/
  | ffmaF16x2 (h : Hdr) (g : BitVec 3) (d : BitVec 7) (a : BitVec 7) (b : BitVec 7)
  /-- R259: Adds two packed BF16 elements per lane. -/
  | faddBf16x2 (h : Hdr) (g : BitVec 3) (d : BitVec 7) (a : BitVec 7) (b : BitVec 7)
  /-- R259: Multiplies two packed BF16 elements per lane. -/
  | fmulBf16x2 (h : Hdr) (g : BitVec 3) (d : BitVec 7) (a : BitVec 7) (b : BitVec 7)
  /-- R259: Fused multiply-add on two packed BF16 elements per lane. -/
  | ffmaBf16x2 (h : Hdr) (g : BitVec 3) (d : BitVec 7) (a : BitVec 7) (b : BitVec 7)
  /-- R260: Converts between the two formats named by func7 under R87. -/
  | cvt (h : Hdr) (g : BitVec 3) (d : BitVec 7) (a : BitVec 7) (f : BitVec 7)
  /-- R262: Quantises an F32 value to a format slot's format. -/
  | cvtq (h : Hdr) (g : BitVec 3) (d : BitVec 7) (a : BitVec 7) (s : BitVec 3)
  /-- R262: Dequantises a slot-format value to F32. -/
  | cvtd (h : Hdr) (g : BitVec 3) (d : BitVec 7) (a : BitVec 7) (s : BitVec 3)
  /-- R267: Writes RandMix of seed, global index and draw counter, and advances the counter, in each active lane. -/
  | rand (h : Hdr) (g : BitVec 3) (d : BitVec 7)
  /-- R210: Loads from global memory into each active lane's registers after the checks of R100. -/
  | ldg (h : Hdr) (g : BitVec 3) (t : BitVec 7) (o : BitVec 7) (b : BitVec 4) (w : BitVec 3)
  /-- R210: Stores each active lane's register bytes to global memory. -/
  | stg (h : Hdr) (g : BitVec 3) (t : BitVec 7) (o : BitVec 7) (b : BitVec 4) (w : BitVec 3)
  /-- R211: Global load that is an acquire at the named scope. -/
  | ldgAcq (h : Hdr) (g : BitVec 3) (t : BitVec 7) (o : BitVec 7) (b : BitVec 4) (w : BitVec 3)
  /-- R211: Global store that is a release at the named scope. -/
  | stgRel (h : Hdr) (g : BitVec 3) (t : BitVec 7) (o : BitVec 7) (b : BitVec 4) (w : BitVec 3)
  /-- R210: Loads from the block's scratchpad, checked against buffer states. -/
  | lds (h : Hdr) (g : BitVec 3) (t : BitVec 7) (o : BitVec 7) (i : BitVec 4) (w : BitVec 3)
  /-- R210: Stores to the block's scratchpad, checked against buffer states. -/
  | sts (h : Hdr) (g : BitVec 3) (t : BitVec 7) (o : BitVec 7) (i : BitVec 4) (w : BitVec 3)
  /-- R215: Sends each active lane's read-modify-write to the MAU of its home and returns the old value. -/
  | atomg (h : Hdr) (g : BitVec 3) (t : BitVec 7) (o : BitVec 7) (b : BitVec 3) (f : BitVec 4)
  /-- R215: Sends each active lane's reduction to the MAU of its home, returning nothing. -/
  | redg (h : Hdr) (g : BitVec 3) (t : BitVec 7) (o : BitVec 7) (b : BitVec 3) (f : BitVec 4)
  /-- R218: Forms one pending deterministic update per active lane with its issuer index and epoch, and advances SEQ. -/
  | redgDet (h : Hdr) (g : BitVec 3) (t : BitVec 7) (o : BitVec 7) (b : BitVec 3) (f : BitVec 4)
  /-- R215: Performs each active lane's scratchpad read-modify-write and returns the old value. -/
  | atoms (h : Hdr) (g : BitVec 3) (t : BitVec 7) (o : BitVec 7) (f : BitVec 4)
  /-- R215: Performs each active lane's scratchpad reduction. -/
  | reds (h : Hdr) (g : BitVec 3) (t : BitVec 7) (o : BitVec 7) (f : BitVec 4)
  /-- R225: Orders the gang's accesses at the named order and scope, performing the cache actions of R113. -/
  | fence (h : Hdr) (o : BitVec 2) (c : BitVec 2)
  /-- R128: Fence limited to accesses in a global address range. -/
  | fencer (h : Hdr) (o : BitVec 2) (c : BitVec 2) (a : BitVec 6) (b : BitVec 6)
  /-- R228: Adds weight 1 per active lane to a barrier object, completing phases as QUOTA is reached. -/
  | barArrive (h : Hdr) (g : BitVec 3) (s : BitVec 6)
  /-- R228: Blocks each active thread while PHASE equals the awaited phase. -/
  | barWait (h : Hdr) (g : BitVec 3) (s : BitVec 6)
  /-- R228: Arrives per active lane and blocks each until the phase held at its arrival completes. -/
  | barArrwait (h : Hdr) (g : BitVec 3) (s : BitVec 6)
  /-- R228: Adds an arrival weight w per active lane without blocking. -/
  | barCredit (h : Hdr) (g : BitVec 3) (s : BitVec 6) (w : BitVec 9)
  /-- R231: Brings each active lane's line into the named cache level, with no fault. -/
  | pfg (h : Hdr) (g : BitVec 3) (o : BitVec 7) (b : BitVec 4) (l : BitVec 3)
  /-- R233: Moves a declared buffer from empty to full. -/
  | bufFill (h : Hdr) (g : BitVec 3) (n : BitVec 4)
  /-- R233: Moves a declared buffer from full to draining. -/
  | bufTake (h : Hdr) (g : BitVec 3) (n : BitVec 4)
  /-- R233: Moves a declared buffer from draining to empty. -/
  | bufFree (h : Hdr) (g : BitVec 3) (n : BitVec 4)
  /-- R234: Checks one job card per active lane and accepts all the copy jobs together, marking the token pending. -/
  | copy (h : Hdr) (g : BitVec 3) (c : BitVec 6) (t : BitVec 6)
  /-- R279: Checks one parameter block per active lane and accepts all the matrix jobs together, marking the token pending. -/
  | mma (h : Hdr) (g : BitVec 3) (c : BitVec 6) (t : BitVec 6) (a : BitVec 3) (b : BitVec 3) (z : BitVec 1) (x : BitVec 1)
  /-- R283: Enters the task scheduler to read two columns of a tile row into each active lane's pair. -/
  | accread (h : Hdr) (g : BitVec 3) (d : BitVec 7) (a : BitVec 7) (t : BitVec 3)
  /-- R283: Enters the task scheduler to write each active lane's pair into its two columns of a tile row. -/
  | accwrite (h : Hdr) (g : BitVec 3) (d : BitVec 7) (a : BitVec 7) (t : BitVec 3)
  /-- R283: Writes the enabled low or high column of each active lane into a tile row. -/
  | apatch (h : Hdr) (g : BitVec 3) (d : BitVec 7) (a : BitVec 7) (hi : BitVec 1) (lo : BitVec 1) (t : BitVec 3)
  /-- R287: Zeroes a tile and its overflow flag after earlier jobs on it. -/
  | accctlClear (h : Hdr) (g : BitVec 3) (t : BitVec 3)
  /-- R287: Writes a tile to 16 KiB of scratchpad. -/
  | accctlSave (h : Hdr) (g : BitVec 3) (c : BitVec 6) (t : BitVec 3)
  /-- R287: Loads a tile from 16 KiB of scratchpad. -/
  | accctlLoad (h : Hdr) (g : BitVec 3) (c : BitVec 6) (t : BitVec 3)
  /-- R287: Waits until every earlier job on a tile has completed. -/
  | accctlWait (h : Hdr) (g : BitVec 3) (t : BitVec 3)
  /-- R287: Reads and clears a tile's overflow flag into a scalar register. -/
  | accctlOvf (h : Hdr) (g : BitVec 3) (d : BitVec 6) (t : BitVec 3)
  /-- R139: Opens an atomic region for each active thread with its fallback PC. -/
  | rbegin (h : Hdr) (g : BitVec 3) (o : BitVec 21)
  /-- R141: Reads a region input from its line's snapshot and tags the destination. -/
  | rld (h : Hdr) (g : BitVec 3) (t : BitVec 7) (o : BitVec 7) (b : BitVec 4)
  /-- R144: Records a concrete or symbolic store in the thread's region store list. -/
  | rst (h : Hdr) (g : BitVec 3) (t : BitVec 7) (o : BitVec 7) (b : BitVec 4) (w : BitVec 3)
  /-- R147: Hands each active thread's region to the commit engine to commit, repair or abort. -/
  | rend (h : Hdr) (g : BitVec 3)
  /-- R152: Aborts each active thread's region with cause 0x50 and an 8-bit detail. -/
  | rabort (h : Hdr) (g : BitVec 3) (i : BitVec 8)
  /-- R151: Writes each active thread's region status. -/
  | rstat (h : Hdr) (g : BitVec 3) (d : BitVec 7)
  /-- R27: At a gang's run boundary the picker forms a new sheaf from its eligible threads by wait count, yield mark and lowest PC. -/
  | issueRound (u g : Nat)
  /-- R44: After 65,536 consecutive runs without a switch point, a deterministic holding gang is switched as if it had yielded. -/
  | forcedSwitch (u g : Nat)
  /-- R210: A load or atomic response arrives and writes its destination registers, clearing the scoreboard wait. -/
  | loadResponse (u g k : Nat)
  /-- R317: The dispatcher places the next block of a launch on a core that has room for its whole footprint. -/
  | placeBlock (a core : Nat)
  /-- R73: After its last thread exits and every outstanding write to its registers has landed, the gang's register allocations are freed. -/
  | gangDrain (u g : Nat)
  /-- R39: Within 4,096 cycles of every live thread being blocked with nothing outstanding, the block is terminated and reported. -/
  | blockStall (u : Nat)
  /-- R71: At a run boundary the quadrant grants waiting reggrow requests and returns evicted gangs in order while they fit. -/
  | reggrowGrant (core quad : Nat)
  /-- R72: The quadrant writes the last gang in its order to its save area after its outstanding register writes complete. -/
  | eviction (core quad : Nat)
  /-- R72: The first reggrow waiter has waited 1,048,576 cycles without a grant, which triggers eviction. -/
  | waiterTimeout (core quad : Nat)
  /-- R124: Dirty L1 bytes are written back to the die's L2 no later than 16,384 cycles after the store. -/
  | l1WriteBack (cluster line : Nat)
  /-- R129: An atomic arriving at its home's MAU is performed after recalling dirty bytes, taking its place in the coherence order. -/
  | mauAtomic (u g k : Nat)
  /-- R219: A redg.det update arrives at its home and is kept in a holding buffer or the overflow chain in issuer order. -/
  | updateArrival (a k : Nat)
  /-- R222: When a drain point is reached, each MAU applies the drained updates of each line one by one in issuer order. -/
  | drain (a : Nat)
  /-- R147: The commit engine locks a sheaf's region lines, rereads them, repairs or aborts each lane in order, writes stores and releases the locks. -/
  | commit (u g : Nat)
  /-- R321: The task scheduler starts the earliest accepted copy job that the footprint order allows. -/
  | copyJobStart (u j : Nat)
  /-- R237: A copy job performs a 64-byte beat of elements after comparing it with watch descriptors. -/
  | copyBeat (u j : Nat)
  /-- R239: When a copy job's last bytes are written its buffer becomes full, it arrives on its barrier and its token is written. -/
  | copyCompletion (u j : Nat)
  /-- R269: The engine starts the earliest accepted mma job that R136 allows. -/
  | mmaJobStart (u j : Nat)
  /-- R278: The engine compares a K group's operand bytes with watch descriptors and then seeds or chains that group into the tile. -/
  | mmaGroup (u j : Nat)
  /-- R116: After its last group the job's token receives M × N as a release. -/
  | mmaCompletion (u j : Nat)
  /-- R284: An accepted accread, accwrite, apatch or accctl acts on its tile once every earlier job on that tile has completed. -/
  | accAction (u j : Nat)
  /-- R344: A walker reads the table entries from TROOT down and returns a translation, a fault, NoMapping or Malformed. -/
  | tableWalk (core p : Nat) (va : BitVec 72)
  /-- R330: A queued asynchronous engine event is delivered at the issuing thread's next run boundary or interrupts its wait. -/
  | engineEventDelivery (u g l : Nat)
  /-- R335: A set of blocks is stopped at run boundaries, jobs frozen, contexts written to the pool and cores freed within 3,200 cycles. -/
  | preemptionRequest (us : List Nat)
  /-- R336: A run not ended 560 cycles after the pre-emption request is saved part-way as an open run. -/
  | openRunTimeout (u g : Nat)
  /-- R308: A write of QCTL.EN = 1 starts a stopped queue when LOG2N and QBASE are valid. -/
  | queueStart (p q : Nat) (v : BitVec 64)
  /-- R312: A write of QCTL.EN = 0 stops fetching and drains or kills the dispatched launches by POLICY. -/
  | queueTeardown (p q : Nat) (v : BitVec 64)
  /-- R308: An accepted write of QBASE sets the ring base and resets QRIDX to 0. -/
  | qbaseWrite (p q : Nat) (v : BitVec 128)
  /-- R309: A write of QWIDX posts packets for the command processor to fetch. -/
  | qwidxWrite (p q : Nat) (v : BitVec 32)
  /-- R309: While QRIDX differs from QWIDX the command processor reads the next packet whole as an acquire and checks its header. -/
  | packetFetch (p q : Nat)
  /-- R313: A LAUNCH packet's launch record is read, validated and its launch dispatched. -/
  | launch (p q : Nat)
  /-- R311: A WAITSIG packet holds the queue until its condition holds between the signal and VALUE. -/
  | waitsig (p q : Nat)
  /-- R311: A waiting WAITSIG re-reads its signal at every device signal write and at least every 1 µs. -/
  | signalReread (p q : Nat)
  /-- R311: A SETSIG packet sets or adds to a signal as an atomic at scope .s. -/
  | setsig (p q : Nat)
  /-- R310: A MARK packet writes QMARK and QMTIME. -/
  | mark (p q : Nat)
  /-- R310: A FLUSH packet performs system-scope cache actions over every core of the partition. -/
  | flush (p q : Nat)
  /-- R315: After the final drain and release, the completion record is written with STATUS last and SIGADD applied. -/
  | launchCompletion (a : Nat)
  /-- R323: Every 2^20 cycles, and at launch end, each quadrant writes a 512-byte record of its histogram and stall counters. -/
  | traceRecord (a core quad : Nat) (final : Bool)
  /-- R349: A TINVAL write with GO and ALL = 0 invalidates the translations of the page at TIVA. -/
  | tinvalPage (p : Nat) (v : BitVec 64)
  /-- R349: A TINVAL write with GO and ALL = 1 invalidates every translation of the partition. -/
  | tinvalAll (p : Nat) (v : BitVec 64)
  /-- R349: When every TLB has dropped the entries and their accesses completed or parked, TINVAL.BUSY clears. -/
  | invalidationComplete (p : Nat)
  /-- R351: A write of 1 clears FROVF and re-walks every parked access of the partition. -/
  | fresume (p : Nat) (v : BitVec 64)
  /-- R356: A KEYRET write with GO starts retiring an owned key identifier. -/
  | keyRetire (p : Nat) (v : BitVec 64)
  /-- R356: After accesses drain and dirty lines under the key are written back and invalidated, BUSY clears and the slot is freed. -/
  | keyRetireComplete (p : Nat)
  /-- R3: A write to a control-window register without a row of its own updates its RW fields unless the register's rule ignores it. -/
  | registerWrite (p off : Nat) (v : BitVec 64)
  /-- R364: The home serves a read request from an L2 according to its directory entry. -/
  | getS (line d : Nat)
  /-- R364: The home serves a write-permission request, invalidating or forwarding as the entry requires. -/
  | getM (line d : Nat)
  /-- R363: An L2 releases a clean exclusive line to the home. -/
  | putE (line d : Nat)
  /-- R363: An L2 writes back a dirty line to the home, discarded as stale when it crossed a forward. -/
  | putM (line d : Nat)
  /-- R363: A P holder returns its own-mask bytes and mask to the home. -/
  | putP (line d : Nat)
  /-- R364: An owner sends the line to a requester and becomes O or S. -/
  | fwdS (line o d : Nat)
  /-- R364: An owner sends the line to a requester and becomes I. -/
  | fwdM (line o d : Nat)
  /-- R364: An L2 drops its copy of a line and answers InvAck. -/
  | inv (line d : Nat)
  /-- R361: An L2 drops a victim line of the directory cache and returns its dirty bytes. -/
  | backInv (line d : Nat)
  /-- R365: An L2 drops a line and returns its dirty bytes before an MAU operation, drain or commit lock. -/
  | recall (line d : Nat)
  /-- R364: A requester receives line data with its granted state. -/
  | data (line d : Nat) (m : Bool)
  /-- R364: The home counts an invalidation completion towards granting a request. -/
  | invAck (line d : Nat)
  /-- R364: The home completes a forwarded transaction. -/
  | fwdAck (line d : Nat)
  /-- R367: A die asks the home for privatisation mask bytes, or answers with its pending-write mask. -/
  | maskReq (line d : Nat) (m : BitVec 128)
  /-- R366: The home grants a die P state with its own and foreign masks. -/
  | maskGrant (line d : Nat)
  /-- R367: A P holder updates its foreign mask after bytes are granted to another die. -/
  | maskUpd (line d : Nat) (m : BitVec 128)
  /-- R370: A failed compute die is marked failed at every home, its entries settled and its owned lines poisoned, and its gangs migrated. -/
  | dieFailure (d : Nat)
  /-- R370: A recovered die rejoins with its incarnation incremented and empty caches. -/
  | dieReadmit (d : Nat)
  /-- R372: An uncorrectable error in L3 or HBM4 poisons the affected pieces with source 3. -/
  | uncorrectableError (line : Nat) (pieces : BitVec 16)
  /-- R405: A host transport WRITE is performed at the homes as a release at .s, in PSN order on its connection. -/
  | write (c : Nat) (pkt : HostPkt)
  /-- R405: A host transport READ is performed as an acquire at .s and answered with READ-RESP. -/
  | read (c : Nat) (pkt : HostPkt)
  /-- R404: A host acknowledgement frees the device's unacknowledged READ-RESP packets below APSN. -/
  | ack (c : Nat) (pkt : HostPkt)
  /-- R404: A host NAK makes the device resend from the gap (go-back-N). -/
  | nak (c : Nat) (pkt : HostPkt)
  /-- R404: An unacknowledged READ-RESP is resent after 20 µs, and after 16 resends the connection enters error. -/
  | resendTimeout (c : Nat)
  /-- R407: A received Axfen flit is checked by CRC, sequenced, credited and its message admitted in FSEQ order. -/
  | flit (l : Nat) (f : FlitIn)
  /-- R410: A remote read is performed at the home as a host-party access at .s and answered. -/
  | readMessage (m : FabMsg)
  /-- R410: A remote write is performed at the home under its byte mask and acknowledged. -/
  | writeMessage (m : FabMsg)
  /-- R410: A remote atomic is performed by the destination MAU. -/
  | atomicMessage (m : FabMsg)
  /-- R410: A read response fills the proxy copy of a remote line. -/
  | readResponse (m : FabMsg)
  /-- R410: A write acknowledgement counts towards completing a system-scope release. -/
  | writeAcknowledgement (m : FabMsg)
  /-- R410: An atomic response returns the old value to the waiting atomg. -/
  | atomicResponse (m : FabMsg)
  /-- R410: An error response raises Permission with reason 6 on the access. -/
  | errorResponse (m : FabMsg)
  /-- R410: A remote request without a response within 1 ms raises Permission with reason 6. -/
  | responseTimeout (tag : Nat)
  /-- R412: A device's recording session start and HWM are received on the record-control channel. -/
  | sessionNotice (m : FabMsg)
  /-- R354: Sets the partition code while no queue runs. -/
  | partcfg (seq code : Nat)
  /-- R403: Binds a host connection to a partition and a host address. -/
  | connbind (seq c p : Nat) (addr : BitVec 144)
  /-- R404: Clears a connection's error state. -/
  | connreset (seq c : Nat)
  /-- R409: Writes FABCTL and the ROUTE masks. -/
  | fabcfg (seq : Nat) (ctl : BitVec 64) (routes : List (Nat × BitVec 18))
  /-- R419: Unwraps and installs a key pair into a free slot owned by the named partition. -/
  | keyinst (seq id p : Nat) (blob : List (BitVec 8))
  /-- R415: Declares frames of the HBM4 spare pool. -/
  | sparepool (seq start : Nat) (frames : List (BitVec 64))
  /-- R417: Writes a firmware image to flash beside the running one and verifies it. -/
  | fwstage (seq : Nat) (version engine : BitVec 32) (image : List (BitVec 8))
  /-- R417: Switches partitions one at a time to the staged firmware by pre-empting and resuming their blocks. -/
  | fwapply (seq : Nat)
  /-- R416: Returns service records and the spare-pool list. -/
  | svcread (seq first : Nat)
  /-- R360: Returns the directory entries of one slice. -/
  | dirdump (seq slice : Nat)
  /-- R418: Returns a signed attestation report over the given nonce. -/
  | attest (seq : Nat) (nonce : List (BitVec 8))
  /-- R420: Sets the module power cap. -/
  | powcap (seq watts : Nat)
  /-- R414: Bring-up verifies firmware, trains HBM4, starts and tests the compute dies, trains the links and leaves reset. -/
  | powerOn (fail : Nat) (badCores : List Nat)
  /-- R415: A failed core is replaced by its cluster's spare, or the cluster runs with fewer cores, and its blocks migrate. -/
  | coreFailure (core : Nat)
  /-- R415: A failed L3 slice's channel and home move to its partner slice after its dirty lines are written to HBM4. -/
  | sliceFailure (sl : Nat)
  /-- R415: An HBM4 row with repeated corrected errors is copied to a spare row and remapped. -/
  | rowErrors (ch row : Nat)
  /-- R415: A failed HBM4 channel's frames are copied into the spare pool and redirected, or a not-repairable record is written. -/
  | channelFailure (ch : Nat)
  /-- R415: A link degrades to 4 or 2 lanes, or is taken down below 2. -/
  | linkLaneFailure (l lanes : Nat)
  /-- R420: Power above the cap or a die at 95 °C lowers the arithmetic clock in 50 MHz steps. -/
  | throttle
  /-- R420: A die at 110 °C makes the device pre-empt every block and power down the compute dies. -/
  | thermalStop (d : Nat)
  /-- R420: Once every die is below 95 °C, the stopped blocks resume. -/
  | thermalResume
  /-- R388: Writing RRCTL.EN from 0 to 1 starts a record session with every clock field reset. -/
  | sessionStart (p : Nat) (v : BitVec 64)
  /-- R388: Writing RRCTL.EN = 0 ends the session, ending every chunk. -/
  | sessionEnd (p : Nat) (v : BitVec 64)
  /-- R382: A gang's chunk ends after CHUNK instructions, and its record is written and a new chunk opened. -/
  | chunkEnd (u g : Nat)
  /-- R387: A source closes a frame at 60 KiB of records, at launch end, or at least every 1 ms, and writes it to the spill ring. -/
  | frameClose (p src : Nat)
  /-- R390: A clock that would pass 0xFFFF_FF00 sets CLOCKEND, ends every chunk and leaves launches unrecorded. -/
  | clockEnd (p : Nat)
  /-- R428: A write of RPCTL.GO starts a replay after checking the frames, resumes from a stop, or leaves replay after a divergence. -/
  | go (p : Nat) (v : BitVec 64)
  /-- R397: A write of RPCTL.HALT sets the cut clock to HWM + 1 and stops the replay there. -/
  | halt (p : Nat) (v : BitVec 64)
  /-- R398: A write of RPSEAL recomputes the check value of an engine image at a stop, or sets SEALERR. -/
  | rpseal (p : Nat) (v : BitVec 128)
  /-- R392: In replay a gang, job segment, drain or arrival held for its clock proceeds once that clock is clear. -/
  | chunkHoldRelease (u g : Nat)
  /-- R397: When every chunk below the cut has completed, every gang is saved and RPSTAT shows the stop. -/
  | replayStop (p : Nat)
  /-- R166: Issuing a word that is not an instruction (unassigned primary or function code, non-zero required-zero field, forbidden operand code or broken prefix rule) raises Illegal-Instruction precisely on every member of the sheaf. -/
  | wordNotAnInstruction (reason : BitVec 8) (word : BitVec 32) (idx len : Nat)
  /-- R112: An L1 slice position loses its slice, its dirty bytes go to the L2 or are poisoned with source 3, and its lines are redirected to the next working position of the cluster. -/
  | l1SliceFailure (cluster pos : Nat)
  /-- R417: Power fails, stopping the device, including during a firmware update, after which the next bring-up starts the highest valid firmware version. -/
  | powerFailure
  deriving DecidableEq, Repr

end Sys2Proof
end

