-- ==== Sys2Proof/Machine/State.lean ====
section
/-! DEFINITION. Everything the spec gives the machine to hold, as plain data, and the machine after reset. Threads are
inside gangs, gangs inside blocks; launches, partitions, caches, homes, the recorder, the fabric and the management
controller stand beside them. Fields of the model's own are the agenda, the gang in issue and the counters (log 4,
log 5, log 6). -/

namespace Sys2Proof.Machine

/-- Why a blocked thread waits (R25): on a rejoin set, on a barrier's phase (by bar.wait, or by bar.arrwait when arr
holds), or with its gang in reggrow. pc is the address of the blocking instruction (R39). -/
inductive Wait where
  | jwait (j : Nat) (pc : Word)
  | bar (off : Nat) (phase : BitVec 32) (pc : Word) (arr : Bool)
  | reggrow
  deriving DecidableEq, Repr

/-- The state of a thread (R25). -/
inductive ThreadState where
  | eligible
  | blocked (w : Wait)
  | exited
  deriving DecidableEq, Repr

/-- An input of an atomic region (R141): physical and virtual address, the value read, whether it is rigid. -/
structure RInput where
  pa : Nat
  va : Wide
  value : Word
  rigid : Bool
  deriving DecidableEq, Repr

/-- A line of a region with the address and key that first reached it, its snapshot and the line's write count when that
was taken (R141, R146). -/
structure RLine where
  line : Nat
  va : Wide
  key : Nat
  snap : Option (BitVec 1024 × Nat)
  deriving DecidableEq, Repr

/-- A recorded constraint (R143): tagFirst says that the tagged operand came first. -/
structure RConstraint where
  k : Nat
  c : Word
  cond : BitVec 4
  u : Word
  tagFirst : Bool
  result : Bool
  deriving DecidableEq, Repr

/-- A recorded store (R144): concrete bytes, or a symbolic value (k, c). -/
structure RStore where
  pa : Nat
  va : Wide
  size : Nat
  bits : Dword
  sym : Option (Nat × Word)
  deriving DecidableEq, Repr

/-- The tag of a vector register (R142). -/
structure RTag where
  reg : Nat
  k : Nat
  c : Word
  deriving DecidableEq, Repr

/-- An open atomic region of a thread (R139-R145). -/
structure Region where
  fallback : Word
  count : Nat
  inputs : List RInput
  lines : List RLine
  cons : List RConstraint
  stores : List RStore
  tags : List RTag
  deriving DecidableEq, Repr

/-- A thread: one lane of a gang (R24, R25, R59, R67, R325, R340). -/
structure Lane where
  st : ThreadState
  pc : Word
  lnk : Word
  draw : Dword
  waitCount : Nat
  ymark : Bool
  v : Vector Word 112
  p : BitVec 7
  tcause : Dword
  tpc : Dword
  taddr : Dword
  tinfo : Dword
  handler : Bool
  resume : Word
  watchPass : Bool
  /-- The barrier wait that a tret returns to: object offset, phase, blocking pc (R331). -/
  restored : Option (Nat × BitVec 32 × Word)
  seq : Nat
  epoch : Nat
  jobSeq : BitVec 32
  /-- The thread has executed a run since its last tret (R330). -/
  ranSinceTret : Bool
  rstat : Word
  /-- In record mode, the barrier object whose phase released the thread from its wait: the read that its next
  instruction owes (R381). -/
  woken : Option Nat
  region : Option Region
  deriving DecidableEq, Repr

/-- The earliest instruction of a run that raised an enabled floating-point exception (R88, R89): the lanes that did,
the OR of their enabled flags, its PC and its position in the run. -/
structure FpTrap where
  lanes : BitVec 32
  flags : BitVec 5
  pc : Word
  pos : Nat
  deriving DecidableEq, Repr

/-- The sheaf in issue (R26-R31): its members, the members whose PC the run has already settled, the next word's PC
and position in the run. -/
structure Sheaf where
  members : BitVec 32
  out : BitVec 32
  pc : Word
  pos : Nat
  fp : Option FpTrap
  /-- Threads that a rend of this run hands to the commit engine (R147), with the rend's address and words. -/
  commit : Option (BitVec 32 × Word × Nat)
  /-- Members that had executed no run since their tret when the sheaf was formed (R330). -/
  fresh : BitVec 32 := 0
  deriving DecidableEq, Repr

/-- A response on its way to a gang's vector registers (R210): lane masks are in the writes themselves. -/
structure Resp where
  /-- lane, register, value -/
  writes : List (Nat × Nat × Word)
  /-- It answers a global access, not a scratchpad one (R322). -/
  far : Bool
  deriving DecidableEq, Repr

/-- One lane of a global atomic on its way to its MAU (R129, R215). -/
structure MauOp where
  lane : Nat
  pa : Nat
  key : Nat
  f : BitVec 4
  w64 : Bool
  operand : Dword
  compare : Dword
  /-- The destination register of atomg; none for redg. -/
  dest : Option Nat
  va : Wide
  /-- The cache action of an acquire, after the operation: 0 none, 1 device, 2 system (R113). -/
  acq : Nat
  /-- The address of the instruction. -/
  pc : Word
  /-- The tag of the message that carries it to another device (R410). -/
  tag : Option (BitVec 32)
  /-- That message's response: the old value, or none for an error. -/
  answer : Option (Option Dword)
  deriving DecidableEq, Repr

/-- A queued engine event (R329). -/
structure EngEvent where
  lane : Nat
  cause : Nat
  tpc : Word
  taddr : Dword
  tinfo : Dword
  /-- The job frozen for it, released by the thread's tret or exit (R326, R334). -/
  job : Option Nat
  deriving DecidableEq, Repr

/-- An access of a gang that waits for system software or for another device (R350, R410). -/
structure Parked where
  /-- 0 a translation fault, 1 another device's line or acknowledgement, 2 a remote access that failed and has still to
  raise Permission, 3 an instruction fetch from another device's line. -/
  kind : Nat
  part : Nat
  /-- The virtual address of a translation fault; the physical address of a remote line. -/
  va : Wide
  deriving DecidableEq, Repr

/-- The recorder's part of a gang (R382-R384). -/
structure ChunkState where
  clock : Nat
  cseq : Nat
  count : Nat
  digest : Dword
  clks : List Dword
  /-- Instruction offset and cause (R383). -/
  traps : List (Nat × Nat)
  /-- AGENT and clock. -/
  deps : List (BitVec 32 × Nat)
  fabric : List (Nat × BitVec 32)
  mseq : BitVec 32
  prevClock : Nat
  /-- The sieve's sources, least recently used first (R384). -/
  sieve : List (BitVec 32 × Nat)
  deriving DecidableEq, Repr

/-- A gang: 32 threads and what they share (R24, R46, R59, R67-R73). -/
structure Gang where
  idx : Nat
  role : Nat
  vb : Nat
  sb : Nat
  lanes : Vector Lane 32
  s : Vector Wide 64
  jm : Vector Word 16
  ja : Vector Word 16
  fpstat : BitVec 5
  spfault : Word
  sheaf : Option Sheaf
  /-- A pending reggrow request (R70) and the time it was made (R72). -/
  grow : Option (Nat × Nat)
  evicted : Bool
  /-- The save area that the quadrant wrote when it evicted the gang (R72, R75); empty while it is resident. -/
  area : List Byte := []
  drained : Bool
  parked : Option Parked
  resp : List Resp
  mau : List MauOp
  /-- An atomg on another device's memory, which waits for its responses (R410). -/
  away : List MauOp
  /-- The lanes whose stores a stg.rel.s under way has made, while a later lane waits for its release (R211). -/
  stored : BitVec 32 := 0
  /-- Tokens pending on the scoreboard (R116). -/
  tokens : List Nat
  /-- Vector registers that a queued accread will write (R284). -/
  accRegs : List Nat
  events : List EngEvent
  lastIssue : Nat
  runs : Nat
  ymark : Bool
  chunk : Option ChunkState
  /-- In replay, held at the start of a chunk whose clock is not clear (R392). -/
  held : Bool
  /-- A stop found its run still going after 560 cycles: the run is saved part-way (R336). -/
  cut : Bool
  /-- The trace checker's record of reports made: object, phase (R400). -/
  checked : List (Nat × Nat)
  deriving DecidableEq, Repr

/-- A region of an engine job's footprint (R133). -/
inductive JSpace where
  | global | spad | acc
  deriving DecidableEq, Repr

/-- A region of an engine job's footprint (R133): base and length in bytes, or a tile. -/
structure JRegion where
  space : JSpace
  write : Bool
  base : Nat
  len : Nat
  deriving DecidableEq, Repr

/-- A slot descriptor (R90, R91). -/
structure SlotDesc where
  fmt : Nat
  planes : Nat
  centre : Bool
  scale : Nat
  ftz : Bool
  rnd : Nat
  deriving DecidableEq, Repr

/-- The shape and effect of a copy, from its card (R235-R239): extents and byte strides of dimensions 0 to 3, dimension
0 innermost with the element size as its stride. -/
structure CopyCard where
  es : Nat
  srcSpad : Bool
  dstSpad : Bool
  src : Nat
  dst : Nat
  ext : List Nat
  sstr : List Int
  dstr : List Int
  bar : Bool
  baroff : Nat
  arrw : Nat
  dstBuf : Option Nat
  deriving DecidableEq, Repr

/-- The parameters of an mma job, from its block and its word, with its two slots (R275, R277, R292). -/
structure MmaPar where
  m : Nat
  n : Nat
  slotA : SlotDesc
  slotB : SlotDesc
  z : Bool
  bs : Bool
  tile : Nat
  abase : Nat
  astr : Nat
  bbase : Nat
  bstr : Nat
  deriving DecidableEq, Repr

/-- An accumulator action that waits for earlier jobs on its tile (R284, R287). -/
inductive AccOp where
  /-- Rows per lane, destination pair. -/
  | read (vd : Nat) (rows : List (Nat × Nat))
  /-- Row, low and high column values with their enables, per lane. -/
  | write (cells : List (Nat × Nat × Option Word × Option Word))
  | clear
  | save (off : Nat)
  | load (off : Nat)
  | wait
  | ovf (sd : Nat)
  deriving DecidableEq, Repr

/-- What a job does. -/
inductive JobKind where
  | copy (c : CopyCard)
  | mma (p : MmaPar)
  | acc (tile : Nat) (op : AccOp)
  deriving DecidableEq, Repr

/-- An accepted engine job (R136, R237, R269, R284). -/
structure Job where
  id : Nat
  gang : Nat
  lane : Nat
  kind : JobKind
  token : Option Nat
  /-- The last job of its instruction: its completion frees the token (R116). -/
  lastOfInstr : Bool
  seq : BitVec 32
  pc : Word
  regions : List JRegion
  started : Bool
  /-- Elements copied, or K groups done. -/
  pos : Nat
  /-- Frozen for a Watchpoint (R290, R334). -/
  frozen : Bool
  /-- The position that the watch comparison lets pass (R334). -/
  watchPos : Option Nat
  parked : Bool
  failed : Bool
  clock : Nat
  prevClock : Nat
  firstClock : Option Nat
  jobNo : Nat
  /-- In replay, held for a clock (R392), and the number of its logged clocks that have let it go on. -/
  held : Bool
  step : Nat
  /-- An accumulator action of a handler thread of a frozen job: it waits only for jobs accepted before that one (R291). -/
  past : Option Nat
  /-- An event that waits for room in its gang's queue (R329). -/
  want : Option EngEvent
  deriving DecidableEq, Repr

/-- The recorder's four fields of an item (R377); agent 0xFFFFFFFF is none. -/
structure Clocks where
  wclk : Nat
  wag : BitVec 32
  rclk : Nat
  rag : BitVec 32
  deriving DecidableEq, Repr

/-- A block on a core (R20-R22, R59, R101, R105). Working copies of the tiles are sorted lists of (4096 t + 64 i + j,
value) without zero values; the scratchpad is a sorted list of cells without zero bytes. -/
structure Block where
  uid : Nat
  launch : Nat
  lin : Nat
  recNo : Nat
  core : Nat
  stamp : Nat
  gangs : List Gang
  spad : List Host.Cell
  bufs : Vector (BitVec 2) 16
  acc : List (Nat × Word)
  ovf : BitVec 8
  jobs : List Job
  nextJob : Nat
  /-- Clocks of scratchpad lines, tiles, buffer states and tokens (R377). -/
  clocks : List (Nat × Clocks)
  /-- The clock of an item without an entry: 0, or what a resumption gave all of them (R377). -/
  baseClock : Nat
  /-- A stop has been requested (R335), with the time of the request. -/
  stop : Option Nat
  /-- An access to its context record waits on a translation fault (R338, R351). -/
  parked : Bool := false
  deriving DecidableEq, Repr

/-- A watch descriptor (R332). -/
structure WatchDesc where
  base : Nat
  spad : Bool
  esize : Nat
  ndim : Nat
  kinds : BitVec 4
  ext : List Nat
  str : List Int
  deriving DecidableEq, Repr

/-- What the launch record gives (R313), after its checks. -/
structure LaunchRec where
  addr : Wide
  det : Bool
  record : Bool
  debug : Bool
  fpEnables : BitVec 5
  codeBase : Wide
  entry : Word
  handler : Word
  gridX : Nat
  gridY : Nat
  gridZ : Nat
  gangs : Nat
  accn : Nat
  scratch : Nat
  stackStride : Nat
  stackBase : Wide
  affsel : Nat
  affmul : Nat
  affTable : List Byte
  chunk : Nat
  seed : Dword
  completion : Wide
  slots : List (Option SlotDesc)
  bufs : List (Nat × Nat)
  roles : List Nat
  budgets : List (Nat × Nat)
  watch : List WatchDesc
  trace : Wide
  traceLen : Nat
  param : List Byte
  deriving DecidableEq, Repr

/-- A pending redg.det update (R218, R219): its issuer index, block linear index and operation. -/
structure DetUpdate where
  issuer : Nat
  lin : Nat
  pa : Nat
  key : Nat
  f : BitVec 4
  w64 : Bool
  operand : Dword
  /-- The gang that issued it and the epoch of its drain point (R221). -/
  gang : Nat
  lane : Nat
  epoch : Nat
  va : Wide
  tpc : Word
  /-- Arrived at the home: in a holding buffer (false) or in the overflow chain (true). -/
  chained : Bool
  deriving DecidableEq, Repr

/-- A fault as the completion record names it (R315, R327). -/
structure FaultRec where
  cause : Nat
  lin : Nat
  gang : Nat
  lane : Nat
  tpc : Dword
  taddr : Dword
  tinfo : Dword
  deriving DecidableEq, Repr

/-- A Block-Stall report (R39): live masks and waiting addresses of the gangs. -/
structure StallRec where
  lin : Nat
  masks : List Word
  waits : List (List Word)
  deriving DecidableEq, Repr

/-- A dispatched launch (R313-R320). -/
structure Launch where
  id : Nat
  part : Nat
  queue : Nat
  packet : Nat
  prio : Nat
  order : Nat
  dispatched : Nat
  signal : Wide
  sigadd : Dword
  r : LaunchRec
  next : Nat
  done : Nat
  /-- The saved blocks (R337-R339): each with its record's offset and size in the context pool. -/
  saved : List (Block × Nat × Nat)
  /-- 0 running, otherwise the STATUS with which it ends (R315). -/
  status : Nat
  reject : Option (Nat × Nat)
  fault : Option FaultRec
  deadlock : Option (List (Word × Word))
  stalls : Nat
  stall : Option StallRec
  spfaults : List (Nat × List Word)
  spcount : Nat
  detLine : Nat
  detLost : Nat
  /-- Updates under way to their homes, and updates held there, in issue order. -/
  inflight : List DetUpdate
  held : List DetUpdate
  drains : Nat
  /-- The virtual cores' SEQ counters carried from block to block: (vcore, gang, lane, seq) (R8). -/
  seqs : List (Nat × Nat)
  vcBusy : List Nat
  /-- The cores of a deterministic launch's positions (R319). -/
  positions : List Nat
  number : Option Nat
  lbase : Nat
  traceNext : Nat
  traceLost : Nat
  traceSusp : Nat
  /-- Trace writes suspended until the next FRESUME, or ended by a Permission failure (R399). -/
  traceSuspended : Bool
  traceEnded : Bool
  /-- The completion record is written; the add to the signal is still to come (R315). -/
  recordWritten : Bool
  /-- A write of its record or its signal waits on a translation fault (R315, R350). -/
  parked : Bool
  /-- The quadrants that have held a block of it, each with the time of its last trace record (R323). -/
  traceQuads : List (Nat × Nat × Nat)
  deriving DecidableEq, Repr

/-- A packet that the command processor has fetched and not yet completed (R309-R311). -/
structure Packet where
  idx : Nat
  typ : Nat
  barrier : Bool
  bytes : List Byte
  /-- A LAUNCH that has been dispatched, or a WAITSIG that has read its signal (R311). -/
  launched : Bool
  deriving DecidableEq, Repr

/-- A queue slot (R307, R308). -/
structure Queue where
  st : BitVec 2
  log2n : BitVec 6
  policy : Bool
  prio : BitVec 2
  en : Bool
  base : Wide
  widx : BitVec 32
  ridx : BitVec 32
  fault : Dword
  mark : Dword
  mtime : Dword
  packets : List Packet
  /-- The STATE that the queue takes when its launches have ended (R312). -/
  closing : Option (BitVec 2)
  /-- Its next access waits on a translation fault (R350). -/
  parked : Bool
  /-- Its next access has dropped the proxy copies that it reads anew (R309, R374). -/
  asked : Bool
  deriving DecidableEq, Repr

/-- A record of a replay's log (R385, R386), parsed. -/
inductive LogRec where
  | chunk (lnum block gang cseq clock count ending : Nat) (clks : List Dword) (traps : List (Nat × Nat))
      (fabric : List (Nat × BitVec 32)) (digest : Option Dword)
  | jobStep (lnum block gang lane jobSeq pos clock : Nat) (first : Option Nat)
  | jobEnd (lnum block gang lane jobSeq clock : Nat) (first : Option Nat)
  | drain (lnum k stamp : Nat)
  | arrival (src place : Nat) (agent mseq : BitVec 32) (stamp : Nat)
  | begin (lnum queue packet : Nat) (addr : Wide) (lbase : Nat)
  | finish (lnum status : Nat)
  deriving DecidableEq, Repr

/-- The frames of a recorder source that the ring does not hold yet (R387, R390): source, next frame sequence number, the
records of closed frames, oldest first, and those of the open frame. -/
structure FrameBuf where
  src : Nat
  seq : Nat
  kept : List (List Byte)
  bytes : List Byte
  deriving DecidableEq, Repr

/-- A partition: its queues and its control window (R307, R338, R345, R316, R388, R391, R354). -/
structure Partition where
  queues : Vector Queue 64
  ctxBase : Wide
  ctxSize : Dword
  troot : BitVec 52
  tinvalAll : Bool
  tinvalLevel : BitVec 2
  tinvalBusy : Bool
  tiva : Wide
  frBase : BitVec 52
  frLog2n : BitVec 4
  frHead : BitVec 32
  frTail : BitVec 32
  frOvf : BitVec 32
  /-- The 64 KiB pages with a record since the last FRESUME (R350). -/
  frPages : List Nat
  keyRet : BitVec 8
  keyBusy : Bool
  keyOwn : BitVec 256
  dcBase : BitVec 52
  dcSize : Dword
  rrBase : BitVec 52
  rrDigest : Bool
  rrMode : Bool
  rrLog2sz : BitVec 6
  rrEn : Bool
  rrHead : Dword
  rrTail : Dword
  rrStalled : Bool
  rrClockEnd : Bool
  rrWrapped : Bool
  rrLost : Dword
  hwm : Nat
  lnums : Nat
  recNext : Nat
  frames : List FrameBuf
  rpFree : Bool
  rpBrk : Bool
  rpSrc : Wide
  rpLen : Dword
  rpBreak : BitVec 128
  rpCut : BitVec 32
  rpDiv : BitVec 4
  rpMoved : Bool
  rpSrcErr : Bool
  rpSealErr : Bool
  rpState : BitVec 3
  rpDetail : List Byte
  rpLog : List LogRec
  /-- The cut clock of a pending stop that a breakpoint set, and of one that HALT set (R397). -/
  rpStop : Option Nat
  rpHalt : Option Nat
  /-- Number of logged launches dispatched so far (R392). -/
  rpNext : Nat
  /-- Records of the log that have completed: index, and whether it is a job's first segment (R392). -/
  rpDone : List (Nat × Bool)
  /-- A GO with FREE has ended the replay, and the remaining logged launches run as ordinary ones (R398). -/
  rpLeft : Bool
  /-- The dispatch of the next logged launch waits on a translation fault (R351, R392). -/
  rpParked : Bool := false
  /-- A GO, and an RPSEAL with the value written, that wait for another device's memory (R391, R398, R410). -/
  rpGo : Bool := false
  rpSeal : Option (BitVec 128) := none
  /-- The engine image version that its cores write and restore (R293, R417). -/
  engine : BitVec 32
  deriving DecidableEq, Repr

/-- A line of a cluster's L1 (R112, R113): its bytes, which of them are valid, which dirty, and which 8-byte pieces one dirty
write has covered whole (R372). -/
structure L1Line where
  cluster : Nat
  line : Nat
  key : Nat
  data : BitVec 1024
  valid : BitVec 128
  dirty : BitVec 128
  whole : BitVec 16
  deriving DecidableEq, Repr

/-- What HBM4 holds beside a line's bytes: the key that they were last written back under (R355), the poison of its pieces
and its source (R372). -/
structure LineMeta where
  line : Nat
  key : Nat
  poison : BitVec 16
  psrc : BitVec 2
  deriving DecidableEq, Repr

/-- A line in its L3 slice, under its key (R10, R355): its bytes with what the L2s have added to them (log 8), whether HBM4 has
them, the poison of its pieces and its source (R372), and the recorder's clocks of every copy that is not privatised, for
each partition (R377, log 38). -/
structure L3Line where
  line : Nat
  key : Nat
  data : BitVec 1024
  dirty : Bool
  poison : BitVec 16
  psrc : BitVec 2
  clk : Vector Clocks 4
  deriving DecidableEq, Repr

/-- The state of a line in a die's L2 (R358). -/
inductive L2State where
  | i | s | e | m | o | p
  deriving DecidableEq, Repr

/-- A line in a die's L2, with its masks and its own clocks while privatised (R358, R366, R380). -/
structure L2Line where
  die : Nat
  line : Nat
  key : Nat
  st : L2State
  own : BitVec 128
  foreign : BitVec 128
  clk : Vector Clocks 4
  deriving DecidableEq, Repr

/-- The STATE of a directory entry (R360). -/
inductive DirState where
  | i | s | e | m | o | p | busy
  deriving DecidableEq, Repr

/-- A directory entry (R360), with its last use (R361), the transfers of write permission that count towards contention, each
with the die that it went to (R366), the acknowledgements and requester of the transaction in progress, and the requests
that wait for its end, oldest first (R362, R364). -/
structure DirEntry where
  line : Nat
  key : Nat
  st : DirState
  sharers : BitVec 4
  owner : BitVec 2
  priv : Bool
  remote : Bool
  used : Nat
  moves : List (Nat × Nat)
  acks : Nat
  req : Option (Nat × Bool)
  held : List (Nat × Bool)
  /-- The masks that dies have answered to the home's MaskReq (R366). -/
  masks : List (Nat × BitVec 128)
  /-- The entry cannot be read any more (R371). -/
  bad : Bool
  deriving DecidableEq, Repr

/-- The bytes of another device's line that this device's L2s hold, which of them are valid, which not yet written back to
its home (R373), and the recorder's clocks (R377). -/
structure RemoteLine where
  line : Nat
  key : Nat
  data : BitVec 1024
  valid : BitVec 128
  dirty : BitVec 128
  clk : Vector Clocks 4
  deriving DecidableEq, Repr

/-- A translation that a quadrant's TLB holds, or its core's second level where there is no quadrant (R348). -/
structure TlbEntry where
  core : Nat
  quad : Option Nat
  part : Nat
  level : Nat
  va : Nat
  pa : Nat
  key : Nat
  r : Bool
  w : Bool
  x : Bool
  deriving DecidableEq, Repr

/-- A non-leaf entry that the walkers of a die hold (R348): the table of a level that serves a virtual address. -/
structure TableEntry where
  die : Nat
  part : Nat
  level : Nat
  va : Nat
  table : Nat
  deriving DecidableEq, Repr

/-- The counters of a quadrant that has held a block (R322): ELIG.e, and the stall cycles of role r and reason q at 12 r + q. -/
structure QuadStat where
  core : Nat
  quad : Nat
  elig : Vector Nat 17
  stall : Vector Nat 48
  deriving DecidableEq, Repr

/-- A READ-RESP packet that is kept until it is acknowledged (R404): its PSN, SPACE, ADDR and payload, when it was last sent, and
how often it has been sent again. -/
structure HeldResp where
  psn : BitVec 32
  space : Nat
  addr : Nat
  data : List Byte
  time : Nat
  tries : Nat
  deriving DecidableEq, Repr

/-- A host connection (R403, R404). -/
structure Conn where
  part : Nat
  addr : BitVec 144
  bound : Bool
  /-- The next PSN expected, and the next own PSN. -/
  expect : BitVec 32
  own : BitVec 32
  /-- Unacknowledged READ-RESP packets, oldest first. -/
  held : List HeldResp
  /-- The UDP payloads sent, newest first. -/
  sent : List (List Byte)
  error : Bool
  gap : Bool
  /-- Received operations not yet performed, oldest first (R405). -/
  todo : List HostPkt
  /-- The first of them waits on a translation fault (R351, R405). -/
  parked : Bool := false
  /-- The first of them has begun: a READ has dropped the proxy copies, a WRITE's bytes are on their way to their homes (R405). -/
  begun : Bool := false
  deriving DecidableEq, Repr

/-- An Axfen link (R406, R407, R415). -/
structure Link where
  up : Bool
  lanes : Nat
  lseq : BitVec 16
  lack : BitVec 16
  /-- The last LACK received. -/
  acked : BitVec 16
  cred : Vector Nat 3
  resends : Nat
  /-- Credits to return with the next flit, per channel. -/
  owed : Vector Nat 3
  /-- The last flits sent, newest first (R407). -/
  held : List FlitIn
  /-- Messages that wait for a credit, oldest first (R407). -/
  wait : List FabMsg
  /-- It has asked for the flits from LACK on and has not had the first of them (R407). -/
  asking : Bool := false
  /-- Every flit that has left on the link, newest first: those sent again stand in it once more (the model's own field, log 28). -/
  out : List FlitIn := []
  deriving DecidableEq, Repr

/-- A remote request without a response (R410): its message and the time it was sent, and who waits: block and gang,
or block and job. -/
structure RemoteReq where
  msg : FabMsg
  sent : Nat
  gang : Option (Nat × Nat)
  job : Option (Nat × Nat)
  /-- The lane, the instruction and the virtual address that it is sent for, where a failure is reported to them. -/
  lane : Nat
  pc : Word
  va : Wide
  /-- A read whose answer an acquire at .s has made stale: it fills no proxy copy (R132, R374). -/
  stale : Bool
  deriving DecidableEq, Repr

/-- A service record (R416). -/
structure ServiceRec where
  time : Nat
  kind : Nat
  result : Nat
  unit : Nat
  pa : Nat
  count : Nat
  deriving DecidableEq, Repr

/-- The management controller (R413-R420). -/
structure Mgmt where
  step : Nat
  failedStep : Nat
  lastSeq : Nat
  discarded : Nat
  /-- The status and content of the last answer. -/
  reply : Option (Nat × List Byte)
  records : List ServiceRec
  /-- Spare-pool frames, each with whether it is in use (R415). -/
  pool : List (Nat × Bool)
  /-- Retired channels, each with the pool frames that stand for its own frames (R415). -/
  retired : List (Nat × List Nat)
  rows : List (Nat × Nat)
  slicesOut : List Nat
  fwVersion : BitVec 32
  fwEngine : BitVec 32
  fwImage : List Byte
  fwStaged : Option (BitVec 32 × BitVec 32 × List Byte)
  fwFused : BitVec 32
  /-- Partitions that FWAPPLY could not update (R417). -/
  fwHeld : List Nat
  keysUsed : BitVec 256
  /-- The key pair, as it was wrapped, that each slot was last given (R419). -/
  keyPairs : List (Nat × List Byte)
  capWatts : Nat
  clockMHz : Nat
  thermal : Bool
  sparesUsed : List Nat
  failedCores : List Nat
  l1Out : List (Nat × Nat)
  deriving DecidableEq, Repr

/-- The machine. -/
structure State where
  /-- The events to come, first first (the model's own field, log 4). -/
  agenda : List Instr
  /-- The block and gang whose sheaf issues (the model's own field, log 4). -/
  cur : Option (Nat × Nat)
  /-- Open values taken so far (the model's own field, log 5). -/
  freeCtr : Nat
  /-- The kind of events that is tried first when the device chooses (the model's own field, log 4). -/
  turn : Nat
  /-- Steps so far (the model's own field, log 6). -/
  tick : Nat
  /-- Device time (R196). -/
  time : Nat
  nextId : Nat
  /-- What HBM4 holds (R10): the bytes of each line as they were last written back, under the key of its LineMeta (R355). -/
  mem : List Host.Cell
  lines : List LineMeta
  l3 : List L3Line
  /-- The number of writes that each line has had under a key: line, key, count (the model's own measure of the coherence order
  of R123 and R146, log 8). -/
  writes : List (Nat × Nat × Nat)
  /-- FLOOR of a slice, for each partition: partition, slice, clock (R377). -/
  floor : List (Nat × Nat × Nat)
  l1 : List L1Line
  /-- The lines of the dies' L2s, the least recently used first (R373). -/
  l2 : List L2Line
  dir : List DirEntry
  remote : List RemoteLine
  tlb : List TlbEntry
  tables : List TableEntry
  blocks : List Block
  launches : List Launch
  /-- The holding gang of each quadrant for each deterministic launch: launch, core, quadrant, block, gang (R42). -/
  holders : List (Nat × Nat × Nat × Nat × Nat)
  quads : List QuadStat
  code : BitVec 2
  parts : Vector Partition 4
  dieFailed : BitVec 4
  dieInc : Vector (BitVec 4) 4
  linkEn : BitVec 18
  devId : BitVec 8
  routes : Vector (BitVec 18) 256
  links : Vector Link 18
  fseqOut : List (Nat × Nat × BitVec 32)
  fseqIn : List (Nat × Nat × BitVec 32)
  /-- Messages admitted and not yet handled; messages received ahead of their sequence (R409). -/
  arrived : List FabMsg
  early : List FabMsg
  requests : List RemoteReq
  /-- Lines, with their keys, whose read for the command processor or the host has failed (R410). -/
  deadLines : List (Nat × Nat)
  nextTag : BitVec 32
  sessions : List FabMsg
  conns : Vector Conn 256
  /-- The configured addresses of each host port, and the packets that it has discarded and counted (R402). -/
  portAddrs : Vector (List (BitVec 128)) 2
  portDiscards : Vector Nat 2
  mgmt : Mgmt
  deriving DecidableEq, Repr

/-- Why a step stops with a fault. -/
inductive Fault where
  /-- An encoded instruction was given to exec while no gang has a sheaf in issue: the instruction has no executor
  (R26, R31). Raised by every encoded instruction; step never does it, since it issues only from a sheaf. Safe. -/
  | noSheaf
  deriving DecidableEq, Repr

/-- Why a step is refused. -/
inductive Refusal where
  /-- An instruction whose meaning is not written yet. Raised by its arm of exec. Safe. -/
  | notModelled (mnemonic : String)
  deriving DecidableEq, Repr

/-- A queue slot after reset (R307, R308; the rest log 3). -/
def Queue.reset : Queue :=
  { st := 0, log2n := 0, policy := false, prio := 0, en := false, base := 0, widx := 0, ridx := 0, fault := 0, mark := 0,
    mtime := 0, packets := [], closing := none, parked := false, asked := false }

/-- A partition's registers after reset (R308, R345, R389, R391; those without a reset value log 3). -/
def Partition.reset : Partition :=
  { queues := Vector.replicate 64 Queue.reset, ctxBase := 0, ctxSize := 0, troot := 0, tinvalAll := false, tinvalLevel := 0,
    tinvalBusy := false, tiva := 0, frBase := 0, frLog2n := 0, frHead := 0, frTail := 0, frOvf := 0, frPages := [],
    keyRet := 0, keyBusy := false, keyOwn := 1, dcBase := 0, dcSize := 0, rrBase := 0, rrDigest := false, rrMode := false,
    rrLog2sz := 0, rrEn := false, rrHead := 0, rrTail := 0, rrStalled := false, rrClockEnd := false, rrWrapped := false,
    rrLost := 0, hwm := 0, lnums := 0, recNext := 0, frames := [], rpFree := false, rpBrk := false, rpSrc := 0, rpLen := 0,
    rpBreak := 0, rpCut := 0, rpDiv := 0, rpMoved := false, rpSrcErr := false, rpSealErr := false, rpState := 0,
    rpDetail := List.replicate 48 0, rpLog := [], rpStop := none, rpHalt := none, rpNext := 0, rpDone := [], rpLeft := false, engine := 1 }

/-- A host connection before the management controller binds it (R403). -/
def Conn.reset : Conn :=
  { part := 0, addr := 0, bound := false, expect := 0, own := 0, held := [], sent := [], error := false, gap := false, todo := [] }

/-- A trained link on its eight lanes, sequence numbers at 0 (R406, R414; credits log 3). -/
def Link.reset : Link :=
  { up := true, lanes := 8, lseq := 0, lack := 0, acked := 0, cred := Vector.replicate 3 0, resends := 0, owed := Vector.replicate 3 0,
    held := [], wait := [] }

/-- The management controller after bring-up (R414; the rest log 3). -/
def Mgmt.reset : Mgmt :=
  { step := 4, failedStep := 0, lastSeq := 0, discarded := 0, reply := none, records := [], pool := [], retired := [], rows := [],
    slicesOut := [], fwVersion := 0, fwEngine := 1, fwImage := [], fwStaged := none, fwFused := 0, fwHeld := [], keysUsed := 0, keyPairs := [],
    capWatts := 2600, clockMHz := 800, thermal := false, sparesUsed := [], failedCores := [], l1Out := [] }

/-- The machine after reset: the end of bring-up (R414). -/
def State.reset : State :=
  { agenda := [], cur := none, freeCtr := 0, turn := 0, tick := 0, time := 0, nextId := 0, mem := [], lines := [], l3 := [], writes := [],
    floor := [], l1 := [], l2 := [], dir := [], remote := [], tlb := [], tables := [], blocks := [], launches := [], holders := [], quads := [], code := 0,
    parts := Vector.replicate 4 Partition.reset, dieFailed := 0, dieInc := Vector.replicate 4 0, linkEn := 0, devId := 0,
    routes := Vector.replicate 256 0, links := Vector.replicate 18 Link.reset, fseqOut := [], fseqIn := [], arrived := [], early := [],
    requests := [], deadLines := [], nextTag := 0, sessions := [], conns := Vector.replicate 256 Conn.reset, portAddrs := Vector.replicate 2 [0],
    portDiscards := Vector.replicate 2 0,
    mgmt := Mgmt.reset }

end Sys2Proof.Machine
end

