-- ==== Sys2Proof/Machine/Access.lean ====
section
/-! DEFINITION. Reaching the parts of the state: sparse memories in canonical form, lane masks, registers, gangs,
blocks, launches, partitions. -/

namespace Sys2Proof.Machine

/-! ### Sparse arrays: sorted lists of (address, value) that list no zero -/

/-- The value at an address; an unlisted address holds zero (log 2). -/
def sread {n : Nat} : List (Nat × BitVec n) → Nat → BitVec n
  | [], _ => 0
  | (k, v) :: t, a => if k = a then v else sread t a

/-- The array with the value at an address replaced; a zero is not listed. -/
def swrite {n : Nat} : List (Nat × BitVec n) → Nat → BitVec n → List (Nat × BitVec n)
  | [], a, b => if b = 0 then [] else [(a, b)]
  | (k, v) :: t, a, b =>
    if a < k then (if b = 0 then (k, v) :: t else (a, b) :: (k, v) :: t)
    else if a = k then (if b = 0 then t else (a, b) :: t)
    else (k, v) :: swrite t a b

/-- The canonical form: addresses strictly rise from lo on, and no zero is listed. -/
def swfFrom {n : Nat} : Nat → List (Nat × BitVec n) → Bool
  | _, [] => true
  | lo, (k, v) :: t => decide (lo ≤ k) && decide (v ≠ 0) && swfFrom (k + 1) t

/-- A memory in canonical form. -/
def Memory.wf (m : List Host.Cell) : Bool := swfFrom 0 m

/-- n bytes from a on as a little-endian number (R2). -/
def readLE (m : List Host.Cell) (a : Nat) : Nat → Nat
  | 0 => 0
  | n + 1 => (sread m a).toNat + 256 * readLE m (a + 1) n

/-- Writing a number as n little-endian bytes from a on (R2). -/
def writeLE (m : List Host.Cell) (a : Nat) : Nat → Nat → List Host.Cell
  | 0, _ => m
  | n + 1, v => writeLE (swrite m a (BitVec.ofNat 8 v)) (a + 1) n (v / 256)

/-- The bytes of a number, least significant first. -/
def bytesOf : Nat → Nat → List Byte
  | 0, _ => []
  | n + 1, v => BitVec.ofNat 8 v :: bytesOf n (v / 256)

/-- The number that little-endian bytes hold. -/
def ofBytes : List Byte → Nat
  | [] => 0
  | b :: t => b.toNat + 256 * ofBytes t

/-- n bytes from a on, lowest address first. -/
def readBytes (m : List Host.Cell) (a n : Nat) : List Byte := (List.range n).map fun i => sread m (a + i)

/-- Writing bytes from a on, lowest address first. -/
def writeBytes (m : List Host.Cell) (a : Nat) : List Byte → List Host.Cell
  | [] => m
  | b :: t => writeBytes (swrite m a b) (a + 1) t

/-- Bytes i to i + n - 1 of a list, as a number. -/
def fieldAt (bs : List Byte) (i n : Nat) : Nat := ofBytes ((bs.drop i).take n)

/-- Whether bytes i to i + n - 1 of a list are zero. -/
def zeroAt (bs : List Byte) (i n : Nat) : Bool := decide (fieldAt bs i n = 0)

/-- An entry put into a list sorted by its first part; it stands before equal ones. -/
def insertSorted {α : Type} (x : Nat × α) : List (Nat × α) → List (Nat × α)
  | [] => [x]
  | y :: t => if x.1 ≤ y.1 then x :: y :: t else y :: insertSorted x t

/-- A list sorted by its first parts, equal ones in their order. -/
def sortedBy {α : Type} (l : List (Nat × α)) : List (Nat × α) := l.foldr insertSorted []

/-! ### Lane masks -/

/-- The mask of the lanes that satisfy f. -/
def maskOf (f : Nat → Bool) : BitVec 32 :=
  (List.range 32).foldl (fun m l => if f l then m ||| BitVec.twoPow 32 l else m) 0

/-- The lanes of a mask, ascending. -/
def lanesOf (m : BitVec 32) : List Nat := (List.range 32).filter fun l => m.getLsbD l

/-- The lowest lane of a mask, or 0. -/
def lowest (m : BitVec 32) : Nat := (lanesOf m).headD 0

/-- How many lanes a mask holds. -/
def popcount (m : BitVec 32) : Nat := (lanesOf m).length

/-! ### Threads -/

/-- A thread with every field zero: what lies outside a gang's 32 lanes. -/
def Lane.blank : Lane :=
  { st := .exited, pc := 0, lnk := 0, draw := 0, waitCount := 0, ymark := false, v := Vector.replicate 112 0, p := 0,
    tcause := 0, tpc := 0, taddr := 0, tinfo := 0, handler := false, resume := 0, watchPass := false, restored := none,
    seq := 0, epoch := 1, jobSeq := 0, ranSinceTret := true, rstat := 0, woken := none,
    region := none }

/-- A vector register of a thread. -/
def Lane.reg (t : Lane) (n : Nat) : Word := vget t.v n 0

/-- The thread with a vector register replaced. -/
def Lane.setReg (t : Lane) (n : Nat) (x : Word) : Lane := { t with v := vset t.v n x }

/-- A pair of vector registers, the even one low (R62). -/
def Lane.pair (t : Lane) (n : Nat) : Dword := t.reg (n + 1) ++ t.reg n

/-- The thread with a pair replaced (R62). -/
def Lane.setPair (t : Lane) (n : Nat) (x : Dword) : Lane :=
  (t.setReg n (x.extractLsb' 0 32)).setReg (n + 1) (x.extractLsb' 32 32)

/-- A predicate of a thread; p7 is true (R65). -/
def Lane.pred (t : Lane) (n : BitVec 3) : Bool := if n = 7 then true else t.p.getLsbD n.toNat

/-- The thread with a predicate replaced; a write to p7 is discarded (R65). -/
def Lane.setPred (t : Lane) (n : BitVec 3) (b : Bool) : Lane :=
  if n = 7 then t
  else { t with p := if b then t.p ||| BitVec.twoPow 7 n.toNat else t.p &&& ~~~ BitVec.twoPow 7 n.toNat }

/-- A live thread (R25). -/
def Lane.live (t : Lane) : Bool := decide (t.st ≠ .exited)

/-- A thread that a sheaf may gather (R25). -/
def Lane.eligible (t : Lane) : Bool := decide (t.st = .eligible)

/-- A thread blocked in jwait. -/
def Lane.inJwait (t : Lane) : Bool := match t.st with | .blocked (.jwait _ _) => true | _ => false

/-- A thread blocked on a barrier. -/
def Lane.inBar (t : Lane) : Bool := match t.st with | .blocked (.bar _ _ _ _) => true | _ => false

/-! ### Gangs -/

/-- Lane l of a gang. -/
def Gang.lane (G : Gang) (l : Nat) : Lane := vget G.lanes l Lane.blank

/-- The gang with the lanes of a mask changed. -/
def Gang.modLanes (G : Gang) (m : BitVec 32) (f : Nat → Lane → Lane) : Gang :=
  { G with lanes := G.lanes.mapIdx fun l t => if m.getLsbD l then f l t else t }

/-- The gang with one lane changed. -/
def Gang.modLane (G : Gang) (l : Nat) (f : Lane → Lane) : Gang := { G with lanes := vset G.lanes l (f (G.lane l)) }

/-- The mask of live lanes (R67, LIVE). -/
def Gang.live (G : Gang) : BitVec 32 := maskOf fun l => (G.lane l).live

/-- The mask of eligible lanes. -/
def Gang.eligible (G : Gang) : BitVec 32 := maskOf fun l => (G.lane l).eligible

/-- A scalar register (R59). -/
def Gang.sreg (G : Gang) (n : Nat) : Wide := vget G.s n 0

/-- The gang with a scalar register replaced. -/
def Gang.setSreg (G : Gang) (n : Nat) (x : Wide) : Gang := { G with s := vset G.s n x }

/-- A 32-bit source code of a lane: a vector register or a broadcast scalar (R64, R173 Src). -/
def Gang.src (G : Gang) (c : BitVec 7) (l : Nat) : Word :=
  if c.toNat < 112 then (G.lane l).reg c.toNat else (G.sreg (c.toNat - 112)).extractLsb' 0 32

/-- A 64-bit source code of a lane (R173 Src64). -/
def Gang.src64 (G : Gang) (c : BitVec 7) (l : Nat) : Dword :=
  if c.toNat < 112 then (G.lane l).pair c.toNat else (G.sreg (c.toNat - 112)).extractLsb' 0 64

/-- The lanes whose guard predicate is true (R159). -/
def Gang.guardMask (G : Gang) (g : BitVec 3) : BitVec 32 := maskOf fun l => (G.lane l).pred g

/-- Rejoin masks (R46). -/
def Gang.m (G : Gang) (j : Nat) : Word := vget G.jm j 0
def Gang.a (G : Gang) (j : Nat) : Word := vget G.ja j 0
def Gang.setM (G : Gang) (j : Nat) (x : Word) : Gang := { G with jm := vset G.jm j x }
def Gang.setA (G : Gang) (j : Nat) (x : Word) : Gang := { G with ja := vset G.ja j x }

/-- The members of the gang's sheaf that still run: members, live, with their PC not settled. -/
def Gang.running (G : Gang) : BitVec 32 :=
  match G.sheaf with
  | some s => s.members &&& ~~~ s.out &&& G.live
  | none => 0

/-- Settling lanes: the run no longer changes their PC. -/
def Gang.settle (G : Gang) (m : BitVec 32) : Gang :=
  { G with sheaf := G.sheaf.map fun s => { s with out := s.out ||| m } }

/-! ### Blocks, launches, partitions -/

/-- A block by its number. -/
def State.block? (s : State) (u : Nat) : Option Block := s.blocks.find? fun b => decide (b.uid = u)

/-- The state with a block changed. -/
def State.modBlock (s : State) (u : Nat) (f : Block → Block) : State :=
  { s with blocks := s.blocks.map fun b => if b.uid = u then f b else b }

/-- The block with a gang changed. -/
def Block.modGang (b : Block) (g : Nat) (f : Gang → Gang) : Block := { b with gangs := b.gangs.modify g f }

/-- A gang by its block and logical index. -/
def State.gang? (s : State) (u g : Nat) : Option Gang := (s.block? u).bind fun b => b.gangs[g]?

/-- The state with a gang changed. -/
def State.modGang (s : State) (u g : Nat) (f : Gang → Gang) : State := s.modBlock u fun b => b.modGang g f

/-- A launch by its number. -/
def State.launch? (s : State) (a : Nat) : Option Launch := s.launches.find? fun x => decide (x.id = a)

/-- The state with a launch changed. -/
def State.modLaunch (s : State) (a : Nat) (f : Launch → Launch) : State :=
  { s with launches := s.launches.map fun x => if x.id = a then f x else x }

/-- The launch of a block. -/
def State.launchOf (s : State) (u : Nat) : Option Launch := (s.block? u).bind fun b => s.launch? b.launch

/-- A partition's registers. -/
def State.part (s : State) (p : Nat) : Partition := vget s.parts p Partition.reset

/-- The state with a partition changed. -/
def State.modPart (s : State) (p : Nat) (f : Partition → Partition) : State :=
  { s with parts := vset s.parts p (f (s.part p)) }

/-- A queue slot. -/
def State.queue (s : State) (p q : Nat) : Queue := vget (s.part p).queues q Queue.reset

/-- The state with a queue slot changed. -/
def State.modQueue (s : State) (p q : Nat) (f : Queue → Queue) : State :=
  s.modPart p fun P => { P with queues := vset P.queues q (f (vget P.queues q Queue.reset)) }

/-- A fresh open value (log 5). -/
def State.freeVal (s : State) : Dword := Config.freeValue s.freeCtr

/-- The state after an open value is taken. -/
def State.takeFree (s : State) : State := { s with freeCtr := s.freeCtr + 1 }

/-! ### Places on the package -/

/-- The die of a core position (64 positions a die; R9). -/
def dieOf (core : Nat) : Nat := core / 64

/-- The cluster of a core position, 0 to 31 (eight positions a cluster; R9). -/
def clusterOf (core : Nat) : Nat := core / 8

/-- The partitions that a partition code gives (R354). -/
def partsOf (code : BitVec 2) : Nat := if code = 0 then 1 else if code = 1 then 2 else 4

/-- The dies of a partition (R354). -/
def diesOf (code : BitVec 2) (p : Nat) : List Nat :=
  if code = 0 then [0, 1, 2, 3] else if code = 1 then [2 * p, 2 * p + 1] else [p]

/-- The positions with a working core, ascending (R13, R319, R415). -/
def State.workingCores (s : State) (p : Nat) : List Nat :=
  (diesOf s.code p).flatMap fun d =>
    if s.dieFailed.getLsbD d then []
    else (List.range 64).filterMap fun i =>
      if (64 * d + i) ∈ s.mgmt.failedCores then none else some (64 * d + i)

/-- Whether no queue of a partition has a STATE other than 0 (R338). -/
def Partition.idle (P : Partition) : Bool := P.queues.toList.all fun q => decide (q.st = 0)

end Sys2Proof.Machine
end

