-- ==== Sys2Proof/Machine/Float.lean ====
section
/-! DEFINITION. Numbers (chapter 05): the formats, exact values, the one rounding function, arithmetic, the correctly
rounded functions, conversions. -/

namespace Sys2Proof.Machine

/-- A floating-point format (R77): exponent and fraction bits, bias, and whether it is F8A, which has no infinities. -/
structure Fmt where
  eb : Nat
  fb : Nat
  bias : Nat
  f8a : Bool
  deriving DecidableEq, Repr

def Fmt.f64 : Fmt := ⟨11, 52, 1023, false⟩
def Fmt.f32 : Fmt := ⟨8, 23, 127, false⟩
def Fmt.f16 : Fmt := ⟨5, 10, 15, false⟩
def Fmt.bf16 : Fmt := ⟨8, 7, 127, false⟩
def Fmt.f8A : Fmt := ⟨4, 3, 7, true⟩
def Fmt.f8B : Fmt := ⟨5, 2, 15, false⟩

/-- Bits of a format. -/
def Fmt.width (f : Fmt) : Nat := 1 + f.eb + f.fb

/-- What an encoding stands for (R78): a NaN, an infinity, or (-1)^neg * m * 2^e, where m = 0 is a signed zero. -/
inductive FVal where
  | nan (signalling : Bool)
  | inf (neg : Bool)
  | num (neg : Bool) (m : Nat) (e : Int)
  deriving DecidableEq, Repr

/-- The value of an encoding (R78, Value). -/
def Fmt.value (f : Fmt) (bits : Nat) : FVal :=
  let neg := decide (bits / 2 ^ (f.eb + f.fb) % 2 = 1)
  let E := bits / 2 ^ f.fb % 2 ^ f.eb
  let F := bits % 2 ^ f.fb
  if E = 2 ^ f.eb - 1 ∧ ¬ f.f8a then
    if F = 0 then .inf neg else .nan (decide (F < 2 ^ (f.fb - 1)))
  else if f.f8a ∧ E = 2 ^ f.eb - 1 ∧ F = 2 ^ f.fb - 1 then .nan false
  else if E = 0 then .num neg F (1 - (f.bias : Int) - f.fb)
  else .num neg (2 ^ f.fb + F) ((E : Int) - f.bias - f.fb)

/-- A subnormal encoding. -/
def Fmt.subnormal (f : Fmt) (bits : Nat) : Bool :=
  decide (bits / 2 ^ f.fb % 2 ^ f.eb = 0) && decide (bits % 2 ^ f.fb ≠ 0)

/-- The value as an operand: under .ftz a subnormal is a zero of its own sign (R84, In). -/
def Fmt.operand (f : Fmt) (ftz : Bool) (bits : Nat) : FVal :=
  if ftz ∧ f.subnormal bits then .num (decide (bits / 2 ^ (f.eb + f.fb) % 2 = 1)) 0 0 else f.value bits

/-- Whether a value is a signalling NaN. -/
def FVal.isSnan : FVal → Bool | .nan q => q | _ => false
/-- Whether a value is a NaN. -/
def FVal.isNan : FVal → Bool | .nan _ => true | _ => false
/-- Whether a value is a zero. -/
def FVal.isZero : FVal → Bool | .num _ m _ => decide (m = 0) | _ => false
/-- The sign of a value. -/
def FVal.neg : FVal → Bool | .nan _ => false | .inf n => n | .num n _ _ => n

/-- An exact result: a NaN, an infinity, or (-1)^neg * (m + d) * 2^e, where d = 0 unless st, and then 0 < d < 1. -/
inductive Exact where
  | nan
  | inf (neg : Bool)
  | real (neg : Bool) (m : Nat) (e : Int) (st : Bool)
  deriving DecidableEq, Repr

/-- A value as an exact result. -/
def FVal.exact : FVal → Exact
  | .nan _ => .nan
  | .inf n => .inf n
  | .num n m e => .real n m e false

/-- NV when a value is a signalling NaN. -/
def FVal.nv (x : FVal) : BitVec 5 := if x.isSnan then flagNV else 0

/-! ### Rounding (R83) -/

/-- The canonical NaN (R79). -/
def Fmt.nanBits (f : Fmt) : Nat :=
  if f.f8a then 2 ^ (f.eb + f.fb) - 1 else (2 ^ f.eb - 1) * 2 ^ f.fb + 2 ^ (f.fb - 1)

/-- The infinity of a sign. -/
def Fmt.infBits (f : Fmt) (neg : Bool) : Nat :=
  (if neg then 2 ^ (f.eb + f.fb) else 0) + (2 ^ f.eb - 1) * 2 ^ f.fb

/-- MaxFinite of a sign (R77, R83). -/
def Fmt.maxBits (f : Fmt) (neg : Bool) : Nat :=
  (if neg then 2 ^ (f.eb + f.fb) else 0)
    + (if f.f8a then 2 ^ (f.eb + f.fb) - 2 else (2 ^ f.eb - 2) * 2 ^ f.fb + (2 ^ f.fb - 1))

/-- The exponent of the quantum of MaxFinite, and its significand. -/
def Fmt.maxExp (f : Fmt) : Int := (if f.f8a then 2 ^ f.eb - 1 else 2 ^ f.eb - 2 : Nat) - (f.bias : Int) - f.fb
def Fmt.maxSig (f : Fmt) : Nat := if f.f8a then 2 ^ (f.fb + 1) - 2 else 2 ^ (f.fb + 1) - 1

/-- The exponent of the smallest quantum. -/
def Fmt.minExp (f : Fmt) : Int := 1 - (f.bias : Int) - f.fb

/-- Comparing a * 2^p with b * 2^q. -/
def scaledLt (a : Nat) (p : Int) (b : Nat) (q : Int) : Bool :=
  if p ≤ q then decide (a < b * 2 ^ (q - p).toNat) else decide (a * 2 ^ (p - q).toNat < b)

/-- Rounding (m + d) * 2^e by a mode to a multiple of 2^q (R83): the multiple and whether it is inexact. -/
def roundTo (mode : Nat) (neg : Bool) (m : Nat) (e : Int) (st : Bool) (q : Int) : Nat × Bool :=
  if q ≤ e then
    let k := m * 2 ^ (e - q).toNat
    let up := st && (decide (mode = 2) && !neg || decide (mode = 3) && neg)
    (if up then k + 1 else k, st)
  else
    let sh := (q - e).toNat
    let k := m / 2 ^ sh
    let r := m % 2 ^ sh
    let half := 2 ^ (sh - 1)
    let inex := decide (r ≠ 0) || st
    let up := match mode with
      | 0 => decide (half < r) || (decide (r = half) && (st || decide (k % 2 = 1)))
      | 1 => false
      | 2 => inex && !neg
      | 3 => inex && neg
      | _ => decide (half ≤ r)
    (if up then k + 1 else k, inex)

/-- The encoding of k * 2^q, where k has at most fb + 1 significant bits, or is 2^(fb + 1) (R78). -/
def Fmt.encode (f : Fmt) (neg : Bool) (k : Nat) (q : Int) : Nat :=
  let k' := if k = 2 ^ (f.fb + 1) then 2 ^ f.fb else k
  let q' := if k = 2 ^ (f.fb + 1) then q + 1 else q
  (if neg then 2 ^ (f.eb + f.fb) else 0)
    + (if k' < 2 ^ f.fb then k' else (q' + f.bias + f.fb).toNat * 2 ^ f.fb + (k' - 2 ^ f.fb))

/-- RoundFmt (R83): the delivered encoding and the flags raised. -/
def roundFmt (x : Exact) (f : Fmt) (mode : Nat) (sat ftz : Bool) : Nat × BitVec 5 :=
  match x with
  | .nan => (f.nanBits, 0)
  | .inf neg =>
    if !f.f8a then (f.infBits neg, 0)
    else if sat then (f.maxBits neg, 0)
    else (f.nanBits, flagNV)
  | .real neg m e st =>
    let nought := if neg then 2 ^ (f.eb + f.fb) else 0
    if m = 0 ∧ ¬ st then (nought, 0)
    else
      let top := e + m.log2
      let qz := if m = 0 then f.minExp - 64 else top - f.fb
      let qy := max qz f.minExp
      let z := roundTo mode neg m e st qz
      let y := roundTo mode neg m e st qy
      if scaledLt f.maxSig f.maxExp z.1 qz then
        (if sat then f.maxBits neg
         else if mode = 1 ∨ (mode = 2 ∧ neg) ∨ (mode = 3 ∧ ¬ neg) then f.maxBits neg
         else if f.f8a then f.nanBits
         else f.infBits neg, flagOF ||| flagNX)
      else if ftz ∧ y.1 ≠ 0 ∧ scaledLt y.1 qy (2 ^ f.fb) f.minExp then (nought, flagUF ||| flagNX)
      else
        (f.encode neg y.1 qy,
         (if y.2 then flagNX else 0)
           ||| (if y.2 ∧ scaledLt z.1 qz (2 ^ f.fb) f.minExp then flagUF else 0))

/-! ### Arithmetic (R84-R86) -/

/-- The sum of two exact reals; an exact zero sum of opposite signs is +0, or -0 under .rd (R84). -/
def addReal (mode : Nat) (n1 : Bool) (m1 : Nat) (e1 : Int) (n2 : Bool) (m2 : Nat) (e2 : Int) : Exact :=
  let e := min e1 e2
  let a := m1 * 2 ^ (e1 - e).toNat
  let b := m2 * 2 ^ (e2 - e).toNat
  if n1 = n2 then .real n1 (a + b) e false
  else if a = b then .real (decide (mode = 3)) 0 0 false
  else if a < b then .real n2 (b - a) e false
  else .real n1 (a - b) e false

/-- The sum of two exact results, with NV for infinities of opposite signs (R85). -/
def addExact (mode : Nat) (x y : Exact) : Exact × BitVec 5 :=
  match x, y with
  | .nan, _ => (.nan, 0)
  | _, .nan => (.nan, 0)
  | .inf a, .inf b => if a = b then (.inf a, 0) else (.nan, flagNV)
  | .inf a, _ => (.inf a, 0)
  | _, .inf b => (.inf b, 0)
  | .real n1 m1 e1 _, .real n2 m2 e2 _ => (addReal mode n1 m1 e1 n2 m2 e2, 0)

/-- The product of two values, with NV for 0 times infinity (R85). -/
def mulExact (x y : FVal) : Exact × BitVec 5 :=
  match x, y with
  | .nan _, _ => (.nan, 0)
  | _, .nan _ => (.nan, 0)
  | .inf a, y => if y.isZero then (.nan, flagNV) else (.inf (a != y.neg), 0)
  | x, .inf b => if x.isZero then (.nan, flagNV) else (.inf (x.neg != b), 0)
  | .num n1 m1 e1, .num n2 m2 e2 => (.real (n1 != n2) (m1 * m2) (e1 + e2) false, 0)

/-- The value with its sign inverted. -/
def FVal.negate : FVal → FVal
  | .nan q => .nan q
  | .inf n => .inf (!n)
  | .num n m e => .num (!n) m e

def fAdd (mode : Nat) (x y : FVal) : Exact × BitVec 5 :=
  let r := addExact mode x.exact y.exact
  (r.1, r.2 ||| x.nv ||| y.nv)

def fMul (x y : FVal) : Exact × BitVec 5 :=
  let r := mulExact x y
  (r.1, r.2 ||| x.nv ||| y.nv)

/-- Fused multiply-add: one rounding; 0 times infinity raises NV whatever the addend is (R85, R86). -/
def fFma (mode : Nat) (x y z : FVal) : Exact × BitVec 5 :=
  let p := mulExact x y
  let r := addExact mode p.1 z.exact
  (r.1, p.2 ||| r.2 ||| x.nv ||| y.nv ||| z.nv)

/-- a * 2^p / b, with at least 130 bits (b is not zero). -/
def divReal (neg : Bool) (a : Nat) (p : Int) (b : Nat) : Exact :=
  let k := 130 + b.log2
  .real neg (a * 2 ^ k / b) (p - k) (decide (a * 2 ^ k % b ≠ 0))

def fDiv (x y : FVal) : Exact × BitVec 5 :=
  match x, y with
  | .nan _, _ => (.nan, x.nv ||| y.nv)
  | _, .nan _ => (.nan, x.nv ||| y.nv)
  | .inf _, .inf _ => (.nan, flagNV)
  | .inf a, y => (.inf (a != y.neg), 0)
  | x, .inf b => (.real (x.neg != b) 0 0 false, 0)
  | .num n1 m1 e1, .num n2 m2 e2 =>
    if m2 = 0 then (if m1 = 0 then (.nan, flagNV) else (.inf (n1 != n2), flagDZ))
    else if m1 = 0 then (.real (n1 != n2) 0 0 false, 0)
    else (divReal (n1 != n2) m1 (e1 - e2) m2, 0)

/-- The integer square root, bit by bit from bit k down. -/
def isqrtFrom (n : Nat) : Nat → Nat → Nat
  | 0, r => r
  | k + 1, r => isqrtFrom n k (if (r + 2 ^ k) * (r + 2 ^ k) ≤ n then r + 2 ^ k else r)

/-- The integer square root. -/
def isqrt (n : Nat) : Nat := isqrtFrom n (n.log2 / 2 + 1) 0

/-- The square root of m * 2^e, m not zero. -/
def sqrtReal (m : Nat) (e : Int) : Exact :=
  let m' := if e % 2 = 0 then m else m * 2
  let e' := if e % 2 = 0 then e else e - 1
  let r := isqrt (m' * 2 ^ 256)
  .real false r (e' / 2 - 128) (decide (r * r ≠ m' * 2 ^ 256))

def fSqrt (x : FVal) : Exact × BitVec 5 :=
  match x with
  | .nan _ => (.nan, x.nv)
  | .inf n => if n then (.nan, flagNV) else (.inf false, 0)
  | .num n m e =>
    if m = 0 then (.real n 0 0 false, 0) else if n then (.nan, flagNV) else (sqrtReal m e, 0)

/-- 1 / sqrt(m * 2^e), m not zero. -/
def rsqReal (m : Nat) (e : Int) : Exact :=
  let m' := if e % 2 = 0 then m else m * 2
  let e' := if e % 2 = 0 then e else e - 1
  let q := 2 ^ 512 / m'
  let r := isqrt q
  .real false r (-(e' / 2) - 256) (decide (r * r * m' ≠ 2 ^ 512))

def fRsq (x : FVal) : Exact × BitVec 5 :=
  match x with
  | .nan _ => (.nan, x.nv)
  | .inf n => if n then (.nan, flagNV) else (.real false 0 0 false, 0)
  | .num n m e =>
    if m = 0 then (.inf n, flagDZ) else if n then (.nan, flagNV) else (rsqReal m e, 0)

def fRcp (x : FVal) : Exact × BitVec 5 :=
  match x with
  | .nan _ => (.nan, x.nv)
  | .inf n => (.real n 0 0 false, 0)
  | .num n m e => if m = 0 then (.inf n, flagDZ) else (divReal n 1 (-e) m, 0)

/-! ### ex2 and lg2 (R86): fixed point with 384 fraction bits (log 10) -/

/-- ln 2 times 2^384, rounded down. -/
def ln2Fix : Nat :=
  0xb17217f7d1cf79abc9e3b39803f2f6af40f343267298b62d8a0d175b8baafa2be7b876206debac98559552fb4afa1b10

/-- e^y times 2^384 for y * 2^384 = y, by its series: term is the running term, k its index. -/
def expSeries (y : Nat) : Nat → Nat → Nat → Nat → Nat
  | 0, _, _, sum => sum
  | fuel + 1, k, term, sum => expSeries y fuel (k + 1) (term * y / 2 ^ 384 / k) (sum + term)

/-- 2 * atanh(z) times 2^384 for z * 2^384 = z, by its series. -/
def atanhSeries (z2 : Nat) : Nat → Nat → Nat → Nat → Nat
  | 0, _, _, sum => 2 * sum
  | fuel + 1, k, term, sum => atanhSeries z2 fuel (k + 2) (term * z2 / 2 ^ 384) (sum + term / k)

/-- 2^x for x = (-1)^neg * m * 2^e. -/
def ex2Real (neg : Bool) (m : Nat) (e : Int) : Exact :=
  if scaledLt 1024 0 m e then (if neg then .real false 1 (-1024) true else .real false 1 1024 true)
  else
    let ip := if 0 ≤ e then m * 2 ^ e.toNat else m / 2 ^ (-e).toNat
    let fp := if 0 ≤ e then 0 else m % 2 ^ (-e).toNat
    if fp = 0 then .real false 1 (if neg then -(ip : Int) else ip) false
    else
      -- x = n + r with 0 < r < 1; r * 2^384
      let d := 2 ^ (-e).toNat
      let n : Int := if neg then -(ip : Int) - 1 else ip
      let r := (if neg then d - fp else fp) * 2 ^ 384 / d
      .real false (expSeries (r * ln2Fix / 2 ^ 384) 96 1 (2 ^ 384) 0 / 2 ^ 32) (n - 352) true

def fEx2 (x : FVal) : Exact × BitVec 5 :=
  match x with
  | .nan _ => (.nan, x.nv)
  | .inf n => if n then (.real false 0 0 false, 0) else (.inf false, 0)
  | .num n m e => (ex2Real n m e, 0)

/-- log2 of m * 2^e, m not zero. -/
def lg2Real (m : Nat) (e : Int) : Exact :=
  let k := e + m.log2
  let one := 2 ^ m.log2
  if m = one then .real (decide (k < 0)) k.natAbs 0 false
  else
    let z := (m - one) * 2 ^ 384 / (m + one)
    let f : Nat := atanhSeries (z * z / 2 ^ 384) 130 1 z 0 * 2 ^ 384 / ln2Fix
    let v : Int := k * 2 ^ 384 + f
    -- the series is below the true value by a few units of 2^-384; the result is cut to 352 fraction bits
    if 0 ≤ v then .real false (v.toNat / 2 ^ 32) (-352) true
    else .real true ((-v).toNat / 2 ^ 32) (-352) true

def fLg2 (x : FVal) : Exact × BitVec 5 :=
  match x with
  | .nan _ => (.nan, x.nv)
  | .inf n => if n then (.nan, flagNV) else (.inf false, 0)
  | .num n m e => if m = 0 then (.inf true, flagDZ) else if n then (.nan, flagNV) else (lg2Real m e, 0)

/-! ### Comparison, minimum and maximum (R256, R257) -/

/-- x < y for values that are no NaNs; the zeros are equal. -/
def FVal.lt : FVal → FVal → Bool
  | .inf a, .inf b => a && !b
  | .inf a, .num _ _ _ => a
  | .num _ _ _, .inf b => !b
  | .num n1 m1 e1, .num n2 m2 e2 =>
    if m1 = 0 then decide (m2 ≠ 0) && !n2
    else if m2 = 0 then n1
    else if n1 ≠ n2 then n1
    else if n1 then scaledLt m2 e2 m1 e1 else scaledLt m1 e1 m2 e2
  | _, _ => false

/-- x = y for values that are no NaNs; the zeros are equal. -/
def FVal.eq (x y : FVal) : Bool := !x.isNan && !y.isNan && !x.lt y && !y.lt x

/-- The condition of a code and the flags it raises (R162, R257). -/
def fCompare (cond : Nat) (x y : FVal) : Bool × BitVec 5 :=
  let un := x.isNan || y.isNan
  let quiet := x.nv ||| y.nv
  let loud := if un then flagNV else 0
  match cond with
  | 0 => (x.eq y, quiet)
  | 1 => (!x.eq y, quiet)
  | 2 => (!un && x.lt y, loud)
  | 3 => (!un && !y.lt x, loud)
  | 4 => (!un && y.lt x, loud)
  | 5 => (!un && !x.lt y, loud)
  | 6 => (un, quiet)
  | _ => (!un, quiet)

/-- The operand of smaller value, -0 below +0 (R256): whether it is the first. -/
def firstIsMin (x y : FVal) : Bool :=
  if x.isZero && y.isZero then x.neg else !y.lt x

/-- An encoding with a subnormal flushed to a zero of its sign under .ftz (R84). -/
def Fmt.flush (f : Fmt) (ftz : Bool) (bits : Nat) : Nat :=
  if ftz ∧ f.subnormal bits then bits / 2 ^ f.fb * 2 ^ f.fb else bits

/-- fmin and fmax (R256): one of the operands, never rounded. -/
def fMinMax (f : Fmt) (max_ ftz : Bool) (a b : Nat) : Nat × BitVec 5 :=
  let a := f.flush ftz a
  let b := f.flush ftz b
  let x := f.value a
  let y := f.value b
  let nv := x.nv ||| y.nv
  if x.isNan ∧ y.isNan then (f.nanBits, nv)
  else if x.isNan then (b, nv)
  else if y.isNan then (a, nv)
  else (if firstIsMin x y != max_ then a else b, nv)

/-! ### Conversions (R87) -/

/-- An integer as an exact result. -/
def intExact (n : Int) : Exact := .real (decide (n < 0)) n.natAbs 0 false

/-- A value rounded to an integer by a mode, and whether that is inexact; no NaN, no infinity. -/
def roundInt (mode : Nat) (neg : Bool) (m : Nat) (e : Int) : Int × Bool :=
  let r := roundTo mode neg m e false 0
  (if neg then -(r.1 : Int) else r.1, r.2)

/-- Float to integer (R87): the range is judged on the rounded integer. -/
def toInt (x : FVal) (mode : Nat) (lo hi : Int) : Int × BitVec 5 :=
  match x with
  | .nan _ => (0, flagNV)
  | .inf n => (if n then lo else hi, flagNV)
  | .num n m e =>
    let r := roundInt mode n m e
    if r.1 < lo then (lo, flagNV) else if hi < r.1 then (hi, flagNV) else (r.1, if r.2 then flagNX else 0)

/-- rint (R258): the nearest integer under the mode, as a float of the operand's sign. -/
def fRint (f : Fmt) (mode : Nat) (bits : Nat) : Nat × BitVec 5 :=
  match f.value bits with
  | .nan q => (f.nanBits, if q then flagNV else 0)
  | .inf n => (f.infBits n, 0)
  | .num n m e =>
    if 0 ≤ e ∨ m = 0 then (bits, 0)
    else
      let r := roundTo mode n m e false 0
      ((roundFmt (.real n r.1 0 false) f 0 false false).1, if r.2 then flagNX else 0)

/-- abs and neg (R258): the sign bit cleared or inverted; a NaN gives the canonical NaN. -/
def fSign (f : Fmt) (negate : Bool) (bits : Nat) : Nat × BitVec 5 :=
  let x := f.value bits
  if x.isNan then (f.nanBits, x.nv)
  else
    let mag := bits % 2 ^ (f.eb + f.fb)
    (if negate && !x.neg then mag + 2 ^ (f.eb + f.fb) else mag, 0)

/-- PlaneRead (R82). -/
def planeRead (v : Int) (k : Nat) (centre : Bool) : Int :=
  let q := v / 2 ^ (8 - k) * 2 ^ (8 - k)
  if centre ∧ k < 8 then q + 2 ^ (7 - k) else q

/-- The floating-point format of a format code (R76). -/
def fmtOf (code : Nat) : Option Fmt :=
  match code with
  | 1 => some .f64
  | 2 => some .f32
  | 3 => some .f16
  | 4 => some .bf16
  | 5 => some .f8A
  | 6 => some .f8B
  | _ => none

/-- An integer format of a format code (R76, R81): width and signedness. BP and BPN are held as I8 and N8. -/
def intFmtOf (code : Nat) : Nat × Bool :=
  match code with
  | 0x08 => (8, true)
  | 0x09 => (8, false)
  | 0x0A => (16, true)
  | 0x0B => (32, true)
  | 0x0C => (4, true)
  | 0x10 => (8, true)
  | 0x11 => (8, false)
  | _ => (32, true)

/-- The value of an integer format's low bits. -/
def intValue (w : Nat) (signed : Bool) (bits : Nat) : Int :=
  let v := bits % 2 ^ w
  if signed ∧ 2 ^ (w - 1) ≤ v then (v : Int) - 2 ^ w else v

/-- The range of an integer format. -/
def intRange (w : Nat) (signed : Bool) : Int × Int :=
  if signed then (-(2 ^ (w - 1)), 2 ^ (w - 1) - 1) else (0, 2 ^ w - 1)

/-- An integer as a register holds it: sign-extended, or zero-extended for an unsigned format (R80, R261). -/
def intReg (n : Int) : Nat := (n % 2 ^ 32).toNat

/-- A source of a conversion: a float or an integer. -/
inductive CvtSrc where
  | flt (f : Fmt) (bits : Nat)
  | int (n : Int)
  deriving DecidableEq, Repr

/-- Convert (R87): the register's contents, or the pair's for F64, and the flags. -/
def convert (src : CvtSrc) (to_ mode : Nat) (sat ftz : Bool) : Nat × BitVec 5 :=
  match fmtOf to_, src with
  | some f, .flt fs b =>
    let x := fs.operand ftz b
    let r := roundFmt x.exact f mode sat ftz
    (r.1, r.2 ||| x.nv)
  | some f, .int n => roundFmt (intExact n) f mode sat ftz
  | none, .flt fs b =>
    let i := intFmtOf to_
    let r := toInt (fs.operand ftz b) mode (intRange i.1 i.2).1 (intRange i.1 i.2).2
    (intReg r.1, r.2)
  | none, .int n =>
    let i := intFmtOf to_
    let r := intRange i.1 i.2
    if sat then (intReg (max r.1 (min r.2 n)), 0)
    else (intReg (intValue i.1 i.2 (n % 2 ^ i.1).toNat), 0)

end Sys2Proof.Machine
end

