-- ==== Sys2Proof/WellFormed.lean ====
section
/-! DEFINITION. Which instructions are well formed: every function code assigned (R164), every operand code allowed
(R161, R162, R166) and every prefix accepted (R172). An event is always well formed: it has no encoding. -/

namespace Sys2Proof

/-- A 7-bit field names k vector registers from an aligned first one (R62, R64): no broadcast code. -/
def vreg (c : BitVec 7) (k : Nat) : Bool := decide (c.toNat < 112) && decide (c.toNat % k = 0)

/-- A 7-bit source code: aligned vector registers, or a broadcast scalar for operands of 32 or 64 bits (R64). -/
def vcode (c : BitVec 7) (k : Nat) : Bool :=
  if c.toNat < 112 then decide (c.toNat % k = 0) else decide (k ≤ 2)

/-- The per-thread special registers (R67). -/
def threadSpecial (n : BitVec 6) : Bool :=
  decide (n.toNat ≤ 6) || (decide (8 ≤ n.toNat) && decide (n.toNat ≤ 13))

/-- The per-gang special registers (R67). -/
def gangSpecial (n : BitVec 6) : Bool := decide (0x20 ≤ n.toNat) && decide (n.toNat ≤ 0x30)

/-- The widths that a store takes (R165): b8, b16, b32, b64, b128. -/
def storeWidth (w : BitVec 3) : Bool :=
  decide (w.toNat = 0) || decide (w.toNat = 2) || (decide (4 ≤ w.toNat) && decide (w.toNat ≤ 6))

/-- How many vector registers an access of a width code moves (R161, R62). -/
def widthRegs (w : BitVec 3) : Nat := if w.toNat = 5 then 2 else if w.toNat = 6 then 4 else 1

/-- Whether the modifier prefix sets W64 (R171). -/
def Hdr.w64 (h : Hdr) : Bool := match h.mod with | some m => m.w64 | none => false

/-- The registers of an atomic's operand (R171, W64). -/
def Hdr.atomRegs (h : Hdr) : Nat := if h.w64 then 2 else 1

/-- The value of an immediate field with or without its extension (R170). -/
def Hdr.immOf (h : Hdr) {n : Nat} (f : BitVec n) (signed : Bool) : Int :=
  match h.imm with
  | some e => e.toInt * 2 ^ n + f.toNat
  | none => if signed then f.toInt else f.toNat

/-- The signed displacement of the formats without an immediate field (R170). -/
def Hdr.disp (h : Hdr) : Int := match h.imm with | some e => e.toInt | none => 0

/-- The extra vector operand of a group, if one is present, names k registers as a source (R62, R64, R171). -/
def Hdr.extVecOk (h : Hdr) (k : Nat) : Bool :=
  match h.ext with
  | some (.vec c) => vcode c k
  | some (.sca _) => true
  | none => true

/-- The extra vector operand of a copy or mma, if one is present, is no broadcast code (R241, R281). -/
def Hdr.extVregOk (h : Hdr) : Bool :=
  match h.ext with
  | some (.vec c) => vreg c 1
  | _ => true

/-- The third operand: the extra vector operand, or vd, whose own check stands with vd (R172). -/
def Hdr.thirdOk (h : Hdr) (k : Nat) : Bool := h.extVecOk k

/-- Which fields of a modifier prefix an instruction accepts (R172). -/
inductive ModAccept where
  | none | hint | scopeHint | atomic | w64 | rounding | ftz | convert
  deriving DecidableEq, Repr

/-- A field that is not accepted is zero, and a rounding code is one of the five (R171, R172). -/
def ModAccept.allows (a : ModAccept) (m : Mods) : Bool :=
  let rnd0 := decide (m.rnd = 0)
  let ftz0 := !m.ftz
  let sat0 := !m.sat
  let sc0 := !m.scv && decide (m.scope = 0)
  let ord0 := !m.orv && decide (m.order = 0)
  let hint0 := decide (m.hint = 0)
  let w0 := !m.w64
  match a with
  | .none => false
  | .hint => rnd0 && ftz0 && sat0 && sc0 && ord0 && w0
  | .scopeHint => rnd0 && ftz0 && sat0 && ord0 && w0
  | .atomic => rnd0 && ftz0 && sat0 && hint0
  | .w64 => rnd0 && ftz0 && sat0 && sc0 && ord0 && hint0
  | .rounding => decide (m.rnd.toNat ≤ 4) && sat0 && sc0 && ord0 && hint0 && w0
  | .ftz => rnd0 && sat0 && sc0 && ord0 && hint0 && w0
  | .convert => decide (m.rnd.toNat ≤ 4) && sc0 && ord0 && hint0 && w0

/-- Which extra operand an instruction takes (R172): none, an optional vector operand, a required one (the compare
value of cas) or an optional scalar destination. -/
inductive ExtAccept where
  | none | vec | vecRequired | sca
  deriving DecidableEq, Repr

/-- The header of an encoded instruction; an event has none. -/
def Instr.hdr : Instr → Option Hdr
  | .bra h _ _ => some h
  | .call h _ _ => some h
  | .nop h _ => some h
  | .ret h _ => some h
  | .exit h _ => some h
  | .exitQ h _ => some h
  | .yield h _ => some h
  | .tret h _ => some h
  | .brx h _ _ => some h
  | .callx h _ _ => some h
  | .bkpt h _ _ => some h
  | .trap h _ _ => some h
  | .jenter h _ => some h
  | .jquit h _ => some h
  | .jwait h _ => some h
  | .jclr h _ => some h
  | .jmask h _ _ => some h
  | .jarr h _ _ => some h
  | .jload h _ _ => some h
  | .pand h _ _ _ _ => some h
  | .por h _ _ _ _ => some h
  | .pxor h _ _ _ _ => some h
  | .pandn h _ _ _ _ => some h
  | .pnot h _ _ _ => some h
  | .pmov h _ _ _ => some h
  | .pget h _ _ _ => some h
  | .elect h _ _ => some h
  | .reggrow h _ => some h
  | .sget h _ _ => some h
  | .sset h _ _ => some h
  | .vgetGang h _ _ => some h
  | .vgetThread h _ _ _ => some h
  | .clkScalar h _ => some h
  | .clkVector h _ => some h
  | .sadd h _ _ _ => some h
  | .ssub h _ _ _ => some h
  | .smul h _ _ _ => some h
  | .smulhN h _ _ _ => some h
  | .smulhI h _ _ _ => some h
  | .sand h _ _ _ => some h
  | .sor h _ _ _ => some h
  | .sxor h _ _ _ => some h
  | .sandn h _ _ _ => some h
  | .sshl h _ _ _ => some h
  | .sshrN h _ _ _ => some h
  | .sshrI h _ _ _ => some h
  | .sminI h _ _ _ => some h
  | .smaxI h _ _ _ => some h
  | .sminN h _ _ _ => some h
  | .smaxN h _ _ _ => some h
  | .sadda h _ _ _ => some h
  | .smov h _ _ => some h
  | .spopc h _ _ => some h
  | .saddi h _ _ _ => some h
  | .sshli h _ _ _ => some h
  | .sli h _ _ => some h
  | .scmp h _ _ _ _ => some h
  | .saddai h _ _ _ => some h
  | .sld h _ _ _ _ => some h
  | .sldp h _ _ _ => some h
  | .sst h _ _ _ _ => some h
  | .sstp h _ _ _ => some h
  | .sldparam h _ _ _ => some h
  | .sfirst h _ _ => some h
  | .iadd h _ _ _ _ => some h
  | .isub h _ _ _ _ => some h
  | .imulLo h _ _ _ _ => some h
  | .imulhI32 h _ _ _ _ => some h
  | .imulhN32 h _ _ _ _ => some h
  | .imad h _ _ _ _ => some h
  | .iand h _ _ _ _ => some h
  | .ior h _ _ _ _ => some h
  | .ixor h _ _ _ _ => some h
  | .ishl h _ _ _ _ => some h
  | .ishrN h _ _ _ _ => some h
  | .ishrI h _ _ _ _ => some h
  | .iminI32 h _ _ _ _ => some h
  | .imaxI32 h _ _ _ _ => some h
  | .iminN32 h _ _ _ _ => some h
  | .imaxN32 h _ _ _ _ => some h
  | .iadd64 h _ _ _ _ => some h
  | .imadw h _ _ _ _ => some h
  | .icmp h _ _ _ _ _ => some h
  | .isel h _ _ _ _ => some h
  | .ibit h _ _ _ _ => some h
  | .ibfe h _ _ _ _ => some h
  | .ibfi h _ _ _ _ => some h
  | .idivI32 h _ _ _ _ => some h
  | .idivN32 h _ _ _ _ => some h
  | .iremI32 h _ _ _ _ => some h
  | .iremN32 h _ _ _ _ => some h
  | .iaddi h _ _ _ _ => some h
  | .ishli h _ _ _ _ => some h
  | .ishriN h _ _ _ _ => some h
  | .ishriI h _ _ _ _ => some h
  | .vshfl h _ _ _ _ => some h
  | .vfirst h _ _ _ => some h
  | .vbcast h _ _ _ _ => some h
  | .vscan h _ _ _ _ => some h
  | .vred h _ _ _ _ => some h
  | .faddF32 h _ _ _ _ => some h
  | .fsubF32 h _ _ _ _ => some h
  | .fmulF32 h _ _ _ _ => some h
  | .ffmaF32 h _ _ _ _ => some h
  | .fminF32 h _ _ _ _ => some h
  | .fmaxF32 h _ _ _ _ => some h
  | .fcmpF32 h _ _ _ _ _ => some h
  | .ffunF32 h _ _ _ _ => some h
  | .fdivF32 h _ _ _ _ => some h
  | .faddF64 h _ _ _ _ => some h
  | .fsubF64 h _ _ _ _ => some h
  | .fmulF64 h _ _ _ _ => some h
  | .ffmaF64 h _ _ _ _ => some h
  | .fminF64 h _ _ _ _ => some h
  | .fmaxF64 h _ _ _ _ => some h
  | .fcmpF64 h _ _ _ _ _ => some h
  | .ffunF64 h _ _ _ _ => some h
  | .fdivF64 h _ _ _ _ => some h
  | .faddF16x2 h _ _ _ _ => some h
  | .fmulF16x2 h _ _ _ _ => some h
  | .ffmaF16x2 h _ _ _ _ => some h
  | .faddBf16x2 h _ _ _ _ => some h
  | .fmulBf16x2 h _ _ _ _ => some h
  | .ffmaBf16x2 h _ _ _ _ => some h
  | .cvt h _ _ _ _ => some h
  | .cvtq h _ _ _ _ => some h
  | .cvtd h _ _ _ _ => some h
  | .rand h _ _ => some h
  | .ldg h _ _ _ _ _ => some h
  | .stg h _ _ _ _ _ => some h
  | .ldgAcq h _ _ _ _ _ => some h
  | .stgRel h _ _ _ _ _ => some h
  | .lds h _ _ _ _ _ => some h
  | .sts h _ _ _ _ _ => some h
  | .atomg h _ _ _ _ _ => some h
  | .redg h _ _ _ _ _ => some h
  | .redgDet h _ _ _ _ _ => some h
  | .atoms h _ _ _ _ => some h
  | .reds h _ _ _ _ => some h
  | .fence h _ _ => some h
  | .fencer h _ _ _ _ => some h
  | .barArrive h _ _ => some h
  | .barWait h _ _ => some h
  | .barArrwait h _ _ => some h
  | .barCredit h _ _ _ => some h
  | .pfg h _ _ _ _ => some h
  | .bufFill h _ _ => some h
  | .bufTake h _ _ => some h
  | .bufFree h _ _ => some h
  | .copy h _ _ _ => some h
  | .mma h _ _ _ _ _ _ _ => some h
  | .accread h _ _ _ _ => some h
  | .accwrite h _ _ _ _ => some h
  | .apatch h _ _ _ _ _ _ => some h
  | .accctlClear h _ _ => some h
  | .accctlSave h _ _ _ => some h
  | .accctlLoad h _ _ _ => some h
  | .accctlWait h _ _ => some h
  | .accctlOvf h _ _ _ => some h
  | .rbegin h _ _ => some h
  | .rld h _ _ _ _ => some h
  | .rst h _ _ _ _ _ => some h
  | .rend h _ => some h
  | .rabort h _ _ => some h
  | .rstat h _ _ => some h
  | .issueRound _ _ => none
  | .forcedSwitch _ _ => none
  | .loadResponse _ _ _ => none
  | .placeBlock _ _ => none
  | .gangDrain _ _ => none
  | .blockStall _ => none
  | .reggrowGrant _ _ => none
  | .eviction _ _ => none
  | .waiterTimeout _ _ => none
  | .l1WriteBack _ _ => none
  | .mauAtomic _ _ _ => none
  | .updateArrival _ _ => none
  | .drain _ => none
  | .commit _ _ => none
  | .copyJobStart _ _ => none
  | .copyBeat _ _ => none
  | .copyCompletion _ _ => none
  | .mmaJobStart _ _ => none
  | .mmaGroup _ _ => none
  | .mmaCompletion _ _ => none
  | .accAction _ _ => none
  | .tableWalk _ _ _ => none
  | .engineEventDelivery _ _ _ => none
  | .preemptionRequest _ => none
  | .openRunTimeout _ _ => none
  | .queueStart _ _ _ => none
  | .queueTeardown _ _ _ => none
  | .qbaseWrite _ _ _ => none
  | .qwidxWrite _ _ _ => none
  | .packetFetch _ _ => none
  | .launch _ _ => none
  | .waitsig _ _ => none
  | .signalReread _ _ => none
  | .setsig _ _ => none
  | .mark _ _ => none
  | .flush _ _ => none
  | .launchCompletion _ => none
  | .traceRecord _ _ _ _ => none
  | .tinvalPage _ _ => none
  | .tinvalAll _ _ => none
  | .invalidationComplete _ => none
  | .fresume _ _ => none
  | .keyRetire _ _ => none
  | .keyRetireComplete _ => none
  | .registerWrite _ _ _ => none
  | .getS _ _ => none
  | .getM _ _ => none
  | .putE _ _ => none
  | .putM _ _ => none
  | .putP _ _ => none
  | .fwdS _ _ _ => none
  | .fwdM _ _ _ => none
  | .inv _ _ => none
  | .backInv _ _ => none
  | .recall _ _ => none
  | .data _ _ _ => none
  | .invAck _ _ => none
  | .fwdAck _ _ => none
  | .maskReq _ _ _ => none
  | .maskGrant _ _ => none
  | .maskUpd _ _ _ => none
  | .dieFailure _ => none
  | .dieReadmit _ => none
  | .uncorrectableError _ _ => none
  | .write _ _ => none
  | .read _ _ => none
  | .ack _ _ => none
  | .nak _ _ => none
  | .resendTimeout _ => none
  | .flit _ _ => none
  | .readMessage _ => none
  | .writeMessage _ => none
  | .atomicMessage _ => none
  | .readResponse _ => none
  | .writeAcknowledgement _ => none
  | .atomicResponse _ => none
  | .errorResponse _ => none
  | .responseTimeout _ => none
  | .sessionNotice _ => none
  | .partcfg _ _ => none
  | .connbind _ _ _ _ => none
  | .connreset _ _ => none
  | .fabcfg _ _ _ => none
  | .keyinst _ _ _ _ => none
  | .sparepool _ _ _ => none
  | .fwstage _ _ _ _ => none
  | .fwapply _ => none
  | .svcread _ _ => none
  | .dirdump _ _ => none
  | .attest _ _ => none
  | .powcap _ _ => none
  | .powerOn _ _ => none
  | .coreFailure _ => none
  | .sliceFailure _ => none
  | .rowErrors _ _ => none
  | .channelFailure _ => none
  | .linkLaneFailure _ _ => none
  | .throttle => none
  | .thermalStop _ => none
  | .thermalResume => none
  | .sessionStart _ _ => none
  | .sessionEnd _ _ => none
  | .chunkEnd _ _ => none
  | .frameClose _ _ => none
  | .clockEnd _ => none
  | .go _ _ => none
  | .halt _ _ => none
  | .rpseal _ _ => none
  | .chunkHoldRelease _ _ => none
  | .replayStop _ => none
  | .wordNotAnInstruction _ _ _ _ => none
  | .l1SliceFailure _ _ => none
  | .powerFailure => none

/-- The function code is assigned (R164). -/
def Instr.funcOk : Instr → Bool
  | .scmp _ _ _ _ c => decide (c.toNat ≤ 9)
  | .ibit _ _ _ _ f => decide (f.toNat ≤ 11)
  | .vscan _ _ _ _ o => decide (o.toNat ≤ 6)
  | .vred _ _ _ _ f => decide (f.toNat ≤ 10)
  | .ffunF32 _ _ _ _ f => decide (f.toNat ≤ 7)
  | .ffunF64 _ _ _ _ f => decide (4 ≤ f.toNat) && decide (f.toNat ≤ 7)
  | .cvt _ _ _ _ f => decide (f.toNat ≤ 99)
  | .atomg _ _ _ _ _ f => decide (f.toNat ≤ 10)
  | .redg _ _ _ _ _ f => decide (f.toNat ≤ 10) && decide (f.toNat ≠ 8) && decide (f.toNat ≠ 9)
  | .redgDet _ _ _ _ _ f => decide (f.toNat ≤ 10) && decide (f.toNat ≠ 8) && decide (f.toNat ≠ 9)
  | .atoms _ _ _ _ f => decide (f.toNat ≤ 10)
  | .reds _ _ _ _ f => decide (f.toNat ≤ 10) && decide (f.toNat ≠ 8) && decide (f.toNat ≠ 9)
  | _ => true

/-- vd is zero when the group has a scalar destination in its place (R172, R165). -/
def Hdr.zeroDest (h : Hdr) (d : BitVec 7) : Bool :=
  match h.ext with
  | some (.sca _) => decide (d = 0)
  | _ => true

/-- A field that the instruction does not use is zero (R165): vd beside a scalar destination (R172). -/
def Instr.reservedOk : Instr → Bool
  | .vfirst h _ d _ => h.zeroDest d
  | .vbcast h _ d _ _ => h.zeroDest d
  | .vred h _ d _ _ => h.zeroDest d
  | _ => true

/-- Every operand code is one that the rules allow (R166, fourth item), as far as the words alone show it. -/
def Instr.codesOk : Instr → Bool
  | .brx _ _ t => vreg t 1
  | .callx _ _ t => vreg t 1
  | .pmov _ _ _ a => vreg a 1
  | .sget _ _ n => gangSpecial n
  | .sset _ _ n => decide (n = 0x25#6)
  | .vgetGang _ d n => gangSpecial n && vreg d 1
  | .vgetThread _ _ d n => threadSpecial n && vreg d 1
  | .clkVector _ d => vreg d 2
  | .sld _ _ _ w _ => decide (w.toNat ≤ 5)
  | .sst _ _ _ w _ => storeWidth w && decide (w.toNat ≤ 5)
  | .sldparam _ _ w _ => decide (4 ≤ w.toNat) && decide (w.toNat ≤ 6)
  | .sfirst _ _ a => vreg a 1
  | .iadd _ _ d a b => vreg d 1 && vreg a 1 && vcode b 1
  | .isub _ _ d a b => vreg d 1 && vreg a 1 && vcode b 1
  | .imulLo _ _ d a b => vreg d 1 && vreg a 1 && vcode b 1
  | .imulhI32 _ _ d a b => vreg d 1 && vreg a 1 && vcode b 1
  | .imulhN32 _ _ d a b => vreg d 1 && vreg a 1 && vcode b 1
  | .imad h _ d a b => vreg d 1 && vreg a 1 && vcode b 1 && h.thirdOk 1
  | .iand _ _ d a b => vreg d 1 && vreg a 1 && vcode b 1
  | .ior _ _ d a b => vreg d 1 && vreg a 1 && vcode b 1
  | .ixor _ _ d a b => vreg d 1 && vreg a 1 && vcode b 1
  | .ishl _ _ d a b => vreg d 1 && vreg a 1 && vcode b 1
  | .ishrN _ _ d a b => vreg d 1 && vreg a 1 && vcode b 1
  | .ishrI _ _ d a b => vreg d 1 && vreg a 1 && vcode b 1
  | .iminI32 _ _ d a b => vreg d 1 && vreg a 1 && vcode b 1
  | .imaxI32 _ _ d a b => vreg d 1 && vreg a 1 && vcode b 1
  | .iminN32 _ _ d a b => vreg d 1 && vreg a 1 && vcode b 1
  | .imaxN32 _ _ d a b => vreg d 1 && vreg a 1 && vcode b 1
  | .iadd64 _ _ d a b => vreg d 2 && vreg a 2 && vcode b 2
  | .imadw h _ d a b => vreg d 2 && vreg a 1 && vcode b 1 && h.thirdOk 2
  | .icmp _ _ _ c a b => decide (c.toNat ≤ 9) && vreg a 1 && vcode b 1
  | .isel _ _ d a b => vreg d 1 && vreg a 1 && vcode b 1
  | .ibit _ _ d a _ => vreg d 1 && vreg a 1
  | .ibfe _ _ d a b => vreg d 1 && vreg a 1 && vcode b 1
  | .ibfi h _ d a b => vreg d 1 && vreg a 1 && vcode b 1 && h.thirdOk 1
  | .idivI32 _ _ d a b => vreg d 1 && vreg a 1 && vcode b 1
  | .idivN32 _ _ d a b => vreg d 1 && vreg a 1 && vcode b 1
  | .iremI32 _ _ d a b => vreg d 1 && vreg a 1 && vcode b 1
  | .iremN32 _ _ d a b => vreg d 1 && vreg a 1 && vcode b 1
  | .iaddi _ _ d a _ => vreg d 1 && vreg a 1
  | .ishli _ _ d a _ => vreg d 1 && vreg a 1
  | .ishriN _ _ d a _ => vreg d 1 && vreg a 1
  | .ishriI _ _ d a _ => vreg d 1 && vreg a 1
  | .vshfl _ _ d a b => vreg d 1 && vreg a 1 && vcode b 1
  | .vfirst _ _ d a => vreg a 1 && vreg d 1
  | .vbcast _ _ d a _ => vreg a 1 && vreg d 1
  | .vscan _ _ d a _ => vreg d 1 && vreg a 1
  | .vred _ _ d a _ => vreg a 1 && vreg d 1
  | .faddF32 _ _ d a b => vreg d 1 && vreg a 1 && vcode b 1
  | .fsubF32 _ _ d a b => vreg d 1 && vreg a 1 && vcode b 1
  | .fmulF32 _ _ d a b => vreg d 1 && vreg a 1 && vcode b 1
  | .ffmaF32 h _ d a b => vreg d 1 && vreg a 1 && vcode b 1 && h.thirdOk 1
  | .fminF32 _ _ d a b => vreg d 1 && vreg a 1 && vcode b 1
  | .fmaxF32 _ _ d a b => vreg d 1 && vreg a 1 && vcode b 1
  | .fcmpF32 _ _ _ c a b => decide (c.toNat ≤ 7) && vreg a 1 && vcode b 1
  | .ffunF32 _ _ d a _ => vreg d 1 && vreg a 1
  | .fdivF32 _ _ d a b => vreg d 1 && vreg a 1 && vcode b 1
  | .faddF64 _ _ d a b => vreg d 2 && vreg a 2 && vcode b 2
  | .fsubF64 _ _ d a b => vreg d 2 && vreg a 2 && vcode b 2
  | .fmulF64 _ _ d a b => vreg d 2 && vreg a 2 && vcode b 2
  | .ffmaF64 h _ d a b => vreg d 2 && vreg a 2 && vcode b 2 && h.thirdOk 2
  | .fminF64 _ _ d a b => vreg d 2 && vreg a 2 && vcode b 2
  | .fmaxF64 _ _ d a b => vreg d 2 && vreg a 2 && vcode b 2
  | .fcmpF64 _ _ _ c a b => decide (c.toNat ≤ 7) && vreg a 2 && vcode b 2
  | .ffunF64 _ _ d a _ => vreg d 2 && vreg a 2
  | .fdivF64 _ _ d a b => vreg d 2 && vreg a 2 && vcode b 2
  | .faddF16x2 _ _ d a b => vreg d 1 && vreg a 1 && vcode b 1
  | .fmulF16x2 _ _ d a b => vreg d 1 && vreg a 1 && vcode b 1
  | .ffmaF16x2 h _ d a b => vreg d 1 && vreg a 1 && vcode b 1 && h.thirdOk 1
  | .faddBf16x2 _ _ d a b => vreg d 1 && vreg a 1 && vcode b 1
  | .fmulBf16x2 _ _ d a b => vreg d 1 && vreg a 1 && vcode b 1
  | .ffmaBf16x2 h _ d a b => vreg d 1 && vreg a 1 && vcode b 1 && h.thirdOk 1
  | .cvt _ _ d a f => vreg d (if f.toNat % 10 = 0 then 2 else 1) && vreg a (if f.toNat / 10 = 0 then 2 else 1)
  | .cvtq _ _ d a _ => vreg d 1 && vreg a 1
  | .cvtd _ _ d a _ => vreg d 1 && vreg a 1
  | .rand _ _ d => vreg d 1
  | .ldg _ _ t o _ w => decide (w.toNat ≤ 6) && vreg t (widthRegs w) && vreg o 1
  | .stg _ _ t o _ w => storeWidth w && vreg t (widthRegs w) && vreg o 1
  | .ldgAcq _ _ t o _ w => decide (w.toNat ≤ 6) && vreg t (widthRegs w) && vreg o 1
  | .stgRel _ _ t o _ w => storeWidth w && vreg t (widthRegs w) && vreg o 1
  | .lds _ _ t o _ w => decide (w.toNat ≤ 6) && vreg t (widthRegs w) && vreg o 1
  | .sts _ _ t o _ w => storeWidth w && vreg t (widthRegs w) && vreg o 1
  | .atomg h _ t o _ _ => vreg t h.atomRegs && vreg o 1 && h.extVecOk h.atomRegs
  | .redg h _ t o _ _ => vreg t h.atomRegs && vreg o 1
  | .redgDet h _ t o _ _ => vreg t h.atomRegs && vreg o 1
  | .atoms h _ t o _ => vreg t h.atomRegs && vreg o 1 && h.extVecOk h.atomRegs
  | .reds h _ t o _ => vreg t h.atomRegs && vreg o 1
  | .fence _ o _ => decide (o ≠ 0)
  | .fencer _ o _ _ _ => decide (o ≠ 0)
  | .barCredit h _ _ w => decide (0 < h.immOf w false)
  | .pfg _ _ o _ l => decide (l.toNat ≤ 2) && vreg o 1
  | .copy h _ _ _ => h.extVregOk
  | .mma h _ _ _ _ _ z x => h.extVregOk && (decide (x = 0) || decide (z = 1))
  | .accread _ _ d a _ => vreg d 2 && vreg a 1
  | .accwrite _ _ d a _ => vreg d 2 && vreg a 1
  | .apatch _ _ d a hi lo _ => vreg d 2 && vreg a 1 && decide (hi = 1 ∨ lo = 1)
  | .rld _ _ t o _ => vreg t 1 && vreg o 1
  | .rst _ _ t o _ w => storeWidth w && decide (w.toNat ≤ 5) && vreg t (widthRegs w) && vreg o 1
  | .rstat _ _ d => vreg d 1
  | _ => true

/-- The instruction accepts an immediate extension (R170, R172). -/
def Instr.takesImm : Instr → Bool
  | .saddi _ _ _ _ => true
  | .sli _ _ _ => true
  | .saddai _ _ _ _ => true
  | .sld _ _ _ _ _ => true
  | .sldp _ _ _ _ => true
  | .sst _ _ _ _ _ => true
  | .sstp _ _ _ _ => true
  | .iaddi _ _ _ _ _ => true
  | .ldg _ _ _ _ _ _ => true
  | .stg _ _ _ _ _ _ => true
  | .ldgAcq _ _ _ _ _ _ => true
  | .stgRel _ _ _ _ _ _ => true
  | .lds _ _ _ _ _ _ => true
  | .sts _ _ _ _ _ _ => true
  | .atomg _ _ _ _ _ _ => true
  | .redg _ _ _ _ _ _ => true
  | .redgDet _ _ _ _ _ _ => true
  | .atoms _ _ _ _ _ => true
  | .reds _ _ _ _ _ => true
  | .barCredit _ _ _ _ => true
  | .pfg _ _ _ _ _ => true
  | .rld _ _ _ _ _ => true
  | .rst _ _ _ _ _ _ => true
  | _ => false

/-- The modifier fields that the instruction accepts (R172). -/
def Instr.takesMods : Instr → ModAccept
  | .faddF32 _ _ _ _ _ => .rounding
  | .fsubF32 _ _ _ _ _ => .rounding
  | .fmulF32 _ _ _ _ _ => .rounding
  | .ffmaF32 _ _ _ _ _ => .rounding
  | .fminF32 _ _ _ _ _ => .ftz
  | .fmaxF32 _ _ _ _ _ => .ftz
  | .fcmpF32 _ _ _ _ _ _ => .ftz
  | .ffunF32 _ _ _ _ _ => .rounding
  | .fdivF32 _ _ _ _ _ => .rounding
  | .faddF64 _ _ _ _ _ => .rounding
  | .fsubF64 _ _ _ _ _ => .rounding
  | .fmulF64 _ _ _ _ _ => .rounding
  | .ffmaF64 _ _ _ _ _ => .rounding
  | .fminF64 _ _ _ _ _ => .ftz
  | .fmaxF64 _ _ _ _ _ => .ftz
  | .fcmpF64 _ _ _ _ _ _ => .ftz
  | .ffunF64 _ _ _ _ _ => .rounding
  | .fdivF64 _ _ _ _ _ => .rounding
  | .faddF16x2 _ _ _ _ _ => .rounding
  | .fmulF16x2 _ _ _ _ _ => .rounding
  | .ffmaF16x2 _ _ _ _ _ => .rounding
  | .faddBf16x2 _ _ _ _ _ => .rounding
  | .fmulBf16x2 _ _ _ _ _ => .rounding
  | .ffmaBf16x2 _ _ _ _ _ => .rounding
  | .cvt _ _ _ _ _ => .convert
  | .ldg _ _ _ _ _ _ => .hint
  | .stg _ _ _ _ _ _ => .hint
  | .ldgAcq _ _ _ _ _ _ => .scopeHint
  | .stgRel _ _ _ _ _ _ => .scopeHint
  | .atomg _ _ _ _ _ _ => .atomic
  | .redg _ _ _ _ _ _ => .w64
  | .redgDet _ _ _ _ _ _ => .w64
  | .atoms _ _ _ _ _ => .atomic
  | .reds _ _ _ _ _ => .w64
  | .pfg _ _ _ _ _ => .hint
  | _ => .none

/-- The extra operand that the instruction accepts (R172). -/
def Instr.takesExt : Instr → ExtAccept
  | .imad _ _ _ _ _ => .vec
  | .imadw _ _ _ _ _ => .vec
  | .ibfi _ _ _ _ _ => .vec
  | .vfirst _ _ _ _ => .sca
  | .vbcast _ _ _ _ _ => .sca
  | .vred _ _ _ _ _ => .sca
  | .ffmaF32 _ _ _ _ _ => .vec
  | .ffmaF64 _ _ _ _ _ => .vec
  | .ffmaF16x2 _ _ _ _ _ => .vec
  | .ffmaBf16x2 _ _ _ _ _ => .vec
  | .atomg _ _ _ _ _ f => if f = 9#4 then .vecRequired else .none
  | .atoms _ _ _ _ f => if f = 9#4 then .vecRequired else .none
  | .copy _ _ _ _ => .vec
  | .mma _ _ _ _ _ _ _ _ => .vec
  | _ => .none

/-- The immediate extension, if present, is accepted. -/
def Instr.immOk (i : Instr) : Bool :=
  match i.hdr with
  | some h => h.imm.isNone || i.takesImm
  | none => true

/-- The modifier prefix, if present, is accepted. -/
def Instr.modOk (i : Instr) : Bool :=
  match i.hdr with
  | some h => match h.mod with
    | some m => i.takesMods.allows m
    | none => true
  | none => true

/-- The extra operand, if present, is accepted. -/
def Instr.extOk (i : Instr) : Bool :=
  match i.hdr with
  | some h => match h.ext, i.takesExt with
    | none, _ => true
    | some (.vec _), .vec => true
    | some (.vec _), .vecRequired => true
    | some (.sca _), .sca => true
    | some _, _ => false
  | none => true

/-- A cas has its compare value (R172). -/
def Instr.extPresent (i : Instr) : Bool :=
  match i.hdr, i.takesExt with
  | some h, .vecRequired => h.ext.isSome
  | _, _ => true

/-- Every prefix of the group is accepted (R172). -/
def Instr.prefixOk (i : Instr) : Bool := i.immOk && i.modOk && i.extOk && i.extPresent

/-- An instruction that the words can spell (R166). -/
def Instr.wellFormed (i : Instr) : Bool := i.funcOk && i.reservedOk && i.codesOk && i.prefixOk

end Sys2Proof
end

