-- ==== Sys2Proof/Decode.lean ====
section
/-! DEFINITION. The decoder of prefix groups and its encoder (R158-R172). A word is a 32-bit vector; a group is up to
three prefix words and the word they belong to. The decoder is total: what is not an instruction is named by the
reason of R167. -/

namespace Sys2Proof

/-- A word that selects an instruction: whether its required-zero fields are zero, and the instruction. -/
structure Candidate where
  zero : Bool
  instr : Instr
  deriving DecidableEq, Repr

/-- The words of primary 0x03 (R164). -/
def main03 (h : Hdr) (w : Nat) : Except Nat Candidate :=
  match w / 2 ^ 0 % 2 ^ 6 with
  | 0 => .ok ⟨decide (w / 2 ^ 6 % 2 ^ 15 = 0), .nop h (bitsAt w 21 3)⟩
  | 1 => .ok ⟨decide (w / 2 ^ 6 % 2 ^ 15 = 0), .ret h (bitsAt w 21 3)⟩
  | 2 => .ok ⟨decide (w / 2 ^ 6 % 2 ^ 15 = 0), .exit h (bitsAt w 21 3)⟩
  | 3 => .ok ⟨decide (w / 2 ^ 6 % 2 ^ 15 = 0), .exitQ h (bitsAt w 21 3)⟩
  | 4 => .ok ⟨decide (w / 2 ^ 6 % 2 ^ 15 = 0), .yield h (bitsAt w 21 3)⟩
  | 5 => .ok ⟨decide (w / 2 ^ 6 % 2 ^ 15 = 0), .tret h (bitsAt w 21 3)⟩
  | 6 => .ok ⟨decide (w / 2 ^ 6 % 2 ^ 8 = 0), .brx h (bitsAt w 21 3) (bitsAt w 14 7)⟩
  | 7 => .ok ⟨decide (w / 2 ^ 6 % 2 ^ 8 = 0), .callx h (bitsAt w 21 3) (bitsAt w 14 7)⟩
  | 8 => .ok ⟨decide (w / 2 ^ 15 % 2 ^ 6 = 0), .bkpt h (bitsAt w 21 3) (bitsAt w 6 9)⟩
  | 9 => .ok ⟨decide (w / 2 ^ 15 % 2 ^ 6 = 0), .trap h (bitsAt w 21 3) (bitsAt w 6 9)⟩
  | _ => .error 2

/-- The words of primary 0x04 (R164). -/
def main04 (h : Hdr) (w : Nat) : Except Nat Candidate :=
  match w / 2 ^ 0 % 2 ^ 4 with
  | 0 => .ok ⟨decide (w / 2 ^ 4 % 2 ^ 16 = 0), .jenter h (bitsAt w 20 4)⟩
  | 1 => .ok ⟨decide (w / 2 ^ 4 % 2 ^ 16 = 0), .jquit h (bitsAt w 20 4)⟩
  | 2 => .ok ⟨decide (w / 2 ^ 4 % 2 ^ 16 = 0), .jwait h (bitsAt w 20 4)⟩
  | 3 => .ok ⟨decide (w / 2 ^ 4 % 2 ^ 16 = 0), .jclr h (bitsAt w 20 4)⟩
  | 4 => .ok ⟨decide (w / 2 ^ 4 % 2 ^ 10 = 0), .jmask h (bitsAt w 20 4) (bitsAt w 14 6)⟩
  | 5 => .ok ⟨decide (w / 2 ^ 4 % 2 ^ 10 = 0), .jarr h (bitsAt w 20 4) (bitsAt w 14 6)⟩
  | 6 => .ok ⟨decide (w / 2 ^ 4 % 2 ^ 10 = 0), .jload h (bitsAt w 20 4) (bitsAt w 14 6)⟩
  | _ => .error 2

/-- The words of primary 0x05 (R164). -/
def main05 (h : Hdr) (w : Nat) : Except Nat Candidate :=
  match w / 2 ^ 14 % 2 ^ 4 with
  | 0 => .ok ⟨decide (w / 2 ^ 3 % 2 ^ 4 = 0) && decide (w / 2 ^ 10 % 2 ^ 4 = 0), .pand h (bitsAt w 21 3) (bitsAt w 18 3) (bitsAt w 7 3) (bitsAt w 0 3)⟩
  | 1 => .ok ⟨decide (w / 2 ^ 3 % 2 ^ 4 = 0) && decide (w / 2 ^ 10 % 2 ^ 4 = 0), .por h (bitsAt w 21 3) (bitsAt w 18 3) (bitsAt w 7 3) (bitsAt w 0 3)⟩
  | 2 => .ok ⟨decide (w / 2 ^ 3 % 2 ^ 4 = 0) && decide (w / 2 ^ 10 % 2 ^ 4 = 0), .pxor h (bitsAt w 21 3) (bitsAt w 18 3) (bitsAt w 7 3) (bitsAt w 0 3)⟩
  | 3 => .ok ⟨decide (w / 2 ^ 3 % 2 ^ 4 = 0) && decide (w / 2 ^ 10 % 2 ^ 4 = 0), .pandn h (bitsAt w 21 3) (bitsAt w 18 3) (bitsAt w 7 3) (bitsAt w 0 3)⟩
  | 4 => .ok ⟨decide (w / 2 ^ 0 % 2 ^ 7 = 0) && decide (w / 2 ^ 10 % 2 ^ 4 = 0), .pnot h (bitsAt w 21 3) (bitsAt w 18 3) (bitsAt w 7 3)⟩
  | 5 => .ok ⟨decide (w / 2 ^ 0 % 2 ^ 7 = 0), .pmov h (bitsAt w 21 3) (bitsAt w 18 3) (bitsAt w 7 7)⟩
  | 7 => .ok ⟨decide (w / 2 ^ 3 % 2 ^ 4 = 0) && decide (w / 2 ^ 13 % 2 ^ 1 = 0) && decide (w / 2 ^ 18 % 2 ^ 3 = 0), .pget h (bitsAt w 21 3) (bitsAt w 7 6) (bitsAt w 0 3)⟩
  | _ => .error 2

/-- The words of primary 0x08 (R164). -/
def main08 (h : Hdr) (w : Nat) : Except Nat Candidate :=
  match w / 2 ^ 0 % 2 ^ 6 with
  | 0 => .ok ⟨decide (w / 2 ^ 12 % 2 ^ 6 = 0), .sget h (bitsAt w 18 6) (bitsAt w 6 6)⟩
  | 1 => .ok ⟨decide (w / 2 ^ 18 % 2 ^ 6 = 0), .sset h (bitsAt w 12 6) (bitsAt w 6 6)⟩
  | 2 => .ok ⟨decide (w / 2 ^ 12 % 2 ^ 5 = 0), .vgetGang h (bitsAt w 17 7) (bitsAt w 6 6)⟩
  | _ => .error 2

/-- The words of primary 0x09 (R164). -/
def main09 (h : Hdr) (w : Nat) : Except Nat Candidate :=
  match w / 2 ^ 0 % 2 ^ 6 with
  | 0 => .ok ⟨decide (w / 2 ^ 6 % 2 ^ 12 = 0), .clkScalar h (bitsAt w 18 6)⟩
  | 1 => .ok ⟨decide (w / 2 ^ 6 % 2 ^ 11 = 0), .clkVector h (bitsAt w 17 7)⟩
  | _ => .error 2

/-- The words of primary 0x10 (R164). -/
def main10 (h : Hdr) (w : Nat) : Except Nat Candidate :=
  match w / 2 ^ 0 % 2 ^ 6 with
  | 0 => .ok ⟨true, .sadd h (bitsAt w 18 6) (bitsAt w 12 6) (bitsAt w 6 6)⟩
  | 1 => .ok ⟨true, .ssub h (bitsAt w 18 6) (bitsAt w 12 6) (bitsAt w 6 6)⟩
  | 2 => .ok ⟨true, .smul h (bitsAt w 18 6) (bitsAt w 12 6) (bitsAt w 6 6)⟩
  | 3 => .ok ⟨true, .smulhN h (bitsAt w 18 6) (bitsAt w 12 6) (bitsAt w 6 6)⟩
  | 4 => .ok ⟨true, .smulhI h (bitsAt w 18 6) (bitsAt w 12 6) (bitsAt w 6 6)⟩
  | 5 => .ok ⟨true, .sand h (bitsAt w 18 6) (bitsAt w 12 6) (bitsAt w 6 6)⟩
  | 6 => .ok ⟨true, .sor h (bitsAt w 18 6) (bitsAt w 12 6) (bitsAt w 6 6)⟩
  | 7 => .ok ⟨true, .sxor h (bitsAt w 18 6) (bitsAt w 12 6) (bitsAt w 6 6)⟩
  | 8 => .ok ⟨true, .sandn h (bitsAt w 18 6) (bitsAt w 12 6) (bitsAt w 6 6)⟩
  | 9 => .ok ⟨true, .sshl h (bitsAt w 18 6) (bitsAt w 12 6) (bitsAt w 6 6)⟩
  | 10 => .ok ⟨true, .sshrN h (bitsAt w 18 6) (bitsAt w 12 6) (bitsAt w 6 6)⟩
  | 11 => .ok ⟨true, .sshrI h (bitsAt w 18 6) (bitsAt w 12 6) (bitsAt w 6 6)⟩
  | 12 => .ok ⟨true, .sminI h (bitsAt w 18 6) (bitsAt w 12 6) (bitsAt w 6 6)⟩
  | 13 => .ok ⟨true, .smaxI h (bitsAt w 18 6) (bitsAt w 12 6) (bitsAt w 6 6)⟩
  | 14 => .ok ⟨true, .sminN h (bitsAt w 18 6) (bitsAt w 12 6) (bitsAt w 6 6)⟩
  | 15 => .ok ⟨true, .smaxN h (bitsAt w 18 6) (bitsAt w 12 6) (bitsAt w 6 6)⟩
  | 16 => .ok ⟨true, .sadda h (bitsAt w 18 6) (bitsAt w 12 6) (bitsAt w 6 6)⟩
  | 17 => .ok ⟨decide (w / 2 ^ 6 % 2 ^ 6 = 0), .smov h (bitsAt w 18 6) (bitsAt w 12 6)⟩
  | 18 => .ok ⟨decide (w / 2 ^ 6 % 2 ^ 6 = 0), .spopc h (bitsAt w 18 6) (bitsAt w 12 6)⟩
  | _ => .error 2

/-- The words of primary 0x3C (R164). -/
def main3C (h : Hdr) (w : Nat) : Except Nat Candidate :=
  match w / 2 ^ 5 % 2 ^ 2 with
  | 0 => .ok ⟨true, .ishli h (bitsAt w 21 3) (bitsAt w 14 7) (bitsAt w 7 7) (bitsAt w 0 5)⟩
  | 1 => .ok ⟨true, .ishriN h (bitsAt w 21 3) (bitsAt w 14 7) (bitsAt w 7 7) (bitsAt w 0 5)⟩
  | 2 => .ok ⟨true, .ishriI h (bitsAt w 21 3) (bitsAt w 14 7) (bitsAt w 7 7) (bitsAt w 0 5)⟩
  | _ => .error 4

/-- The words of primary 0x6D (R164). -/
def main6D (h : Hdr) (w : Nat) : Except Nat Candidate :=
  match w / 2 ^ 0 % 2 ^ 6 with
  | 0 => .ok ⟨decide (w / 2 ^ 6 % 2 ^ 9 = 0), .barArrive h (bitsAt w 21 3) (bitsAt w 15 6)⟩
  | 1 => .ok ⟨decide (w / 2 ^ 6 % 2 ^ 9 = 0), .barWait h (bitsAt w 21 3) (bitsAt w 15 6)⟩
  | 2 => .ok ⟨decide (w / 2 ^ 6 % 2 ^ 9 = 0), .barArrwait h (bitsAt w 21 3) (bitsAt w 15 6)⟩
  | 3 => .ok ⟨true, .barCredit h (bitsAt w 21 3) (bitsAt w 15 6) (bitsAt w 6 9)⟩
  | _ => .error 2

/-- The words of primary 0x6F (R164). -/
def main6F (h : Hdr) (w : Nat) : Except Nat Candidate :=
  match w / 2 ^ 0 % 2 ^ 6 with
  | 0 => .ok ⟨decide (w / 2 ^ 10 % 2 ^ 11 = 0), .bufFill h (bitsAt w 21 3) (bitsAt w 6 4)⟩
  | 1 => .ok ⟨decide (w / 2 ^ 10 % 2 ^ 11 = 0), .bufTake h (bitsAt w 21 3) (bitsAt w 6 4)⟩
  | 2 => .ok ⟨decide (w / 2 ^ 10 % 2 ^ 11 = 0), .bufFree h (bitsAt w 21 3) (bitsAt w 6 4)⟩
  | _ => .error 2

/-- The words of primary 0x75 (R164). -/
def main75 (h : Hdr) (w : Nat) : Except Nat Candidate :=
  match w / 2 ^ 0 % 2 ^ 3 with
  | 0 => .ok ⟨decide (w / 2 ^ 3 % 2 ^ 3 = 0) && decide (w / 2 ^ 9 % 2 ^ 12 = 0), .accctlClear h (bitsAt w 21 3) (bitsAt w 6 3)⟩
  | 1 => .ok ⟨decide (w / 2 ^ 3 % 2 ^ 3 = 0) && decide (w / 2 ^ 9 % 2 ^ 6 = 0), .accctlSave h (bitsAt w 21 3) (bitsAt w 15 6) (bitsAt w 6 3)⟩
  | 2 => .ok ⟨decide (w / 2 ^ 3 % 2 ^ 3 = 0) && decide (w / 2 ^ 9 % 2 ^ 6 = 0), .accctlLoad h (bitsAt w 21 3) (bitsAt w 15 6) (bitsAt w 6 3)⟩
  | 3 => .ok ⟨decide (w / 2 ^ 3 % 2 ^ 3 = 0) && decide (w / 2 ^ 9 % 2 ^ 12 = 0), .accctlWait h (bitsAt w 21 3) (bitsAt w 6 3)⟩
  | 4 => .ok ⟨decide (w / 2 ^ 3 % 2 ^ 3 = 0) && decide (w / 2 ^ 15 % 2 ^ 6 = 0), .accctlOvf h (bitsAt w 21 3) (bitsAt w 9 6) (bitsAt w 6 3)⟩
  | _ => .error 2

/-- The words of primary 0x79 (R164). -/
def main79 (h : Hdr) (w : Nat) : Except Nat Candidate :=
  match w / 2 ^ 0 % 2 ^ 3 with
  | 4 => .ok ⟨true, .rld h (bitsAt w 21 3) (bitsAt w 14 7) (bitsAt w 7 7) (bitsAt w 3 4)⟩
  | _ => .error 4

/-- The words of primary 0x7B (R164). -/
def main7B (h : Hdr) (w : Nat) : Except Nat Candidate :=
  match w / 2 ^ 0 % 2 ^ 7 with
  | 0 => .ok ⟨decide (w / 2 ^ 7 % 2 ^ 14 = 0), .rend h (bitsAt w 21 3)⟩
  | 1 => .ok ⟨decide (w / 2 ^ 15 % 2 ^ 6 = 0), .rabort h (bitsAt w 21 3) (bitsAt w 7 8)⟩
  | 2 => .ok ⟨decide (w / 2 ^ 7 % 2 ^ 7 = 0), .rstat h (bitsAt w 21 3) (bitsAt w 14 7)⟩
  | _ => .error 2

/-- The instruction that a word selects (R163, R164), or the reason why it selects none: 1 primary, 2 function code,
4 operand code. -/
def mainOf (h : Hdr) (w : Nat) : Except Nat Candidate :=
  match w / 2 ^ 24 % 2 ^ 7 with
  | 0x01 => .ok ⟨true, .bra h (bitsAt w 21 3) (bitsAt w 0 21)⟩
  | 0x02 => .ok ⟨true, .call h (bitsAt w 21 3) (bitsAt w 0 21)⟩
  | 0x03 => main03 h w
  | 0x04 => main04 h w
  | 0x05 => main05 h w
  | 0x06 => .ok ⟨decide (w / 2 ^ 0 % 2 ^ 18 = 0), .elect h (bitsAt w 21 3) (bitsAt w 18 3)⟩
  | 0x07 => .ok ⟨decide (w / 2 ^ 0 % 2 ^ 6 = 0) && decide (w / 2 ^ 15 % 2 ^ 9 = 448), .reggrow h (bitsAt w 6 9)⟩
  | 0x08 => main08 h w
  | 0x5C => .ok ⟨decide (w / 2 ^ 6 % 2 ^ 8 = 0), .vgetThread h (bitsAt w 21 3) (bitsAt w 14 7) (bitsAt w 0 6)⟩
  | 0x09 => main09 h w
  | 0x10 => main10 h w
  | 0x11 => .ok ⟨true, .saddi h (bitsAt w 18 6) (bitsAt w 12 6) (bitsAt w 0 12)⟩
  | 0x12 => .ok ⟨decide (w / 2 ^ 6 % 2 ^ 6 = 0), .sshli h (bitsAt w 18 6) (bitsAt w 12 6) (bitsAt w 0 6)⟩
  | 0x13 => .ok ⟨true, .sli h (bitsAt w 18 6) (bitsAt w 0 18)⟩
  | 0x14 => .ok ⟨decide (w / 2 ^ 18 % 2 ^ 3 = 0), .scmp h (bitsAt w 21 3) (bitsAt w 12 6) (bitsAt w 6 6) (bitsAt w 0 6)⟩
  | 0x15 => .ok ⟨true, .saddai h (bitsAt w 18 6) (bitsAt w 12 6) (bitsAt w 0 12)⟩
  | 0x16 => if w / 2 ^ 9 % 2 ^ 3 = 6 then .ok ⟨true, .sldp h (bitsAt w 18 6) (bitsAt w 12 6) (bitsAt w 0 9)⟩ else .ok ⟨true, .sld h (bitsAt w 18 6) (bitsAt w 12 6) (bitsAt w 9 3) (bitsAt w 0 9)⟩
  | 0x17 => if w / 2 ^ 9 % 2 ^ 3 = 6 then .ok ⟨true, .sstp h (bitsAt w 18 6) (bitsAt w 12 6) (bitsAt w 0 9)⟩ else .ok ⟨true, .sst h (bitsAt w 18 6) (bitsAt w 12 6) (bitsAt w 9 3) (bitsAt w 0 9)⟩
  | 0x18 => .ok ⟨decide (w / 2 ^ 15 % 2 ^ 3 = 0), .sldparam h (bitsAt w 18 6) (bitsAt w 12 3) (bitsAt w 0 12)⟩
  | 0x19 => .ok ⟨decide (w / 2 ^ 0 % 2 ^ 7 = 0) && decide (w / 2 ^ 14 % 2 ^ 4 = 0), .sfirst h (bitsAt w 18 6) (bitsAt w 7 7)⟩
  | 0x20 => .ok ⟨true, .iadd h (bitsAt w 21 3) (bitsAt w 14 7) (bitsAt w 7 7) (bitsAt w 0 7)⟩
  | 0x21 => .ok ⟨true, .isub h (bitsAt w 21 3) (bitsAt w 14 7) (bitsAt w 7 7) (bitsAt w 0 7)⟩
  | 0x22 => .ok ⟨true, .imulLo h (bitsAt w 21 3) (bitsAt w 14 7) (bitsAt w 7 7) (bitsAt w 0 7)⟩
  | 0x23 => .ok ⟨true, .imulhI32 h (bitsAt w 21 3) (bitsAt w 14 7) (bitsAt w 7 7) (bitsAt w 0 7)⟩
  | 0x24 => .ok ⟨true, .imulhN32 h (bitsAt w 21 3) (bitsAt w 14 7) (bitsAt w 7 7) (bitsAt w 0 7)⟩
  | 0x25 => .ok ⟨true, .imad h (bitsAt w 21 3) (bitsAt w 14 7) (bitsAt w 7 7) (bitsAt w 0 7)⟩
  | 0x26 => .ok ⟨true, .iand h (bitsAt w 21 3) (bitsAt w 14 7) (bitsAt w 7 7) (bitsAt w 0 7)⟩
  | 0x27 => .ok ⟨true, .ior h (bitsAt w 21 3) (bitsAt w 14 7) (bitsAt w 7 7) (bitsAt w 0 7)⟩
  | 0x28 => .ok ⟨true, .ixor h (bitsAt w 21 3) (bitsAt w 14 7) (bitsAt w 7 7) (bitsAt w 0 7)⟩
  | 0x29 => .ok ⟨true, .ishl h (bitsAt w 21 3) (bitsAt w 14 7) (bitsAt w 7 7) (bitsAt w 0 7)⟩
  | 0x2A => .ok ⟨true, .ishrN h (bitsAt w 21 3) (bitsAt w 14 7) (bitsAt w 7 7) (bitsAt w 0 7)⟩
  | 0x2B => .ok ⟨true, .ishrI h (bitsAt w 21 3) (bitsAt w 14 7) (bitsAt w 7 7) (bitsAt w 0 7)⟩
  | 0x2C => .ok ⟨true, .iminI32 h (bitsAt w 21 3) (bitsAt w 14 7) (bitsAt w 7 7) (bitsAt w 0 7)⟩
  | 0x2D => .ok ⟨true, .imaxI32 h (bitsAt w 21 3) (bitsAt w 14 7) (bitsAt w 7 7) (bitsAt w 0 7)⟩
  | 0x2E => .ok ⟨true, .iminN32 h (bitsAt w 21 3) (bitsAt w 14 7) (bitsAt w 7 7) (bitsAt w 0 7)⟩
  | 0x2F => .ok ⟨true, .imaxN32 h (bitsAt w 21 3) (bitsAt w 14 7) (bitsAt w 7 7) (bitsAt w 0 7)⟩
  | 0x30 => .ok ⟨true, .iadd64 h (bitsAt w 21 3) (bitsAt w 14 7) (bitsAt w 7 7) (bitsAt w 0 7)⟩
  | 0x31 => .ok ⟨true, .imadw h (bitsAt w 21 3) (bitsAt w 14 7) (bitsAt w 7 7) (bitsAt w 0 7)⟩
  | 0x32 => .ok ⟨true, .icmp h (bitsAt w 21 3) (bitsAt w 18 3) (bitsAt w 14 4) (bitsAt w 7 7) (bitsAt w 0 7)⟩
  | 0x33 => .ok ⟨true, .isel h (bitsAt w 21 3) (bitsAt w 14 7) (bitsAt w 7 7) (bitsAt w 0 7)⟩
  | 0x34 => .ok ⟨true, .ibit h (bitsAt w 21 3) (bitsAt w 14 7) (bitsAt w 7 7) (bitsAt w 0 7)⟩
  | 0x35 => .ok ⟨true, .ibfe h (bitsAt w 21 3) (bitsAt w 14 7) (bitsAt w 7 7) (bitsAt w 0 7)⟩
  | 0x36 => .ok ⟨true, .ibfi h (bitsAt w 21 3) (bitsAt w 14 7) (bitsAt w 7 7) (bitsAt w 0 7)⟩
  | 0x37 => .ok ⟨true, .idivI32 h (bitsAt w 21 3) (bitsAt w 14 7) (bitsAt w 7 7) (bitsAt w 0 7)⟩
  | 0x38 => .ok ⟨true, .idivN32 h (bitsAt w 21 3) (bitsAt w 14 7) (bitsAt w 7 7) (bitsAt w 0 7)⟩
  | 0x39 => .ok ⟨true, .iremI32 h (bitsAt w 21 3) (bitsAt w 14 7) (bitsAt w 7 7) (bitsAt w 0 7)⟩
  | 0x3A => .ok ⟨true, .iremN32 h (bitsAt w 21 3) (bitsAt w 14 7) (bitsAt w 7 7) (bitsAt w 0 7)⟩
  | 0x3B => .ok ⟨true, .iaddi h (bitsAt w 21 3) (bitsAt w 14 7) (bitsAt w 7 7) (bitsAt w 0 7)⟩
  | 0x3C => main3C h w
  | 0x3D => .ok ⟨true, .vshfl h (bitsAt w 21 3) (bitsAt w 14 7) (bitsAt w 7 7) (bitsAt w 0 7)⟩
  | 0x3E =>
    if w % 2 ^ 7 = 0 then .ok ⟨true, .vfirst h (bitsAt w 21 3) (bitsAt w 14 7) (bitsAt w 7 7)⟩
    else if w / 2 ^ 5 % 2 ^ 2 = 1 then .ok ⟨true, .vbcast h (bitsAt w 21 3) (bitsAt w 14 7) (bitsAt w 7 7) (bitsAt w 0 5)⟩
    else if w / 2 ^ 3 % 2 ^ 4 = 8 then .ok ⟨true, .vscan h (bitsAt w 21 3) (bitsAt w 14 7) (bitsAt w 7 7) (bitsAt w 0 3)⟩
    else .error 2
  | 0x3F => .ok ⟨true, .vred h (bitsAt w 21 3) (bitsAt w 14 7) (bitsAt w 7 7) (bitsAt w 0 7)⟩
  | 0x40 => .ok ⟨true, .faddF32 h (bitsAt w 21 3) (bitsAt w 14 7) (bitsAt w 7 7) (bitsAt w 0 7)⟩
  | 0x41 => .ok ⟨true, .fsubF32 h (bitsAt w 21 3) (bitsAt w 14 7) (bitsAt w 7 7) (bitsAt w 0 7)⟩
  | 0x42 => .ok ⟨true, .fmulF32 h (bitsAt w 21 3) (bitsAt w 14 7) (bitsAt w 7 7) (bitsAt w 0 7)⟩
  | 0x43 => .ok ⟨true, .ffmaF32 h (bitsAt w 21 3) (bitsAt w 14 7) (bitsAt w 7 7) (bitsAt w 0 7)⟩
  | 0x44 => .ok ⟨true, .fminF32 h (bitsAt w 21 3) (bitsAt w 14 7) (bitsAt w 7 7) (bitsAt w 0 7)⟩
  | 0x45 => .ok ⟨true, .fmaxF32 h (bitsAt w 21 3) (bitsAt w 14 7) (bitsAt w 7 7) (bitsAt w 0 7)⟩
  | 0x46 => .ok ⟨true, .fcmpF32 h (bitsAt w 21 3) (bitsAt w 18 3) (bitsAt w 14 4) (bitsAt w 7 7) (bitsAt w 0 7)⟩
  | 0x47 => .ok ⟨true, .ffunF32 h (bitsAt w 21 3) (bitsAt w 14 7) (bitsAt w 7 7) (bitsAt w 0 7)⟩
  | 0x48 => .ok ⟨true, .fdivF32 h (bitsAt w 21 3) (bitsAt w 14 7) (bitsAt w 7 7) (bitsAt w 0 7)⟩
  | 0x49 => .ok ⟨true, .faddF64 h (bitsAt w 21 3) (bitsAt w 14 7) (bitsAt w 7 7) (bitsAt w 0 7)⟩
  | 0x4A => .ok ⟨true, .fsubF64 h (bitsAt w 21 3) (bitsAt w 14 7) (bitsAt w 7 7) (bitsAt w 0 7)⟩
  | 0x4B => .ok ⟨true, .fmulF64 h (bitsAt w 21 3) (bitsAt w 14 7) (bitsAt w 7 7) (bitsAt w 0 7)⟩
  | 0x4C => .ok ⟨true, .ffmaF64 h (bitsAt w 21 3) (bitsAt w 14 7) (bitsAt w 7 7) (bitsAt w 0 7)⟩
  | 0x4D => .ok ⟨true, .fminF64 h (bitsAt w 21 3) (bitsAt w 14 7) (bitsAt w 7 7) (bitsAt w 0 7)⟩
  | 0x4E => .ok ⟨true, .fmaxF64 h (bitsAt w 21 3) (bitsAt w 14 7) (bitsAt w 7 7) (bitsAt w 0 7)⟩
  | 0x4F => .ok ⟨true, .fcmpF64 h (bitsAt w 21 3) (bitsAt w 18 3) (bitsAt w 14 4) (bitsAt w 7 7) (bitsAt w 0 7)⟩
  | 0x50 => .ok ⟨true, .ffunF64 h (bitsAt w 21 3) (bitsAt w 14 7) (bitsAt w 7 7) (bitsAt w 0 7)⟩
  | 0x51 => .ok ⟨true, .fdivF64 h (bitsAt w 21 3) (bitsAt w 14 7) (bitsAt w 7 7) (bitsAt w 0 7)⟩
  | 0x52 => .ok ⟨true, .faddF16x2 h (bitsAt w 21 3) (bitsAt w 14 7) (bitsAt w 7 7) (bitsAt w 0 7)⟩
  | 0x53 => .ok ⟨true, .fmulF16x2 h (bitsAt w 21 3) (bitsAt w 14 7) (bitsAt w 7 7) (bitsAt w 0 7)⟩
  | 0x54 => .ok ⟨true, .ffmaF16x2 h (bitsAt w 21 3) (bitsAt w 14 7) (bitsAt w 7 7) (bitsAt w 0 7)⟩
  | 0x55 => .ok ⟨true, .faddBf16x2 h (bitsAt w 21 3) (bitsAt w 14 7) (bitsAt w 7 7) (bitsAt w 0 7)⟩
  | 0x56 => .ok ⟨true, .fmulBf16x2 h (bitsAt w 21 3) (bitsAt w 14 7) (bitsAt w 7 7) (bitsAt w 0 7)⟩
  | 0x57 => .ok ⟨true, .ffmaBf16x2 h (bitsAt w 21 3) (bitsAt w 14 7) (bitsAt w 7 7) (bitsAt w 0 7)⟩
  | 0x58 => .ok ⟨true, .cvt h (bitsAt w 21 3) (bitsAt w 14 7) (bitsAt w 7 7) (bitsAt w 0 7)⟩
  | 0x59 => .ok ⟨decide (w / 2 ^ 3 % 2 ^ 4 = 0), .cvtq h (bitsAt w 21 3) (bitsAt w 14 7) (bitsAt w 7 7) (bitsAt w 0 3)⟩
  | 0x5A => .ok ⟨decide (w / 2 ^ 3 % 2 ^ 4 = 0), .cvtd h (bitsAt w 21 3) (bitsAt w 14 7) (bitsAt w 7 7) (bitsAt w 0 3)⟩
  | 0x5B => .ok ⟨decide (w / 2 ^ 0 % 2 ^ 14 = 0), .rand h (bitsAt w 21 3) (bitsAt w 14 7)⟩
  | 0x60 => .ok ⟨true, .ldg h (bitsAt w 21 3) (bitsAt w 14 7) (bitsAt w 7 7) (bitsAt w 3 4) (bitsAt w 0 3)⟩
  | 0x61 => .ok ⟨true, .stg h (bitsAt w 21 3) (bitsAt w 14 7) (bitsAt w 7 7) (bitsAt w 3 4) (bitsAt w 0 3)⟩
  | 0x62 => .ok ⟨true, .ldgAcq h (bitsAt w 21 3) (bitsAt w 14 7) (bitsAt w 7 7) (bitsAt w 3 4) (bitsAt w 0 3)⟩
  | 0x63 => .ok ⟨true, .stgRel h (bitsAt w 21 3) (bitsAt w 14 7) (bitsAt w 7 7) (bitsAt w 3 4) (bitsAt w 0 3)⟩
  | 0x64 => .ok ⟨true, .lds h (bitsAt w 21 3) (bitsAt w 14 7) (bitsAt w 7 7) (bitsAt w 3 4) (bitsAt w 0 3)⟩
  | 0x65 => .ok ⟨true, .sts h (bitsAt w 21 3) (bitsAt w 14 7) (bitsAt w 7 7) (bitsAt w 3 4) (bitsAt w 0 3)⟩
  | 0x66 => .ok ⟨true, .atomg h (bitsAt w 21 3) (bitsAt w 14 7) (bitsAt w 7 7) (bitsAt w 4 3) (bitsAt w 0 4)⟩
  | 0x67 => .ok ⟨true, .redg h (bitsAt w 21 3) (bitsAt w 14 7) (bitsAt w 7 7) (bitsAt w 4 3) (bitsAt w 0 4)⟩
  | 0x68 => .ok ⟨true, .redgDet h (bitsAt w 21 3) (bitsAt w 14 7) (bitsAt w 7 7) (bitsAt w 4 3) (bitsAt w 0 4)⟩
  | 0x69 => .ok ⟨decide (w / 2 ^ 4 % 2 ^ 3 = 0), .atoms h (bitsAt w 21 3) (bitsAt w 14 7) (bitsAt w 7 7) (bitsAt w 0 4)⟩
  | 0x6A => .ok ⟨decide (w / 2 ^ 4 % 2 ^ 3 = 0), .reds h (bitsAt w 21 3) (bitsAt w 14 7) (bitsAt w 7 7) (bitsAt w 0 4)⟩
  | 0x6B => .ok ⟨decide (w / 2 ^ 0 % 2 ^ 20 = 0), .fence h (bitsAt w 22 2) (bitsAt w 20 2)⟩
  | 0x6C => .ok ⟨decide (w / 2 ^ 0 % 2 ^ 6 = 0) && decide (w / 2 ^ 18 % 2 ^ 2 = 0), .fencer h (bitsAt w 22 2) (bitsAt w 20 2) (bitsAt w 12 6) (bitsAt w 6 6)⟩
  | 0x6D => main6D h w
  | 0x6E => .ok ⟨decide (w / 2 ^ 14 % 2 ^ 7 = 0), .pfg h (bitsAt w 21 3) (bitsAt w 7 7) (bitsAt w 3 4) (bitsAt w 0 3)⟩
  | 0x6F => main6F h w
  | 0x70 => .ok ⟨decide (w / 2 ^ 0 % 2 ^ 9 = 0), .copy h (bitsAt w 21 3) (bitsAt w 15 6) (bitsAt w 9 6)⟩
  | 0x71 => .ok ⟨decide (w / 2 ^ 0 % 2 ^ 1 = 0), .mma h (bitsAt w 21 3) (bitsAt w 15 6) (bitsAt w 9 6) (bitsAt w 6 3) (bitsAt w 3 3) (bitsAt w 2 1) (bitsAt w 1 1)⟩
  | 0x72 => .ok ⟨decide (w / 2 ^ 3 % 2 ^ 4 = 0), .accread h (bitsAt w 21 3) (bitsAt w 14 7) (bitsAt w 7 7) (bitsAt w 0 3)⟩
  | 0x73 => .ok ⟨decide (w / 2 ^ 3 % 2 ^ 4 = 0), .accwrite h (bitsAt w 21 3) (bitsAt w 14 7) (bitsAt w 7 7) (bitsAt w 0 3)⟩
  | 0x74 => .ok ⟨decide (w / 2 ^ 5 % 2 ^ 2 = 0), .apatch h (bitsAt w 21 3) (bitsAt w 14 7) (bitsAt w 7 7) (bitsAt w 4 1) (bitsAt w 3 1) (bitsAt w 0 3)⟩
  | 0x75 => main75 h w
  | 0x78 => .ok ⟨true, .rbegin h (bitsAt w 21 3) (bitsAt w 0 21)⟩
  | 0x79 => main79 h w
  | 0x7A => .ok ⟨true, .rst h (bitsAt w 21 3) (bitsAt w 14 7) (bitsAt w 7 7) (bitsAt w 3 4) (bitsAt w 0 3)⟩
  | 0x7B => main7B h w
  | _ => .error 1

/-- What a list of words, read from the start of a group, holds. -/
inductive DecRes where
  /-- An instruction of n words. -/
  | ok (i : Instr) (n : Nat)
  /-- A group of n words that is no instruction: the reason (R167), the offending word and its index in the group, and the
  instruction that its main word names, which may have a lower reason yet at its issue. -/
  | illegal (reason : Nat) (word : Word) (idx n : Nat) (i : Option Instr)
  /-- A group of n words, an instruction but for a prefix word with E = 1 (R33). -/
  | pfxEnd (i : Instr) (n : Nat)
  /-- The list ends inside the group. -/
  | more
  deriving DecidableEq, Repr

/-- Whether a word is a prefix (R168). -/
def isPfx (w : Word) : Bool := decide (w.toNat / 2 ^ 24 % 2 ^ 7 = 0x7E)

/-- The kind of a prefix word. -/
def pfxKind (w : Word) : Nat := w.toNat / 2 ^ 22 % 2 ^ 2

/-- The modifier fields of a prefix word of kind 1 (R171). -/
def modsOf (w : Nat) : Mods :=
  { rnd := bitsAt w 19 3, ftz := decide (w / 2 ^ 18 % 2 = 1), sat := decide (w / 2 ^ 17 % 2 = 1),
    scv := decide (w / 2 ^ 16 % 2 = 1), scope := bitsAt w 14 2, orv := decide (w / 2 ^ 13 % 2 = 1),
    order := bitsAt w 11 2, hint := bitsAt w 9 2, w64 := decide (w / 2 ^ 8 % 2 = 1) }

/-- The extra operand of a prefix word of kind 2, if its class and number are allowed (R171). -/
def extOf (w : Nat) : Option ExtOp :=
  if w % 2 ^ 13 ≠ 0 then none
  else match w / 2 ^ 20 % 2 ^ 2 with
    | 0 => some (.vec (bitsAt w 13 7))
    | 1 => if w / 2 ^ 19 % 2 = 0 then some (.sca (bitsAt w 13 6)) else none
    | _ => none

/-- The prefixes read so far, the first one that breaks a rule by itself (R172), and whether one had E = 1. -/
structure PfxState where
  imm : Option (BitVec 22)
  mod : Option Mods
  ext : Option ExtOp
  seen : List Nat
  bad : Option (Nat × Word)
  ended : Bool
  deriving DecidableEq, Repr

/-- No prefix read yet. -/
def PfxState.start : PfxState := ⟨none, none, none, [], none, false⟩

/-- Reading one more prefix word, the idx-th of the group (R168, R171, R172). -/
def PfxState.add (s : PfxState) (idx : Nat) (word : Word) : PfxState :=
  let w := word.toNat
  let k := pfxKind word
  let s := { s with ended := s.ended || decide (w / 2 ^ 31 % 2 = 1) }
  let broken : PfxState := { s with bad := s.bad.or (some (idx, word)), seen := s.seen ++ [k] }
  if k ∈ s.seen then broken
  else match k with
    | 0 => { s with imm := some (bitsAt w 0 22), seen := s.seen ++ [0] }
    | 1 => if w % 2 ^ 8 = 0 ∧ w / 2 ^ 19 % 2 ^ 3 ≤ 4
        then { s with mod := some (modsOf w), seen := s.seen ++ [1] } else broken
    | 2 => match extOf w with
        | some x => { s with ext := some x, seen := s.seen ++ [2] }
        | none => broken
    | _ => broken

/-- The first prefix, by its place, whose kind the instruction does not accept (R172). -/
def unaccepted (i : Instr) (seen : List Nat) : Option Nat :=
  seen.findIdx? fun k =>
    match k with
    | 0 => !i.immOk
    | 1 => !i.modOk
    | 2 => !i.extOk
    | _ => false

/-- The earlier of the prefix that breaks a rule by itself and the first one not accepted; the word itself when a cas
lacks its compare value. -/
def prefixFault (i : Instr) (s : PfxState) (words : List Word) : Option (Nat × Word) :=
  match s.bad, unaccepted i s.seen with
  | some (a, w), some b => if a ≤ b then some (a, w) else some (b, words.getD b 0)
  | some x, none => some x
  | none, some b => some (b, words.getD b 0)
  | none, none => if i.extPresent then none else some (s.seen.length, words.getD s.seen.length 0)

/-- A code from 112 to 127 in an extra operand that is a destination (R246): the scalar destination of vred, vfirst and
vbcast. -/
def badDest (i : Instr) (words : List Word) : Bool :=
  decide (i.takesExt = .sca) && words.any fun x =>
    isPfx x && decide (pfxKind x = 2) && decide (x.toNat / 2 ^ 20 % 2 ^ 2 = 1) && decide (112 ≤ x.toNat / 2 ^ 13 % 2 ^ 7)

/-- A group whose prefixes are read, at its last word: the lowest reason is reported (R167), and a prefix with E = 1
counts only when the group is an instruction otherwise (R33). DESIGN CHOICE (log 47): the lowest reason is that of the whole
group, with the word that has it; an operand code that is forbidden is charged to the main word, also where a prefix word
holds it. -/
def decodeMain (s : PfxState) (words : List Word) (word : Word) : DecRes :=
  let idx := s.seen.length
  let h : Hdr := ⟨decide (word.toNat / 2 ^ 31 % 2 = 1), s.imm, s.mod, s.ext⟩
  match mainOf h word.toNat with
  | .error r => .illegal r word idx (idx + 1) none
  | .ok c =>
    if !c.instr.funcOk then .illegal 2 word idx (idx + 1) none
    else if !(c.zero && c.instr.reservedOk) then .illegal 3 word idx (idx + 1) none
    else if !c.instr.codesOk || badDest c.instr (words.take idx) then .illegal 4 word idx (idx + 1) (some c.instr)
    else match prefixFault c.instr s words with
      | some (j, w) => .illegal 5 w j (idx + 1) (some c.instr)
      | none => if s.ended then .pfxEnd c.instr (idx + 1) else .ok c.instr (idx + 1)

/-- Reading the words of a group one after the other. -/
def decodeFrom (s : PfxState) (all : List Word) : List Word → DecRes
  | [] => match s.bad with
      | some (j, w) => if 24 ≤ s.seen.length then .illegal 5 w j s.seen.length none else .more
      | none => .more
  | w :: ws => if isPfx w then decodeFrom (s.add s.seen.length w) all ws else decodeMain s all w

/-- Decoding the group that starts at the head of the list (R169). -/
def decodeWords (ws : List Word) : DecRes := decodeFrom PfxState.start ws ws

/-- A field placed at its lowest bit in a word. -/
def put {n : Nat} (lo : Nat) (x : BitVec n) (w : Nat) : Nat := w + x.toNat * 2 ^ lo

/-- The header and the word (its E bit left 0) of an encoded instruction; an event has none. -/
def encodeMain : Instr → Option (Hdr × Nat)
  | .bra h g o => some (h, put 0 o (put 21 g 0x01000000))
  | .call h g o => some (h, put 0 o (put 21 g 0x02000000))
  | .nop h g => some (h, put 21 g 0x03000000)
  | .ret h g => some (h, put 21 g 0x03000001)
  | .exit h g => some (h, put 21 g 0x03000002)
  | .exitQ h g => some (h, put 21 g 0x03000003)
  | .yield h g => some (h, put 21 g 0x03000004)
  | .tret h g => some (h, put 21 g 0x03000005)
  | .brx h g t => some (h, put 14 t (put 21 g 0x03000006))
  | .callx h g t => some (h, put 14 t (put 21 g 0x03000007))
  | .bkpt h g c => some (h, put 6 c (put 21 g 0x03000008))
  | .trap h g c => some (h, put 6 c (put 21 g 0x03000009))
  | .jenter h j => some (h, put 20 j 0x04000000)
  | .jquit h j => some (h, put 20 j 0x04000001)
  | .jwait h j => some (h, put 20 j 0x04000002)
  | .jclr h j => some (h, put 20 j 0x04000003)
  | .jmask h j s => some (h, put 14 s (put 20 j 0x04000004))
  | .jarr h j s => some (h, put 14 s (put 20 j 0x04000005))
  | .jload h j s => some (h, put 14 s (put 20 j 0x04000006))
  | .pand h g d a b => some (h, put 0 b (put 7 a (put 18 d (put 21 g 0x05000000))))
  | .por h g d a b => some (h, put 0 b (put 7 a (put 18 d (put 21 g 0x05004000))))
  | .pxor h g d a b => some (h, put 0 b (put 7 a (put 18 d (put 21 g 0x05008000))))
  | .pandn h g d a b => some (h, put 0 b (put 7 a (put 18 d (put 21 g 0x0500C000))))
  | .pnot h g d a => some (h, put 7 a (put 18 d (put 21 g 0x05010000)))
  | .pmov h g d a => some (h, put 7 a (put 18 d (put 21 g 0x05014000)))
  | .pget h g s a => some (h, put 0 a (put 7 s (put 21 g 0x0501C000)))
  | .elect h g d => some (h, put 18 d (put 21 g 0x06000000))
  | .reggrow h n => some (h, put 6 n 0x07E00000)
  | .sget h d n => some (h, put 6 n (put 18 d 0x08000000))
  | .sset h a n => some (h, put 6 n (put 12 a 0x08000001))
  | .vgetGang h d n => some (h, put 6 n (put 17 d 0x08000002))
  | .vgetThread h g d n => some (h, put 0 n (put 14 d (put 21 g 0x5C000000)))
  | .clkScalar h d => some (h, put 18 d 0x09000000)
  | .clkVector h d => some (h, put 17 d 0x09000001)
  | .sadd h d a b => some (h, put 6 b (put 12 a (put 18 d 0x10000000)))
  | .ssub h d a b => some (h, put 6 b (put 12 a (put 18 d 0x10000001)))
  | .smul h d a b => some (h, put 6 b (put 12 a (put 18 d 0x10000002)))
  | .smulhN h d a b => some (h, put 6 b (put 12 a (put 18 d 0x10000003)))
  | .smulhI h d a b => some (h, put 6 b (put 12 a (put 18 d 0x10000004)))
  | .sand h d a b => some (h, put 6 b (put 12 a (put 18 d 0x10000005)))
  | .sor h d a b => some (h, put 6 b (put 12 a (put 18 d 0x10000006)))
  | .sxor h d a b => some (h, put 6 b (put 12 a (put 18 d 0x10000007)))
  | .sandn h d a b => some (h, put 6 b (put 12 a (put 18 d 0x10000008)))
  | .sshl h d a b => some (h, put 6 b (put 12 a (put 18 d 0x10000009)))
  | .sshrN h d a b => some (h, put 6 b (put 12 a (put 18 d 0x1000000A)))
  | .sshrI h d a b => some (h, put 6 b (put 12 a (put 18 d 0x1000000B)))
  | .sminI h d a b => some (h, put 6 b (put 12 a (put 18 d 0x1000000C)))
  | .smaxI h d a b => some (h, put 6 b (put 12 a (put 18 d 0x1000000D)))
  | .sminN h d a b => some (h, put 6 b (put 12 a (put 18 d 0x1000000E)))
  | .smaxN h d a b => some (h, put 6 b (put 12 a (put 18 d 0x1000000F)))
  | .sadda h d a b => some (h, put 6 b (put 12 a (put 18 d 0x10000010)))
  | .smov h d a => some (h, put 12 a (put 18 d 0x10000011))
  | .spopc h d a => some (h, put 12 a (put 18 d 0x10000012))
  | .saddi h d a i => some (h, put 0 i (put 12 a (put 18 d 0x11000000)))
  | .sshli h d a n => some (h, put 0 n (put 12 a (put 18 d 0x12000000)))
  | .sli h d i => some (h, put 0 i (put 18 d 0x13000000))
  | .scmp h p a b c => some (h, put 0 c (put 6 b (put 12 a (put 21 p 0x14000000))))
  | .saddai h d a i => some (h, put 0 i (put 12 a (put 18 d 0x15000000)))
  | .sld h d a w i => some (h, put 0 i (put 9 w (put 12 a (put 18 d 0x16000000))))
  | .sldp h d a i => some (h, put 0 i (put 12 a (put 18 d 0x16000C00)))
  | .sst h d a w i => some (h, put 0 i (put 9 w (put 12 a (put 18 d 0x17000000))))
  | .sstp h d a i => some (h, put 0 i (put 12 a (put 18 d 0x17000C00)))
  | .sldparam h d w o => some (h, put 0 o (put 12 w (put 18 d 0x18000000)))
  | .sfirst h d a => some (h, put 7 a (put 18 d 0x19000000))
  | .iadd h g d a b => some (h, put 0 b (put 7 a (put 14 d (put 21 g 0x20000000))))
  | .isub h g d a b => some (h, put 0 b (put 7 a (put 14 d (put 21 g 0x21000000))))
  | .imulLo h g d a b => some (h, put 0 b (put 7 a (put 14 d (put 21 g 0x22000000))))
  | .imulhI32 h g d a b => some (h, put 0 b (put 7 a (put 14 d (put 21 g 0x23000000))))
  | .imulhN32 h g d a b => some (h, put 0 b (put 7 a (put 14 d (put 21 g 0x24000000))))
  | .imad h g d a b => some (h, put 0 b (put 7 a (put 14 d (put 21 g 0x25000000))))
  | .iand h g d a b => some (h, put 0 b (put 7 a (put 14 d (put 21 g 0x26000000))))
  | .ior h g d a b => some (h, put 0 b (put 7 a (put 14 d (put 21 g 0x27000000))))
  | .ixor h g d a b => some (h, put 0 b (put 7 a (put 14 d (put 21 g 0x28000000))))
  | .ishl h g d a b => some (h, put 0 b (put 7 a (put 14 d (put 21 g 0x29000000))))
  | .ishrN h g d a b => some (h, put 0 b (put 7 a (put 14 d (put 21 g 0x2A000000))))
  | .ishrI h g d a b => some (h, put 0 b (put 7 a (put 14 d (put 21 g 0x2B000000))))
  | .iminI32 h g d a b => some (h, put 0 b (put 7 a (put 14 d (put 21 g 0x2C000000))))
  | .imaxI32 h g d a b => some (h, put 0 b (put 7 a (put 14 d (put 21 g 0x2D000000))))
  | .iminN32 h g d a b => some (h, put 0 b (put 7 a (put 14 d (put 21 g 0x2E000000))))
  | .imaxN32 h g d a b => some (h, put 0 b (put 7 a (put 14 d (put 21 g 0x2F000000))))
  | .iadd64 h g d a b => some (h, put 0 b (put 7 a (put 14 d (put 21 g 0x30000000))))
  | .imadw h g d a b => some (h, put 0 b (put 7 a (put 14 d (put 21 g 0x31000000))))
  | .icmp h g p c a b => some (h, put 0 b (put 7 a (put 14 c (put 18 p (put 21 g 0x32000000)))))
  | .isel h s d a b => some (h, put 0 b (put 7 a (put 14 d (put 21 s 0x33000000))))
  | .ibit h g d a f => some (h, put 0 f (put 7 a (put 14 d (put 21 g 0x34000000))))
  | .ibfe h g d a b => some (h, put 0 b (put 7 a (put 14 d (put 21 g 0x35000000))))
  | .ibfi h g d a b => some (h, put 0 b (put 7 a (put 14 d (put 21 g 0x36000000))))
  | .idivI32 h g d a b => some (h, put 0 b (put 7 a (put 14 d (put 21 g 0x37000000))))
  | .idivN32 h g d a b => some (h, put 0 b (put 7 a (put 14 d (put 21 g 0x38000000))))
  | .iremI32 h g d a b => some (h, put 0 b (put 7 a (put 14 d (put 21 g 0x39000000))))
  | .iremN32 h g d a b => some (h, put 0 b (put 7 a (put 14 d (put 21 g 0x3A000000))))
  | .iaddi h g d a i => some (h, put 0 i (put 7 a (put 14 d (put 21 g 0x3B000000))))
  | .ishli h g d a n => some (h, put 0 n (put 7 a (put 14 d (put 21 g 0x3C000000))))
  | .ishriN h g d a n => some (h, put 0 n (put 7 a (put 14 d (put 21 g 0x3C000020))))
  | .ishriI h g d a n => some (h, put 0 n (put 7 a (put 14 d (put 21 g 0x3C000040))))
  | .vshfl h g d a b => some (h, put 0 b (put 7 a (put 14 d (put 21 g 0x3D000000))))
  | .vfirst h g d a => some (h, put 7 a (put 14 d (put 21 g 0x3E000000)))
  | .vbcast h g d a n => some (h, put 0 n (put 7 a (put 14 d (put 21 g 0x3E000020))))
  | .vscan h g d a o => some (h, put 0 o (put 7 a (put 14 d (put 21 g 0x3E000040))))
  | .vred h g d a f => some (h, put 0 f (put 7 a (put 14 d (put 21 g 0x3F000000))))
  | .faddF32 h g d a b => some (h, put 0 b (put 7 a (put 14 d (put 21 g 0x40000000))))
  | .fsubF32 h g d a b => some (h, put 0 b (put 7 a (put 14 d (put 21 g 0x41000000))))
  | .fmulF32 h g d a b => some (h, put 0 b (put 7 a (put 14 d (put 21 g 0x42000000))))
  | .ffmaF32 h g d a b => some (h, put 0 b (put 7 a (put 14 d (put 21 g 0x43000000))))
  | .fminF32 h g d a b => some (h, put 0 b (put 7 a (put 14 d (put 21 g 0x44000000))))
  | .fmaxF32 h g d a b => some (h, put 0 b (put 7 a (put 14 d (put 21 g 0x45000000))))
  | .fcmpF32 h g p c a b => some (h, put 0 b (put 7 a (put 14 c (put 18 p (put 21 g 0x46000000)))))
  | .ffunF32 h g d a f => some (h, put 0 f (put 7 a (put 14 d (put 21 g 0x47000000))))
  | .fdivF32 h g d a b => some (h, put 0 b (put 7 a (put 14 d (put 21 g 0x48000000))))
  | .faddF64 h g d a b => some (h, put 0 b (put 7 a (put 14 d (put 21 g 0x49000000))))
  | .fsubF64 h g d a b => some (h, put 0 b (put 7 a (put 14 d (put 21 g 0x4A000000))))
  | .fmulF64 h g d a b => some (h, put 0 b (put 7 a (put 14 d (put 21 g 0x4B000000))))
  | .ffmaF64 h g d a b => some (h, put 0 b (put 7 a (put 14 d (put 21 g 0x4C000000))))
  | .fminF64 h g d a b => some (h, put 0 b (put 7 a (put 14 d (put 21 g 0x4D000000))))
  | .fmaxF64 h g d a b => some (h, put 0 b (put 7 a (put 14 d (put 21 g 0x4E000000))))
  | .fcmpF64 h g p c a b => some (h, put 0 b (put 7 a (put 14 c (put 18 p (put 21 g 0x4F000000)))))
  | .ffunF64 h g d a f => some (h, put 0 f (put 7 a (put 14 d (put 21 g 0x50000000))))
  | .fdivF64 h g d a b => some (h, put 0 b (put 7 a (put 14 d (put 21 g 0x51000000))))
  | .faddF16x2 h g d a b => some (h, put 0 b (put 7 a (put 14 d (put 21 g 0x52000000))))
  | .fmulF16x2 h g d a b => some (h, put 0 b (put 7 a (put 14 d (put 21 g 0x53000000))))
  | .ffmaF16x2 h g d a b => some (h, put 0 b (put 7 a (put 14 d (put 21 g 0x54000000))))
  | .faddBf16x2 h g d a b => some (h, put 0 b (put 7 a (put 14 d (put 21 g 0x55000000))))
  | .fmulBf16x2 h g d a b => some (h, put 0 b (put 7 a (put 14 d (put 21 g 0x56000000))))
  | .ffmaBf16x2 h g d a b => some (h, put 0 b (put 7 a (put 14 d (put 21 g 0x57000000))))
  | .cvt h g d a f => some (h, put 0 f (put 7 a (put 14 d (put 21 g 0x58000000))))
  | .cvtq h g d a s => some (h, put 0 s (put 7 a (put 14 d (put 21 g 0x59000000))))
  | .cvtd h g d a s => some (h, put 0 s (put 7 a (put 14 d (put 21 g 0x5A000000))))
  | .rand h g d => some (h, put 14 d (put 21 g 0x5B000000))
  | .ldg h g t o b w => some (h, put 0 w (put 3 b (put 7 o (put 14 t (put 21 g 0x60000000)))))
  | .stg h g t o b w => some (h, put 0 w (put 3 b (put 7 o (put 14 t (put 21 g 0x61000000)))))
  | .ldgAcq h g t o b w => some (h, put 0 w (put 3 b (put 7 o (put 14 t (put 21 g 0x62000000)))))
  | .stgRel h g t o b w => some (h, put 0 w (put 3 b (put 7 o (put 14 t (put 21 g 0x63000000)))))
  | .lds h g t o i w => some (h, put 0 w (put 3 i (put 7 o (put 14 t (put 21 g 0x64000000)))))
  | .sts h g t o i w => some (h, put 0 w (put 3 i (put 7 o (put 14 t (put 21 g 0x65000000)))))
  | .atomg h g t o b f => some (h, put 0 f (put 4 b (put 7 o (put 14 t (put 21 g 0x66000000)))))
  | .redg h g t o b f => some (h, put 0 f (put 4 b (put 7 o (put 14 t (put 21 g 0x67000000)))))
  | .redgDet h g t o b f => some (h, put 0 f (put 4 b (put 7 o (put 14 t (put 21 g 0x68000000)))))
  | .atoms h g t o f => some (h, put 0 f (put 7 o (put 14 t (put 21 g 0x69000000))))
  | .reds h g t o f => some (h, put 0 f (put 7 o (put 14 t (put 21 g 0x6A000000))))
  | .fence h o c => some (h, put 20 c (put 22 o 0x6B000000))
  | .fencer h o c a b => some (h, put 6 b (put 12 a (put 20 c (put 22 o 0x6C000000))))
  | .barArrive h g s => some (h, put 15 s (put 21 g 0x6D000000))
  | .barWait h g s => some (h, put 15 s (put 21 g 0x6D000001))
  | .barArrwait h g s => some (h, put 15 s (put 21 g 0x6D000002))
  | .barCredit h g s w => some (h, put 6 w (put 15 s (put 21 g 0x6D000003)))
  | .pfg h g o b l => some (h, put 0 l (put 3 b (put 7 o (put 21 g 0x6E000000))))
  | .bufFill h g n => some (h, put 6 n (put 21 g 0x6F000000))
  | .bufTake h g n => some (h, put 6 n (put 21 g 0x6F000001))
  | .bufFree h g n => some (h, put 6 n (put 21 g 0x6F000002))
  | .copy h g c t => some (h, put 9 t (put 15 c (put 21 g 0x70000000)))
  | .mma h g c t a b z x => some (h, put 1 x (put 2 z (put 3 b (put 6 a (put 9 t (put 15 c (put 21 g 0x71000000)))))))
  | .accread h g d a t => some (h, put 0 t (put 7 a (put 14 d (put 21 g 0x72000000))))
  | .accwrite h g d a t => some (h, put 0 t (put 7 a (put 14 d (put 21 g 0x73000000))))
  | .apatch h g d a hi lo t => some (h, put 0 t (put 3 lo (put 4 hi (put 7 a (put 14 d (put 21 g 0x74000000))))))
  | .accctlClear h g t => some (h, put 6 t (put 21 g 0x75000000))
  | .accctlSave h g c t => some (h, put 6 t (put 15 c (put 21 g 0x75000001)))
  | .accctlLoad h g c t => some (h, put 6 t (put 15 c (put 21 g 0x75000002)))
  | .accctlWait h g t => some (h, put 6 t (put 21 g 0x75000003))
  | .accctlOvf h g d t => some (h, put 6 t (put 9 d (put 21 g 0x75000004)))
  | .rbegin h g o => some (h, put 0 o (put 21 g 0x78000000))
  | .rld h g t o b => some (h, put 3 b (put 7 o (put 14 t (put 21 g 0x79000004))))
  | .rst h g t o b w => some (h, put 0 w (put 3 b (put 7 o (put 14 t (put 21 g 0x7A000000)))))
  | .rend h g => some (h, put 21 g 0x7B000000)
  | .rabort h g i => some (h, put 7 i (put 21 g 0x7B000001))
  | .rstat h g d => some (h, put 14 d (put 21 g 0x7B000002))
  | .issueRound _ _ => none
  | .forcedSwitch _ _ => none
  | .loadResponse _ _ _ => none
  | .placeBlock _ _ => none
  | .gangDrain _ _ => none
  | .blockStall _ => none
  | .reggrowGrant _ _ => none
  | .eviction _ _ => none
  | .waiterTimeout _ _ => none
  | .l1WriteBack _ _ => none
  | .mauAtomic _ _ _ => none
  | .updateArrival _ _ => none
  | .drain _ => none
  | .commit _ _ => none
  | .copyJobStart _ _ => none
  | .copyBeat _ _ => none
  | .copyCompletion _ _ => none
  | .mmaJobStart _ _ => none
  | .mmaGroup _ _ => none
  | .mmaCompletion _ _ => none
  | .accAction _ _ => none
  | .tableWalk _ _ _ => none
  | .engineEventDelivery _ _ _ => none
  | .preemptionRequest _ => none
  | .openRunTimeout _ _ => none
  | .queueStart _ _ _ => none
  | .queueTeardown _ _ _ => none
  | .qbaseWrite _ _ _ => none
  | .qwidxWrite _ _ _ => none
  | .packetFetch _ _ => none
  | .launch _ _ => none
  | .waitsig _ _ => none
  | .signalReread _ _ => none
  | .setsig _ _ => none
  | .mark _ _ => none
  | .flush _ _ => none
  | .launchCompletion _ => none
  | .traceRecord _ _ _ _ => none
  | .tinvalPage _ _ => none
  | .tinvalAll _ _ => none
  | .invalidationComplete _ => none
  | .fresume _ _ => none
  | .keyRetire _ _ => none
  | .keyRetireComplete _ => none
  | .registerWrite _ _ _ => none
  | .getS _ _ => none
  | .getM _ _ => none
  | .putE _ _ => none
  | .putM _ _ => none
  | .putP _ _ => none
  | .fwdS _ _ _ => none
  | .fwdM _ _ _ => none
  | .inv _ _ => none
  | .backInv _ _ => none
  | .recall _ _ => none
  | .data _ _ _ => none
  | .invAck _ _ => none
  | .fwdAck _ _ => none
  | .maskReq _ _ _ => none
  | .maskGrant _ _ => none
  | .maskUpd _ _ _ => none
  | .dieFailure _ => none
  | .dieReadmit _ => none
  | .uncorrectableError _ _ => none
  | .write _ _ => none
  | .read _ _ => none
  | .ack _ _ => none
  | .nak _ _ => none
  | .resendTimeout _ => none
  | .flit _ _ => none
  | .readMessage _ => none
  | .writeMessage _ => none
  | .atomicMessage _ => none
  | .readResponse _ => none
  | .writeAcknowledgement _ => none
  | .atomicResponse _ => none
  | .errorResponse _ => none
  | .responseTimeout _ => none
  | .sessionNotice _ => none
  | .partcfg _ _ => none
  | .connbind _ _ _ _ => none
  | .connreset _ _ => none
  | .fabcfg _ _ _ => none
  | .keyinst _ _ _ _ => none
  | .sparepool _ _ _ => none
  | .fwstage _ _ _ _ => none
  | .fwapply _ => none
  | .svcread _ _ => none
  | .dirdump _ _ => none
  | .attest _ _ => none
  | .powcap _ _ => none
  | .powerOn _ _ => none
  | .coreFailure _ => none
  | .sliceFailure _ => none
  | .rowErrors _ _ => none
  | .channelFailure _ => none
  | .linkLaneFailure _ _ => none
  | .throttle => none
  | .thermalStop _ => none
  | .thermalResume => none
  | .sessionStart _ _ => none
  | .sessionEnd _ _ => none
  | .chunkEnd _ _ => none
  | .frameClose _ _ => none
  | .clockEnd _ => none
  | .go _ _ => none
  | .halt _ _ => none
  | .rpseal _ _ => none
  | .chunkHoldRelease _ _ => none
  | .replayStop _ => none
  | .wordNotAnInstruction _ _ _ _ => none
  | .l1SliceFailure _ _ => none
  | .powerFailure => none

/-- A prefix word of kind k with payload p (R168). -/
def pfxWord (k p : Nat) : Word := BitVec.ofNat 32 (0x7E000000 + k * 2 ^ 22 + p)

/-- One bit as a number. -/
def bitNat (b : Bool) : Nat := if b then 1 else 0

/-- The payload of a modifier prefix (R171). -/
def modsPayload (m : Mods) : Nat :=
  m.rnd.toNat * 2 ^ 19 + bitNat m.ftz * 2 ^ 18 + bitNat m.sat * 2 ^ 17 + bitNat m.scv * 2 ^ 16 + m.scope.toNat * 2 ^ 14
    + bitNat m.orv * 2 ^ 13 + m.order.toNat * 2 ^ 11 + m.hint.toNat * 2 ^ 9 + bitNat m.w64 * 2 ^ 8

/-- The payload of an extra-operand prefix (R171). -/
def extPayload : ExtOp → Nat
  | .vec c => c.toNat * 2 ^ 13
  | .sca n => 2 ^ 20 + n.toNat * 2 ^ 13

/-- The prefix words of a header, in the order immediate, modifiers, extra operand. -/
def encodePrefixes (h : Hdr) : List Word :=
  (match h.imm with | some e => [pfxWord 0 e.toNat] | none => [])
    ++ (match h.mod with | some m => [pfxWord 1 (modsPayload m)] | none => [])
    ++ (match h.ext with | some x => [pfxWord 2 (extPayload x)] | none => [])

/-- The words of an instruction (R158-R172); none for an event. -/
def encode (i : Instr) : List Word :=
  match encodeMain i with
  | some (h, w) => encodePrefixes h ++ [BitVec.ofNat 32 (w + bitNat h.e * 2 ^ 31)]
  | none => []

/-- The words of the number w, least significant first: an instruction as the opcode table numbers its bits. -/
def tableWords (w : Nat) : List Word :=
  (List.range 4).map fun k => BitVec.ofNat 32 (w / 2 ^ (32 * k))

/-- The instruction that the decoder reads from the number w. -/
def decodeTableWord (nbits w : Nat) : Option Instr :=
  match decodeWords (tableWords (w % 2 ^ nbits)) with
  | .ok i _ => some i
  | _ => none

end Sys2Proof
end

