-- ==== Sys2Proof/Machine/Memory.lean ====
section
/-! DEFINITION. Global memory below the dies' L2s: physical addresses, HBM4, the lines of the L3 slices, poison, the proxy
copies of other devices' lines (R10, R352-R355, R372, R373, R377). What the L2s have added to a line stands in its L3 line, or
in its proxy copy: the L2s are coherent, so a line has one content below the L1s (log 8). -/

namespace Sys2Proof.Machine

/-! ### Physical addresses -/

/-- The device that a physical address names (R352). -/
def devOf (pa : Nat) : Nat := pa / 2 ^ 44
/-- The offset in the device's window (R352). -/
def offOf (pa : Nat) : Nat := pa % 2 ^ 44
/-- The line of a physical address (R112). -/
def lineOf (pa : Nat) : Nat := pa / 128
/-- The slice, and so the home, of a line (R352). -/
def sliceOf (line : Nat) : Nat := ((line * 128 / 2 ^ 16) % 256) ^^^ ((line * 128 / 2 ^ 24) % 256)
/-- Whether an address lies on this device. -/
def State.local (s : State) (pa : Nat) : Bool := decide (devOf pa = s.devId.toNat)
/-- The offsets at and above which a window holds no memory (R352). -/
def hbmLimit : Nat := 0xC000000000

/-- A byte of one partition's redg.det chain area (R316). -/
def Partition.inChain (P : Partition) (off : Nat) : Bool :=
  decide (P.dcBase.toNat % 2 ^ 44 ≤ off) && decide (off < P.dcBase.toNat % 2 ^ 44 + P.dcSize.toNat)

/-- The links over which a device can be reached (R409). -/
def State.linksTo (s : State) (d : Nat) : List Nat :=
  (List.range 18).filter fun l =>
    (vget s.routes d 0).getLsbD l && s.linkEn.getLsbD l && (vget s.links l Link.reset).up

/-- Why a physical address cannot be accessed with reason 6 (R347): outside its window's memory, in a chain area, in the spare
pool, or on an unreachable device. -/
def State.badPlace (s : State) (pa : Nat) : Bool :=
  decide (hbmLimit ≤ offOf pa) ||
    if s.local pa then
      s.parts.toList.any (fun P => P.inChain (offOf pa)) || s.mgmt.pool.any (fun f => decide (f.1 = offOf pa / 2 ^ 16))
    else (s.linksTo (devOf pa)).isEmpty

/-! ### The bytes of a line -/

/-- Byte i of a line's data. -/
def lineByte (d : BitVec 1024) (i : Nat) : Byte := d.extractLsb' (8 * i) 8

/-- A line's data with byte i replaced. -/
def setLineByte (d : BitVec 1024) (i : Nat) (b : Byte) : BitVec 1024 :=
  (d &&& ~~~ ((0xFF#1024) <<< (8 * i))) ||| ((b.setWidth 1024) <<< (8 * i))

/-- A line's data from its bytes. -/
def lineFrom (f : Nat → Byte) : BitVec 1024 := (List.range 128).foldl (fun d i => setLineByte d i (f i)) 0

/-- A line's data with the bytes of a list that stands at an address in place of its own. -/
def patchLine (line pa : Nat) (bs : List Byte) (d : BitVec 1024) : BitVec 1024 :=
  lineFrom fun i =>
    if pa ≤ line * 128 + i ∧ line * 128 + i < pa + bs.length then bs.getD (line * 128 + i - pa) 0 else lineByte d i

/-- A line's data with the bytes of a mask taken from other data. -/
def maskLine (new : BitVec 1024) (mask : BitVec 128) (d : BitVec 1024) : BitVec 1024 :=
  lineFrom fun i => if mask.getLsbD i then lineByte new i else lineByte d i

/-- The bytes of a line that n bytes from pa on are. -/
def byteMask (pa n : Nat) : BitVec 128 := (List.range n).foldl (fun m i => m ||| BitVec.twoPow 128 (pa % 128 + i)) 0

/-- The pieces of a line that lie wholly in n bytes from pa on (R372). -/
def coveredPieces (line pa n : Nat) : BitVec 16 :=
  (List.range 16).foldl (fun m i =>
    if pa ≤ line * 128 + 8 * i ∧ line * 128 + 8 * i + 8 ≤ pa + n then m ||| BitVec.twoPow 16 i else m) 0

/-- The pieces of a line that n bytes from pa on touch. -/
def touchedPieces (line pa n : Nat) : BitVec 16 :=
  (List.range 16).foldl (fun m i =>
    if pa < line * 128 + 8 * i + 8 ∧ line * 128 + 8 * i < pa + n then m ||| BitVec.twoPow 16 i else m) 0

/-- The 8-byte pieces of a line that a mask of bytes covers whole. -/
def wholePieces (mask : BitVec 128) : BitVec 16 :=
  (List.range 16).foldl (fun p i =>
    if (List.range 8).all (fun j => mask.getLsbD (8 * i + j)) then p ||| BitVec.twoPow 16 i else p) 0

/-- The pieces of a line that a mask of bytes touches. -/
def somePieces (mask : BitVec 128) : BitVec 16 :=
  (List.range 16).foldl (fun p i =>
    if (List.range 8).any (fun j => mask.getLsbD (8 * i + j)) then p ||| BitVec.twoPow 16 i else p) 0

/-- The bytes of some pieces. -/
def pieceBytes (p : BitVec 16) : BitVec 128 :=
  (List.range 16).foldl (fun m i => if p.getLsbD i then m ||| (0xFF#128 <<< (8 * i)) else m) 0

/-- The lines that n bytes from pa on touch. -/
def linesOf (pa n : Nat) : List Nat :=
  if n = 0 then [] else (List.range (lineOf (pa + n - 1) - lineOf pa + 1)).map fun i => lineOf pa + i

/-! ### HBM4 -/

/-- What stands beside the bytes of a line that nothing has written. -/
def LineMeta.blank (line : Nat) : LineMeta := { line := line, key := 0, poison := 0, psrc := 0 }

/-- What HBM4 holds beside a line's bytes. -/
def State.line (s : State) (n : Nat) : LineMeta :=
  (s.lines.find? fun x => decide (x.line = n)).getD (LineMeta.blank n)

/-- The state with HBM4's record of a line changed. -/
def State.modLine (s : State) (n : Nat) (f : LineMeta → LineMeta) : State :=
  if s.lines.any (fun x => decide (x.line = n)) then
    { s with lines := s.lines.map fun x => if x.line = n then f x else x }
  else { s with lines := f (LineMeta.blank n) :: s.lines }

/-- A byte that a read of HBM4 under a key returns (R355, log 9). -/
def State.hbmByte (s : State) (key pa : Nat) : Byte :=
  let m := s.line (lineOf pa)
  if m.key = key then sread s.mem (offOf pa)
  else Config.otherKeyByte pa key m.key (BitVec.ofNat 128 (readLE s.mem (offOf (pa / 16 * 16)) 16))

/-! ### Clocks of lines (R377) -/

/-- No clocks. -/
def Clocks.none : Clocks := { wclk := 0, wag := 0xFFFFFFFF#32, rclk := 0, rag := 0xFFFFFFFF#32 }

/-- FLOOR of a slice for a partition. -/
def State.floorOf (s : State) (p sl : Nat) : Nat :=
  ((s.floor.find? fun x => decide (x.1 = p ∧ x.2.1 = sl)).map (·.2.2)).getD 0

/-- The clocks of a line that is filled from HBM4: the FLOOR of its slice, without agents. -/
def State.floorClocks (s : State) (n : Nat) : Vector Clocks 4 :=
  Vector.ofFn fun p => { Clocks.none with wclk := s.floorOf p.val (sliceOf n), rclk := s.floorOf p.val (sliceOf n) }

/-- FLOOR of a line's slice rises to the largest clock of a line that the slice writes back or drops. -/
def State.raiseFloor (s : State) (n : Nat) (clk : Vector Clocks 4) : State :=
  (List.range 4).foldl (fun s p =>
    let k := vget clk p Clocks.none
    let c := max k.wclk k.rclk
    if c ≤ s.floorOf p (sliceOf n) then s
    else { s with floor := (p, sliceOf n, c) :: s.floor.filter fun x => decide (¬ (x.1 = p ∧ x.2.1 = sliceOf n)) }) s

/-- The clocks of one copy join those of another: the larger of each, with its agent; none where two agents have it. -/
def Clocks.join (a b : Clocks) : Clocks :=
  let pick (x : Nat) (g : BitVec 32) (y : Nat) (h : BitVec 32) : BitVec 32 :=
    if y < x then g else if x < y then h else if g = h then g else 0xFFFFFFFF#32
  { wclk := max a.wclk b.wclk, wag := pick a.wclk a.wag b.wclk b.wag,
    rclk := max a.rclk b.rclk, rag := pick a.rclk a.rag b.rclk b.rag }

/-- A merge of privatised copies takes the larger of each clock, without agents (R369, R380). -/
def Clocks.merge (a b : Clocks) : Clocks :=
  { Clocks.none with wclk := max a.wclk b.wclk, rclk := max a.rclk b.rclk }

/-! ### The lines of the L3 slices -/

/-- A line in its slice, under a key. -/
def State.l3Line? (s : State) (line key : Nat) : Option L3Line := s.l3.find? fun x => decide (x.line = line ∧ x.key = key)

/-- A byte of this device's memory under a key, as it is below the L1s (R355, log 8). -/
def State.byteAt (s : State) (key pa : Nat) : Byte :=
  match s.l3Line? (lineOf pa) key with
  | some x => lineByte x.data (pa % 128)
  | none => s.hbmByte key pa

/-- n bytes of this device's memory under a key. -/
def State.bytesAt (s : State) (key pa n : Nat) : List Byte := (List.range n).map fun i => s.byteAt key (pa + i)

/-- A slice fills a line from HBM4 on a miss (R364). -/
def State.l3Fill (s : State) (line key : Nat) : State :=
  match s.l3Line? line key with
  | some _ => s
  | none => { s with l3 := s.l3 ++ [{
      line := line, key := key, data := lineFrom fun i => s.hbmByte key (line * 128 + i), dirty := false,
      poison := (s.line line).poison, psrc := (s.line line).psrc, clk := s.floorClocks line }] }

/-- The state with a slice's line changed. -/
def State.modL3 (s : State) (line key : Nat) (f : L3Line → L3Line) : State :=
  { s with l3 := s.l3.map fun x => if x.line = line ∧ x.key = key then f x else x }

/-- A dirty line of a slice is written back to HBM4 under its key, with its poison (R355, R372). -/
def State.hbmPut (s : State) (x : L3Line) : State :=
  if x.dirty then
    ({ s with mem := writeBytes s.mem (offOf (x.line * 128)) ((List.range 128).map (lineByte x.data)) } : State).modLine x.line fun m =>
      { m with key := x.key, poison := x.poison, psrc := x.psrc }
  else s

/-- A line leaves its slice, which writes it back if it is dirty; FLOOR rises (R377). -/
def State.l3Drop (s : State) (line key : Nat) : State :=
  match s.l3Line? line key with
  | none => s
  | some x =>
    let s := s.raiseFloor line x.clk
    ({ s with l3 := s.l3.filter fun y => decide (¬ (y.line = line ∧ y.key = key)) } : State).hbmPut x

/-- How many writes a line has had under a key (R123, R146). -/
def State.writesOf (s : State) (line key : Nat) : Nat :=
  ((s.writes.find? fun x => decide (x.1 = line ∧ x.2.1 = key)).map (·.2.2)).getD 0

/-- A write takes its place in a line's coherence order (R123). -/
def State.countWrite (s : State) (line key : Nat) : State :=
  { s with writes := (line, key, s.writesOf line key + 1) :: s.writes.filter fun x => decide (¬ (x.1 = line ∧ x.2.1 = key)) }

/-- A write reaches a line's home: the bytes change, the write takes its place in the line's coherence order (R123), and the
pieces that it covers whole lose their poison (R372). -/
def State.writeLine (s : State) (line key : Nat) (put : BitVec 1024 → BitVec 1024) (whole : BitVec 16) : State :=
  ((s.l3Fill line key).modL3 line key fun x =>
    { x with data := put x.data, dirty := true, poison := x.poison &&& ~~~ whole }).countWrite line key

/-- Bytes written at their homes. -/
def State.physWrite (s : State) (key pa : Nat) (bs : List Byte) : State :=
  (linesOf pa bs.length).foldl (fun s l => s.writeLine l key (patchLine l pa bs) (coveredPieces l pa bs.length)) s

/-! ### Poison (R372) -/

/-- The poisoned pieces of a line under a key, and their source. -/
def State.poisonBits (s : State) (line key : Nat) : BitVec 16 :=
  match s.l3Line? line key with | some x => x.poison | none => (s.line line).poison
def State.poisonSrc (s : State) (line key : Nat) : BitVec 2 :=
  match s.l3Line? line key with | some x => x.psrc | none => (s.line line).psrc

/-- Some of n bytes from pa on lie in a poisoned piece. -/
def State.poisoned (s : State) (key pa n : Nat) : Bool :=
  (linesOf pa n).any fun l => decide (s.poisonBits l key &&& touchedPieces l pa n ≠ 0)

/-- The address of the lowest poisoned byte among n bytes from pa on. -/
def State.poisonAt (s : State) (key pa n : Nat) : Nat :=
  ((List.range n).find? fun i => s.poisoned key (pa + i) 1).getD 0 + pa

/-- Poisoning pieces of a line with a source code; those of another device's line are held beside its proxy copies, which no
slice holds (R373, log 8). -/
def State.poison (s : State) (line key : Nat) (pieces : BitVec 16) (src : BitVec 2) : State :=
  if s.local (line * 128) then
    (s.l3Fill line key).modL3 line key fun x => { x with poison := x.poison ||| pieces, psrc := src, dirty := true }
  else s.modLine line fun m => { m with poison := m.poison ||| pieces, psrc := src }

/-- Poisoning pieces of a line in HBM4 and under every key that its slice holds it under. -/
def State.poisonAll (s : State) (line : Nat) (pieces : BitVec 16) (src : BitVec 2) : State :=
  ({ s with l3 := s.l3.map fun x =>
      if x.line = line then { x with poison := x.poison ||| pieces, psrc := src } else x } : State).modLine line fun m =>
    { m with poison := m.poison ||| pieces, psrc := src }

/-! ### Other devices' lines (R373) -/

/-- The proxy copy of another device's line. -/
def State.remoteLine (s : State) (line key : Nat) : RemoteLine :=
  (s.remote.find? fun x => decide (x.line = line ∧ x.key = key)).getD
    { line := line, key := key, data := 0, valid := 0, dirty := 0, clk := s.floorClocks line }

/-- The state with a proxy copy replaced; a copy without valid bytes is not listed. -/
def State.setRemote (s : State) (x : RemoteLine) : State :=
  let rest := s.remote.filter fun y => decide (¬ (y.line = x.line ∧ y.key = x.key))
  if x.valid = 0 then { s.raiseFloor x.line x.clk with remote := rest } else { s with remote := rest ++ [x] }

/-- Bytes of a line written below the L1 under a mask: to this device's memory, where the pieces that one write covered
whole lose their poison (R372), or to the proxy copy of a remote line, where they stay dirty until they are written back
(R113, R373). -/
def State.writeMasked (s : State) (line key : Nat) (data : BitVec 1024) (mask : BitVec 128) (whole : BitVec 16) : State :=
  if mask = 0 then s
  else if s.local (line * 128) then s.writeLine line key (maskLine data mask) whole
  else
    let r := s.remoteLine line key
    let s := if (s.line line).poison = 0 then s else s.modLine line fun m => { m with poison := m.poison &&& ~~~ whole }
    s.setRemote { r with data := maskLine data mask r.data, valid := r.valid ||| mask, dirty := r.dirty ||| mask }

/-- A byte as its home holds it; another device's is the proxy copy's. -/
def State.homeByte (s : State) (key pa : Nat) : Byte :=
  if s.local pa then s.byteAt key pa else lineByte (s.remoteLine (lineOf pa) key).data (pa % 128)

/-- A line as it is below the L1s: this device's memory, or the proxy copy. -/
def State.lineData (s : State) (line key : Nat) : BitVec 1024 :=
  if s.local (line * 128) then lineFrom fun i => s.byteAt key (line * 128 + i) else (s.remoteLine line key).data

/-- The clocks that the copies of a line share, for a partition (R377). -/
def State.homeClocks (s : State) (p line key : Nat) : Clocks :=
  vget (if s.local (line * 128) then match s.l3Line? line key with | some x => x.clk | none => s.floorClocks line
    else (s.remoteLine line key).clk) p Clocks.none

/-- The state with the clocks that the copies of a line share changed. -/
def State.modHomeClocks (s : State) (line key : Nat) (f : Vector Clocks 4 → Vector Clocks 4) : State :=
  if s.local (line * 128) then (s.l3Fill line key).modL3 line key fun x => { x with clk := f x.clk }
  else { s with remote := s.remote.map fun x => if x.line = line ∧ x.key = key then { x with clk := f x.clk } else x }

end Sys2Proof.Machine
end

