-- ==== Sys2Proof/Machine/Coherence.lean ====
section
/-! DEFINITION. The home directories and the lines of the dies' L2s (R358-R371), and how the clusters' L1s give up their dirty
bytes (R359). The functions carry out a home's transactions whole; the events of Homes do so message by message. -/

namespace Sys2Proof.Machine

/-! ### Entries and L2 lines -/

/-- An entry that tracks nothing: a line that is absent from the entry cache is in I (R361). -/
def DirEntry.absent (line key : Nat) : DirEntry :=
  { line := line, key := key, st := .i, sharers := 0, owner := 0, priv := false, remote := false, used := 0, moves := [],
    acks := 0, req := none, held := [], masks := [], bad := false }

/-- A home's entry for a line. -/
def State.entry (s : State) (line key : Nat) : DirEntry :=
  (s.dir.find? fun e => decide (e.line = line ∧ e.key = key)).getD (DirEntry.absent line key)

/-- A home tracks a line. -/
def State.tracked (s : State) (line key : Nat) : Bool := s.dir.any fun e => decide (e.line = line ∧ e.key = key)

/-- The state with a home's entry replaced; the entry's last use is now. -/
def State.setEntry (s : State) (e : DirEntry) : State :=
  let e := { e with used := s.tick }
  if s.tracked e.line e.key then
    { s with dir := s.dir.map fun x => if x.line = e.line ∧ x.key = e.key then e else x }
  else { s with dir := s.dir ++ [e] }

/-- An entry is freed. -/
def State.freeEntry (s : State) (line key : Nat) : State :=
  { s with dir := s.dir.filter fun e => decide (¬ (e.line = line ∧ e.key = key)) }

/-- A line in a die's L2. -/
def State.l2line (s : State) (d line key : Nat) : L2Line :=
  (s.l2.find? fun x => decide (x.die = d ∧ x.line = line ∧ x.key = key)).getD
    { die := d, line := line, key := key, st := .i, own := 0, foreign := 0, clk := Vector.replicate 4 Clocks.none }

/-- A line's state in a die's L2. -/
def State.l2st (s : State) (d line key : Nat) : L2State := (s.l2line d line key).st

/-- The state with a line of a die's L2 replaced, which is its most recent use; a line in I is not listed. -/
def State.setL2 (s : State) (x : L2Line) : State :=
  let rest := s.l2.filter fun y => decide (¬ (y.die = x.die ∧ y.line = x.line ∧ y.key = x.key))
  { s with l2 := if x.st = .i then rest else rest ++ [x] }

/-- The state with a line of a die's L2 in another state, its masks clear. -/
def State.setL2st (s : State) (d line key : Nat) (st : L2State) : State :=
  s.setL2 { die := d, line := line, key := key, st := st, own := 0, foreign := 0, clk := Vector.replicate 4 Clocks.none }

/-- A line of a die's L2 is used: it is the most recently used one. -/
def State.useL2 (s : State) (d line key : Nat) : State :=
  match s.l2.find? fun x => decide (x.die = d ∧ x.line = line ∧ x.key = key) with
  | some x => s.setL2 x
  | none => s

/-- The dies whose L2 holds a line. -/
def State.holdersOf (s : State) (line key : Nat) : List Nat := (List.range 4).filter fun d => decide (s.l2st d line key ≠ .i)

/-- A state in which an L2 owns a line. -/
def L2State.owns : L2State → Bool
  | .e => true
  | .m => true
  | .o => true
  | _ => false

/-- The die whose L2 owns a line: in E, M or O. -/
def State.ownerOf (s : State) (line key : Nat) : Option Nat := (List.range 4).find? fun d => (s.l2st d line key).owns

/-- A set of dies as bits. -/
def dieBits (ds : List Nat) : BitVec 4 := ds.foldl (fun m d => m ||| BitVec.twoPow 4 d) 0

/-- The die of an agent identifier: its number in bits 1:0, its incarnation from bit 2 on (R370). -/
def agentDie (a : Nat) : Nat := a % 4

/-- The agent identifier of a working die, of the incarnation that the homes record (R370). -/
def State.dieUp (s : State) (a : Nat) : Bool :=
  decide (a / 4 = (vget s.dieInc (agentDie a) 0).toNat) && !s.dieFailed.getLsbD (agentDie a)

/-- A die that serves a partition whose accesses are recorded (R380, R388). -/
def State.recordingDie (s : State) (d : Nat) : Bool :=
  (List.range 4).any fun p => decide (p < partsOf s.code ∧ d ∈ diesOf s.code p) && (s.part p).rrEn

/-! ### The clusters' L1s give up bytes -/

/-- The state with a line of a cluster's L1 changed by f where it is present. -/
def State.modL1 (s : State) (cl line key : Nat) (f : L1Line → Option L1Line) : State :=
  { s with l1 := s.l1.filterMap fun x =>
      if x.cluster = cl ∧ x.line = line ∧ x.key = key then f x else some x }

/-- Dirty bytes of a cluster's line that a mask allows go to the die's L2; they stay valid and are clean (R113). -/
def State.collectL1 (s : State) (cl line key : Nat) (allow : BitVec 128) : State :=
  match s.l1.find? fun x => decide (x.cluster = cl ∧ x.line = line ∧ x.key = key) with
  | none => s
  | some x =>
    let m := x.dirty &&& allow
    if m = 0 then s
    else (s.writeMasked line key x.data m (x.whole &&& wholePieces m)).modL1 cl line key fun y =>
      some { y with dirty := y.dirty &&& ~~~ m, whole := y.whole &&& ~~~ somePieces m }

/-- The bytes of a line that a die's L2 may merge (R359): all in E or M, its own mask's in P. -/
def L2Line.mayMerge (x : L2Line) : BitVec 128 :=
  match x.st with
  | .e => BitVec.allOnes 128
  | .m => BitVec.allOnes 128
  | .p => x.own
  | _ => 0

/-- The bytes of a line that a die's pending writes cover: what its L1s hold dirty (R366). -/
def State.pendingMask (s : State) (d line key : Nat) : BitVec 128 :=
  (s.l1.filter fun x => decide (x.cluster / 8 = d ∧ x.line = line ∧ x.key = key)).foldl (fun m x => m ||| x.dirty) 0

/-- A die's L1s give up the dirty bytes of a line that its L2 may merge; an E line that takes some is in M (R358, R359). -/
def State.collectDie (s : State) (d line key : Nat) : State :=
  let x := s.l2line d line key
  let some_ := decide (s.pendingMask d line key &&& x.mayMerge ≠ 0)
  let s := (List.range 8).foldl (fun s c => s.collectL1 (8 * d + c) line key x.mayMerge) s
  if some_ && decide (x.st = .e) then s.setL2 { x with st := .m } else s

/-- In record mode a die's L1s drop a line that its L2 gives up or downgrades, but for dirty bytes (R380). -/
def State.dropForRecord (s : State) (d line key : Nat) : State :=
  if s.recordingDie d then
    { s with l1 := s.l1.filterMap fun x =>
        if x.cluster / 8 = d ∧ x.line = line ∧ x.key = key then
          (if x.dirty = 0 then none else some { x with valid := x.dirty })
        else some x }
  else s

/-- A die gives its copy up: its L1s' dirty bytes go with it (R359), and the clocks of a privatised copy join the line's
(R369, R380). -/
def State.giveUp (s : State) (line key d : Nat) : State :=
  let s := s.collectDie d line key
  let x := s.l2line d line key
  let s := if x.st = .p then s.modHomeClocks line key fun v =>
      Vector.ofFn fun p => (vget v p.val Clocks.none).merge (vget x.clk p.val Clocks.none) else s
  (s.setL2st d line key .i).dropForRecord d line key

/-- A die's copy goes to a lesser state (R359, R380). -/
def State.downgrade (s : State) (line key d : Nat) (st : L2State) : State :=
  (s.setL2st d line key st).dropForRecord d line key

/-! ### What a home does before it serves a line -/

/-- The STATE that a home gives a line's entry when no transaction is in progress: what the L2s hold (R360, R364). -/
def State.restState (s : State) (line key : Nat) : DirState :=
  match (s.ownerOf line key).map fun d => s.l2st d line key with
  | some .e => .e
  | some .m => .m
  | some .o => .o
  | _ => if (s.holdersOf line key).isEmpty then .i
      else if (s.holdersOf line key).any fun d => decide (s.l2st d line key = .p) then .p else .s

/-- An entry at rest; the entry of a line that no L2 holds is free (R361). -/
def State.restEntry (s : State) (line key : Nat) : State :=
  let st := s.restState line key
  if st = .i then s.freeEntry line key
  else
    let e := s.entry line key
    s.setEntry { e with
      st := st, acks := 0, req := none, held := [], masks := [], priv := decide (st = .p),
      sharers := dieBits (s.holdersOf line key), owner := BitVec.ofNat 2 ((s.ownerOf line key).getD e.owner.toNat) }

/-- Masks that are pairwise disjoint. -/
def disjoint : List (Nat × BitVec 128) → Bool
  | [] => true
  | x :: t => t.all (fun y => decide (x.2 &&& y.2 = 0)) && disjoint t

/-- Every copy of a line is given up (R361, R365, R368). -/
def State.recallCopies (s : State) (line key : Nat) : State :=
  (s.holdersOf line key).foldl (fun s d => s.giveUp line key d) s

/-- The entry of a line that no L2 holds any more, which stays in the cache (R365). -/
def State.idleEntry (s : State) (line key : Nat) : State :=
  let e := s.entry line key
  if e.st = .i ∧ e.masks = [] then s
  else s.setEntry { e with st := .i, sharers := 0, priv := false, acks := 0, req := none, held := [], masks := [] }

/-- An entry that names a failed die is settled when it is touched (R370): an owner's line is poisoned, a privatised one is
merged from the other dies and its own bytes are poisoned, a sharer is cleared, as if it had answered; the request of a die that
has failed is dropped. -/
def State.settle (s : State) (line key : Nat) : State :=
  let e := s.entry line key
  let dead := (s.holdersOf line key).filter fun d => s.dieFailed.getLsbD d
  if e.sharers &&& s.dieFailed = 0 ∧ dead = [] ∧ e.req.all (fun r => s.dieUp r.1) then s
  else
    let lost := dead.foldl (fun m d => m ||| (s.l2line d line key).own) (0 : BitVec 128)
    let owned := dead.any fun d => (s.l2st d line key).owns
    let priv := dead.any fun d => decide (s.l2st d line key = .p)
    let s := dead.foldl (fun s d => s.setL2st d line key .i) s
    let s := if owned then (List.range 4).foldl (fun s d => s.setL2st d line key .i) s
      else if priv then s.recallCopies line key else s
    let s := if owned then s.poison line key (BitVec.allOnes 16) 1 else if priv then s.poison line key (somePieces lost) 1 else s
    let gone := e.sharers &&& s.dieFailed
    let late (d : Nat) : Bool := gone.getLsbD d && (match e.req with
      | some (r, true) => decide (agentDie r ≠ d)
      | some (_, false) => decide (e.owner.toNat = d)
      | none => false)
    match e.req with
    | some r =>
      if s.dieUp r.1 then
        s.setEntry { e with sharers := e.sharers &&& ~~~ gone, acks := e.acks - ((List.range 4).filter late).length,
                            held := e.held.filter fun x => s.dieUp x.1,
                            masks := e.masks.filter fun x => !s.dieFailed.getLsbD x.1 }
      else s.setEntry { e with st := s.restState line key, req := none, acks := 0, sharers := dieBits (s.holdersOf line key),
                               held := e.held.filter fun x => s.dieUp x.1, masks := [],
                               priv := decide (s.restState line key = .p) }
    | none =>
      if s.restState line key = .i then s.idleEntry line key
      else s.setEntry { e with st := s.restState line key, sharers := dieBits (s.holdersOf line key),
                               priv := decide (s.restState line key = .p) }

/-- A directory entry that cannot be read (R371): every die is recalled; one dirty copy is kept, disjoint privatised ones are
merged, any other two dirty copies poison the line with source 2; the entry is rewritten as I. The requests that it held
are still to be served. -/
def State.directoryError (s : State) (line key : Nat) : State :=
  let s := s.settle line key
  let e := s.entry line key
  let dirty := (List.range 4).filter fun d => match s.l2st d line key with
    | .m => true
    | .o => true
    | .p => true
    | .e => decide (s.pendingMask d line key ≠ 0)
    | _ => false
  let privs := dirty.filter fun d => decide (s.l2st d line key = .p)
  let ok := decide (dirty.length ≤ 1)
    || (decide (privs = dirty) && disjoint (privs.map fun d => (d, (s.l2line d line key).own)))
  let s := s.recallCopies line key
  let s := if ok then s else s.poison line key (BitVec.allOnes 16) 2
  s.setEntry { DirEntry.absent line key with req := e.req, held := e.held, remote := e.remote, owner := e.owner }

/-- A home reads its entry, which may have an uncorrectable error (R371). -/
def State.readEntry (s : State) (line key : Nat) : State :=
  if (s.entry line key).bad then s.directoryError line key else s

/-! ### The table of R364 -/

/-- Privatisation records in use in a slice (R366). -/
def State.privUsed (s : State) (sl : Nat) : Nat := (s.dir.filter fun e => e.priv && decide (sliceOf e.line = sl)).length

/-- The transfers of write permission within 4,096 fabric cycles, which are 2,048 of device time (R366). -/
def recentMoves (moves : List (Nat × Nat)) (time : Nat) : List (Nat × Nat) := moves.filter fun x => decide (time ≤ x.1 + 2048)

/-- A contended line (R366): the fourth transfer of its write permission within that time. -/
def contended (moves : List (Nat × Nat)) (time : Nat) : Bool := decide (4 ≤ (recentMoves moves time).length)

/-- The masks under which dies would hold a contended line: what their pending writes cover (R366). -/
def State.askedMasks (s : State) (line key d : Nat) (mask : BitVec 128) (moves : List (Nat × Nat)) : List (Nat × BitVec 128) :=
  (((moves.map (·.2)) ++ [d]).eraseDups.filter fun k => !s.dieFailed.getLsbD k).map fun k =>
    (k, s.pendingMask k line key ||| if k = d then mask else 0)

/-- The copies and the record of a privatised line (R366). -/
def State.privatise (s : State) (line key : Nat) (ms : List (Nat × BitVec 128)) : State :=
  let clk : Vector Clocks 4 := Vector.ofFn fun p => s.homeClocks p.val line key
  let s := ms.foldl (fun s x => s.setL2 {
    die := x.1, line := line, key := key, st := .p, own := x.2,
    foreign := (ms.filter fun y => decide (y.1 ≠ x.1)).foldl (fun m y => m ||| y.2) (0 : BitVec 128), clk := clk }) s
  s.setEntry { s.entry line key with
    st := .p, priv := true, sharers := dieBits (ms.map (·.1)), acks := 0, req := none, held := [], masks := [], moves := [],
    remote := !s.local (line * 128) }

/-- A slice has the data of a line that a request needs (R364); another device's line has none here (R373). -/
def State.homeData (s : State) (line key : Nat) : State := if s.local (line * 128) then s.l3Fill line key else s

/-- The home serves GetS (R364, R368). -/
def State.grantS (s : State) (line key d : Nat) : State :=
  let s := if (s.entry line key).st = .p then (s.recallCopies line key).idleEntry line key else s
  let e := s.entry line key
  let bit : BitVec 4 := BitVec.twoPow 4 d
  match s.ownerOf line key with
  | some o =>
    if o = d then s
    else
      let s := s.collectDie o line key
      match s.l2st o line key with
      | .e => ((s.downgrade line key o .s).setL2st d line key .s).setEntry
          { e with st := .s, sharers := BitVec.twoPow 4 o ||| bit }
      | .m => ((s.downgrade line key o .o).setL2st d line key .s).setEntry
          { e with st := .o, owner := BitVec.ofNat 2 o, sharers := e.sharers ||| bit }
      | _ => (s.setL2st d line key .s).setEntry { e with st := .o, owner := BitVec.ofNat 2 o, sharers := e.sharers ||| bit }
  | none =>
    let s := s.homeData line key
    if e.st = .i then
      (s.setL2st d line key .e).setEntry
        { e with st := .e, sharers := bit, owner := BitVec.ofNat 2 d, priv := false, remote := !s.local (line * 128) }
    else (s.setL2st d line key .s).setEntry { e with st := .s, sharers := e.sharers ||| bit }

/-- The home serves GetM, for the bytes of a mask (R364, R368): nobody else holds the line then, unless it is contended and
becomes privatised (R366). -/
def State.grantM (s : State) (line key d : Nat) (mask : BitVec 128) : State :=
  let e := s.entry line key
  let from_ := (s.ownerOf line key).filter fun o => decide (o ≠ d)
  let moves := match from_ with | some _ => recentMoves e.moves s.time ++ [(s.time, d)] | none => e.moves
  let s := ((s.holdersOf line key).filter fun k => decide (k ≠ d) || decide (e.st = .p)).foldl (fun s k => s.giveUp line key k) s
  let s := s.homeData line key
  let alone := (s.setL2st d line key .m).setEntry
    { e with st := .m, sharers := BitVec.twoPow 4 d, owner := BitVec.ofNat 2 d, priv := false, acks := 0, req := none, held := [],
             masks := [], moves := moves, remote := !s.local (line * 128) }
  if from_.isSome && contended moves s.time && decide (s.privUsed (sliceOf line) < 64) then
    let ms := (s.recallCopies line key).askedMasks line key d mask moves
    if disjoint ms then ((s.recallCopies line key).setEntry { e with moves := moves }).privatise line key ms else alone
  else alone

/-- A request of a die, as its home serves it; one of an earlier incarnation is discarded (R370). -/
def State.grant (s : State) (line key : Nat) (r : Nat × Bool) : State :=
  if !s.dieUp r.1 then s
  else
    let d := agentDie r.1
    if r.2 then (if s.l2st d line key = .m then s else s.grantM line key d (s.pendingMask d line key))
    else if s.l2st d line key = .i then s.grantS line key d else s

/-- The transaction in progress on a line and the requests behind it are carried to their ends, in the order of their arrival
(R362). -/
def State.finishHeld (s : State) (line key : Nat) : State :=
  let e := s.entry line key
  match e.req.toList ++ e.held with
  | [] => s
  | rs => rs.foldl (fun s r => s.grant line key r) (s.restEntry line key)

/-- A home touches a line's entry for an access: the entry is read, settled, and free of transactions (R362, R370, R371). -/
def State.touch (s : State) (line key : Nat) : State := ((s.readEntry line key).settle line key).finishHeld line key

/-- Every die's dirty bytes of a line go to the home and every L2 copy is dropped (R361, R365, R368). -/
def State.recallLine (s : State) (line key : Nat) : State :=
  ((s.touch line key).recallCopies line key).idleEntry line key

/-- An entry is allocated: a full set first gives up its least recently used entry that has no transaction in progress; where
all sixteen have one, the request waits for the end of the oldest (R361). -/
def State.allocEntry (s : State) (line key : Nat) : State :=
  if s.tracked line key then s
  else
    let set := s.dir.filter fun e => decide (sliceOf e.line = sliceOf line ∧ e.line % 1024 = line % 1024)
    if set.length < 16 then s
    else
      let oldest (l : List DirEntry) : Option DirEntry := l.foldl (fun (b : Option DirEntry) e =>
        match b with
        | none => some e
        | some x => if e.used < x.used then some e else some x) none
      match oldest (set.filter fun e => decide (e.st ≠ .busy)), oldest set with
      | some v, _ => (s.recallLine v.line v.key).freeEntry v.line v.key
      | none, some v => (s.recallLine v.line v.key).freeEntry v.line v.key
      | none, none => s

/-- A die obtains the bytes of a mask for reading (R364 GetS, R367). -/
def State.getShared (s : State) (line key d : Nat) (mask : BitVec 128) : State :=
  let x := s.l2line d line key
  match x.st with
  | .i =>
    let s := (s.touch line key).allocEntry line key
    s.grantS line key d
  | .p =>
    if mask &&& x.foreign = 0 then s.useL2 d line key
    else (s.touch line key).grantS line key d
  | _ => s.useL2 d line key

/-- A privatised line's bytes that other dies own. -/
def State.takenMask (s : State) (d line key : Nat) : BitVec 128 :=
  (List.range 4).foldl (fun m k => if k = d then m else m ||| (s.l2line k line key).own) 0

/-- MaskReq of a P holder for the bytes of a write (R367): granted, after MaskUpd to every other holder, or the line is
merged. -/
def State.maskRequest (s : State) (line key d : Nat) (mask : BitVec 128) : State :=
  let s := s.touch line key
  let x := s.l2line d line key
  if x.st = .p ∧ mask &&& s.takenMask d line key = 0 then
    let s := ((s.holdersOf line key).filter fun k => decide (k ≠ d)).foldl (fun s k =>
      s.setL2 { s.l2line k line key with foreign := (s.l2line k line key).foreign ||| mask }) s
    s.setL2 { x with own := x.own ||| mask }
  else s.grantM line key d mask

/-- A die obtains permission to write a line (R364 GetM), for the bytes of a mask while it is privatised (R367). An E copy moves
to M without a message (R358). -/
def State.getModified (s : State) (line key d : Nat) (mask : BitVec 128) : State :=
  let x := s.l2line d line key
  match x.st with
  | .m => s.useL2 d line key
  | .e => s.setL2 { x with st := .m }
  | .p => if mask &&& ~~~ x.own = 0 then s.useL2 d line key else s.maskRequest line key d mask
  | _ => ((s.touch line key).allocEntry line key).grantM line key d mask

/-- A commit locks a line: its dirty bytes are recalled and its entry is busy (R149, R365). -/
def State.lockLine (s : State) (line key : Nat) : State :=
  let s := (s.recallLine line key).allocEntry line key
  s.setEntry { s.entry line key with st := .busy }

/-- The lock is released. -/
def State.unlockLine (s : State) (line key : Nat) : State := s.idleEntry line key

/-! ### The clusters' L1s (R112, R113, R124) -/

/-- A line of a cluster's L1. -/
def State.l1Line? (s : State) (cl line key : Nat) : Option L1Line :=
  s.l1.find? fun x => decide (x.cluster = cl ∧ x.line = line ∧ x.key = key)

/-- The bytes of an L1 line that a load may take from it: its dirty bytes, and the 8-byte pieces that are valid whole, so that
no load joins two versions of a piece (R122, R123). -/
def L1Line.readable (x : L1Line) : BitVec 128 := x.dirty ||| pieceBytes (wholePieces x.valid)

/-- The bytes of a line that are in a cluster's L1 for a load. -/
def State.l1Readable (s : State) (cl line key : Nat) : BitVec 128 :=
  match s.l1Line? cl line key with | some x => x.readable | none => 0

/-- The bytes of a line that a die's L2 can hand to an L1: those of a remote line that are valid, those of a privatised line that
no other die owns (R113, R367, R373). -/
def State.fillable (s : State) (d line key : Nat) : BitVec 128 :=
  (if s.local (line * 128) then BitVec.allOnes 128 else (s.remoteLine line key).valid) &&& ~~~ (s.l2line d line key).foreign

/-- A cluster's L1 gets what it lacks of a line, for a load of the bytes of a mask (R112). -/
def State.fillL1 (s : State) (cl line key : Nat) (mask : BitVec 128) : State :=
  if mask &&& ~~~ s.l1Readable cl line key = 0 then s
  else
    let s := s.getShared line key (cl / 8) mask
    let below := s.lineData line key
    let new := s.fillable (cl / 8) line key
    match s.l1Line? cl line key with
    | some _ => s.modL1 cl line key fun x => some { x with
        data := maskLine below (new &&& ~~~ x.readable) x.data, valid := x.readable ||| new }
    | none => { s with l1 := s.l1 ++ [{ cluster := cl, line := line, key := key, data := below, valid := new, dirty := 0,
                                        whole := 0 }] }

/-- An access of a cluster to n bytes reaches their home, unless its L1 or its die's L2 has them; an atomic always does (R370). -/
def State.reach (s : State) (cl key pa n : Nat) (atomic : Bool) : State :=
  if !s.local pa || (!atomic && (decide (byteMask pa n &&& ~~~ s.l1Readable cl (lineOf pa) key = 0)
      || decide (s.l2st (cl / 8) (lineOf pa) key ≠ .i))) then s
  else s.touch (lineOf pa) key

/-- A byte that a plain load of a cluster returns: the L1's where it may be read, else the one below (R124). -/
def State.plainByte (s : State) (cl key pa : Nat) : Byte :=
  match s.l1Line? cl (lineOf pa) key with
  | some x => if x.readable.getLsbD (pa % 128) then lineByte x.data (pa % 128) else s.homeByte key pa
  | none => s.homeByte key pa

/-- The bytes that a plain load of a cluster returns. -/
def State.plainBytes (s : State) (cl key pa n : Nat) : List Byte :=
  (List.range n).map fun i => s.plainByte cl key (pa + i)

/-- The state after a plain load of n bytes: they stand in the cluster's L1. -/
def State.afterLoad (s : State) (cl key pa n : Nat) : State := s.fillL1 cl (lineOf pa) key (byteMask pa n)

/-- A plain store of bytes within one line: they become valid and dirty in the cluster's L1 (R113). -/
def State.l1Store (s : State) (cl key pa : Nat) (bs : List Byte) : State :=
  let line := lineOf pa
  let m := byteMask pa bs.length
  match s.l1Line? cl line key with
  | some _ => s.modL1 cl line key fun x =>
      some { x with data := patchLine line pa bs x.data, valid := x.readable ||| m, dirty := x.dirty ||| m,
                    whole := x.whole ||| wholePieces m }
  | none => { s with l1 := s.l1 ++ [{ cluster := cl, line := line, key := key, data := patchLine line pa bs 0, valid := m,
                                      dirty := m, whole := wholePieces m }] }

/-- A cluster's dirty bytes of a line are written to the die's L2, which first obtains the line (R113, R359). -/
def State.writeBack (s : State) (cl line key : Nat) : State :=
  match s.l1Line? cl line key with
  | none => s
  | some x =>
    if x.dirty = 0 then s
    else
      let s := s.getModified line key (cl / 8) x.dirty
      s.collectL1 cl line key (s.l2line (cl / 8) line key).mayMerge

/-- Every dirty line of a cluster is written back: a release at device scope (R113). -/
def State.releaseCluster (s : State) (cl : Nat) : State :=
  (s.l1.filter fun x => decide (x.cluster = cl)).foldl (fun s x => s.writeBack cl x.line x.key) s

/-- The clean bytes of a cluster's L1 are invalidated: an acquire at device scope (R113). -/
def State.acquireCluster (s : State) (cl : Nat) : State :=
  { s with l1 := s.l1.filterMap fun x =>
      if x.cluster ≠ cl then some x else if x.dirty = 0 then none else some { x with valid := x.dirty } }

/-- Remote-clean bytes are dropped from every L2: an acquire at system scope (R113, R374). A remote line without bytes that are
still to be written back leaves the L2s, its proxy home tracks it no more, and a read of it under way fills no copy (R132). -/
def State.acquireRemote (s : State) : State :=
  let gone := s.remote.filter fun x => decide (x.dirty = 0)
  let out (line key : Nat) : Bool := gone.any fun x => decide (x.line = line ∧ x.key = key)
  let s := gone.foldl (fun s x => s.raiseFloor x.line x.clk) s
  { s with
    requests := s.requests.map fun r => if r.msg.kind = 1 then { r with stale := true } else r
    remote := s.remote.filterMap fun x => if x.dirty = 0 then none else some { x with valid := x.dirty }
    l2 := s.l2.filter fun x => !out x.line x.key
    dir := s.dir.filter fun e => !out e.line e.key }

/-- The clean L1 bytes among n from pa on are dropped in some clusters: what a write at the home leaves
(R123, R130). -/
def State.dropL1 (s : State) (mine : Nat → Bool) (key pa n : Nat) : State :=
  { s with l1 := s.l1.filterMap fun x =>
      if mine x.cluster && decide (x.line = lineOf pa ∧ x.key = key) then
        (let v := x.valid &&& (~~~ byteMask pa n ||| x.dirty)
         if v = 0 then none else some { x with valid := v })
      else some x }

/-! ### Room in the caches (R9, R12, R373) -/

/-- The working slice that serves a position of a cluster: its own, else that of the next working position (R112). -/
def State.slicePos (s : State) (cluster pos : Nat) : Nat :=
  (((List.range 8).map fun i => (pos + i) % 8).find? fun k => !decide ((cluster, k) ∈ s.mgmt.l1Out)).getD pos

/-- The lines that a slice position of a cluster holds. -/
def State.sliceLines (s : State) (cluster pos : Nat) : List L1Line :=
  s.l1.filter fun x => decide (x.cluster = cluster) && decide (s.slicePos cluster (x.line % 8) = pos)

/-- Lines of an L1 slice of 256 KiB, of an L2 of 64 MiB, of remote lines in an L2, of an L3 slice of 16 MiB. -/
def l1Room : Nat := 2048
def l2Room : Nat := 524288
def remoteRoom : Nat := 32768
def l3Room : Nat := 131072

/-- A line of an L1 slice that holds more than it has room for; which line gives way is open (log 8). -/
def State.l1Victim (s : State) : Option L1Line :=
  if s.l1.length ≤ l1Room then none
  else (List.range 256).findSome? fun k =>
    let xs := s.sliceLines (k / 8) (k % 8)
    if xs.length ≤ l1Room then none else xs[s.freeVal.toNat % xs.length]?

/-- A line of an L2 that holds more than it has room for: a remote line the least recently used, any other an open one. -/
def State.l2Victim (s : State) : Option L2Line :=
  if s.l2.length ≤ remoteRoom then none
  else (List.range 4).findSome? fun d =>
    let xs := s.l2.filter fun x => decide (x.die = d)
    let far := xs.filter fun x => !s.local (x.line * 128)
    if remoteRoom < far.length then far.head?
    else if xs.length ≤ l2Room then none else xs[s.freeVal.toNat % xs.length]?

/-- The slice that caches a line: its own, or the partner of one that has failed, which shares its room between both (R415). -/
def State.servingSlice (s : State) (line : Nat) : Nat :=
  if sliceOf line ∈ s.mgmt.slicesOut then sliceOf line ^^^ 1 else sliceOf line

/-- A line of an L3 slice that holds more than it has room for: an open one among those that no L2 holds (log 8). -/
def State.l3Victim (s : State) : Option L3Line :=
  if s.l3.length ≤ l3Room then none
  else (List.range 256).findSome? fun sl =>
    let xs := s.l3.filter fun x => decide (s.servingSlice x.line = sl)
    if xs.length ≤ l3Room then none
    else
      let free := xs.filter fun x => (s.holdersOf x.line x.key).isEmpty && !s.tracked x.line x.key
      free[s.freeVal.toNat % free.length]?

/-- A line leaves its L1 slice. -/
def State.evictL1 (s : State) (x : L1Line) : State :=
  (s.writeBack x.cluster x.line x.key).modL1 x.cluster x.line x.key fun y => if y.dirty = 0 then none else some y

/-- A line leaves an L2 (R358): an S copy silently, any other with its bytes to the home. -/
def State.evictL2 (s : State) (x : L2Line) : State :=
  let s := s.touch x.line x.key
  match s.l2st x.die x.line x.key with
  | .i => s
  | .s => (s.setL2st x.die x.line x.key .i).dropForRecord x.die x.line x.key
  | _ => (s.giveUp x.line x.key x.die).restEntry x.line x.key

end Sys2Proof.Machine
end

