-- ==== Sys2Proof/Machine/Translation.lean ====
section
/-! DEFINITION. Address translation (R342-R351): tables and walks, the translation caches, permissions, fault records; and memory
as units without a core use it, through a partition's translation. -/

namespace Sys2Proof.Machine

/-- What makes an access that is translated (R348): a thread of a core's quadrant, an engine job of a core, or a unit that keeps
no translations. -/
inductive TUnit where
  | thread (core quad : Nat)
  | job (core : Nat)
  | device
  deriving DecidableEq, Repr

/-- The core of a unit. -/
def TUnit.core? : TUnit → Option Nat
  | .thread c _ => some c
  | .job c => some c
  | .device => none

/-- The quadrant of a unit. -/
def TUnit.quad? : TUnit → Option Nat
  | .thread _ q => some q
  | _ => none

/-- What a walk returns (R344). -/
inductive WalkRes where
  | ok (pa key level : Nat) (r w x : Bool)
  | fault (level entryPa : Nat) (entry : Dword)
  | noMapping
  | malformed (level entryPa : Nat) (entry : Dword)
  deriving DecidableEq, Repr

/-- A bit of a table entry. -/
def ebit (e : Dword) (i : Nat) : Bool := e.getLsbD i

/-- A malformed valid entry at a level (R343). -/
def malformedEntry (e : Dword) (lvl : Nat) : Bool :=
  decide (e.extractLsb' 52 4 ≠ 0) || decide (e.extractLsb' 6 10 ≠ 0) || ebit e 5
    || (if ebit e 1 then
          decide (lvl = 3) || (decide (lvl = 1) && decide (e.extractLsb' 16 14 ≠ 0))
            || (decide (lvl = 2) && decide (e.extractLsb' 16 28 ≠ 0))
        else
          decide (lvl = 0) || ebit e 16 || ebit e 2 || ebit e 3 || ebit e 4 || decide (e.extractLsb' 56 8 ≠ 0))

/-- The physical address of a table's entry for a virtual address. -/
def entryAt (va lvl t : Nat) : Nat := t + 8 * (va / 2 ^ (14 * lvl + 16) % 2 ^ 14)

/-- A table entry, read at its home (R344). -/
def State.tableEntry (s : State) (epa : Nat) : Dword := BitVec.ofNat 64 (ofBytes (s.bytesAt 0 epa 8))

/-- The walk from the table at t, at level lvl (R344). -/
def State.walkFrom (s : State) (va : Nat) : Nat → Nat → WalkRes
  | lvl, t =>
    let epa := entryAt va lvl t
    let e := s.tableEntry epa
    if !ebit e 0 then (if ebit e 5 then .noMapping else .fault lvl epa e)
    else if malformedEntry e lvl then .malformed lvl epa e
    else if ebit e 1 then
      let sh := 16 + 14 * lvl
      .ok ((e.extractLsb' 16 36).toNat * 2 ^ 16 / 2 ^ sh * 2 ^ sh + va % 2 ^ sh) (e.extractLsb' 56 8).toNat lvl
        (ebit e 2) (ebit e 3) (ebit e 4)
    else match lvl with
      | 0 => .malformed 0 epa e
      | n + 1 => s.walkFrom va n ((e.extractLsb' 16 36).toNat * 2 ^ 16)

/-- The walk of a virtual address of a partition from its TROOT (R344). -/
def State.walk (s : State) (p va : Nat) : WalkRes := s.walkFrom va 3 (s.part p).troot.toNat

/-- The bytes that an entry of a level maps (R342). -/
def pageBits (level : Nat) : Nat := 16 + 14 * level

/-- A table that serves a virtual address, as a die's cache of non-leaf entries has it (R348). -/
def TableEntry.serves (x : TableEntry) (d p va : Nat) : Bool :=
  decide (x.die = d ∧ x.part = p ∧ x.va / 2 ^ pageBits (x.level + 1) = va / 2 ^ pageBits (x.level + 1))

/-- The walk that a unit's die makes: from the lowest table that its cache of non-leaf entries gives, else from TROOT (R348). -/
def State.walkBy (s : State) (w : TUnit) (p va : Nat) : WalkRes :=
  match w.core? with
  | none => s.walk p va
  | some c =>
    match (List.range 3).findSome? fun l => s.tables.find? fun x => x.serves (dieOf c) p va && decide (x.level = l) with
    | some x => s.walkFrom va x.level x.table
    | none => s.walk p va

/-- The tables below the first that a walk from level lvl reads (R344). -/
def State.walkTables (s : State) (va : Nat) : Nat → Nat → List (Nat × Nat)
  | lvl, t =>
    let e := s.tableEntry (entryAt va lvl t)
    if !ebit e 0 || malformedEntry e lvl || ebit e 1 then []
    else match lvl with
      | 0 => []
      | n + 1 => (n, (e.extractLsb' 16 36).toNat * 2 ^ 16) :: s.walkTables va n ((e.extractLsb' 16 36).toNat * 2 ^ 16)

/-- A TLB's translation of an address: a quadrant's, or its core's second level where there is no quadrant (R348). -/
def State.tlbFind (s : State) (core : Nat) (quad : Option Nat) (p va : Nat) : Option TlbEntry :=
  s.tlb.find? fun t =>
    decide (t.core = core ∧ t.quad = quad ∧ t.part = p ∧ t.va / 2 ^ pageBits t.level = va / 2 ^ pageBits t.level)

/-- A unit's cached translation of an address: its quadrant's, else its core's (R348). -/
def State.tlbHit (s : State) (w : TUnit) (p va : Nat) : Option TlbEntry :=
  match w.core? with
  | none => none
  | some c => (match w.quad? with | some q => s.tlbFind c (some q) p va | none => none).orElse fun _ => s.tlbFind c none p va

/-- What a cached translation gives for an address. -/
def TlbEntry.result (t : TlbEntry) (va : Nat) : WalkRes :=
  .ok (t.pa / 2 ^ pageBits t.level * 2 ^ pageBits t.level + va % 2 ^ pageBits t.level) t.key t.level t.r t.w t.x

/-- The translation that an access of a unit uses: a cached one, else a walk (R348). -/
def State.translate (s : State) (w : TUnit) (p va : Nat) : WalkRes :=
  match s.tlbHit w p va with
  | some t => t.result va
  | none => s.walkBy w p va

/-- The entries of a quadrant's TLB, and of a core's second level (R348). -/
def tlbRoom (quad : Option Nat) : Nat := if quad.isSome then 64 else 2048

/-- A TLB takes a translation; which entry of a full one gives way is open (log 8). -/
def State.tlbInsert (s : State) (t : TlbEntry) : State :=
  if (s.tlbFind t.core t.quad t.part t.va).isSome then s
  else
    let mine (x : TlbEntry) : Bool := decide (x.core = t.core ∧ x.quad = t.quad)
    let own := s.tlb.filter mine
    if own.length < tlbRoom t.quad then { s with tlb := s.tlb ++ [t] }
    else { s.takeFree with tlb := (s.tlb.filter fun x => !mine x) ++ own.eraseIdx (s.freeVal.toNat % own.length) ++ [t] }

/-- A die keeps the non-leaf entries that a walk has read (R348). -/
def State.keepTables (s : State) (c p va : Nat) : State :=
  { s with tables := ((s.walkTables va 3 (s.part p).troot.toNat).filter fun x =>
      !s.tables.any fun y => y.serves (dieOf c) p va && decide (y.level = x.1)).foldl (fun l x =>
        l ++ [{ die := dieOf c, part := p, level := x.1, va := va, table := x.2 }]) s.tables }

/-- An access of a unit has used a translation: a valid one is kept in its TLBs, with the tables of its walk (R348). -/
def State.cacheTrans (s : State) (w : TUnit) (p va : Nat) : State :=
  match w.core? with
  | none => s
  | some c =>
    if (s.tlbFind c w.quad? p va).isSome then s
    else match s.translate w p va with
      | .ok pa key level r w_ x =>
        let t : TlbEntry := { core := c, quad := none, part := p, level := level, va := va, pa := pa, key := key, r := r, w := w_, x := x }
        let s := if (s.tlbFind c none p va).isSome then s else (s.keepTables c p va).tlbInsert t
        match w.quad? with
        | some q => s.tlbInsert { t with quad := some q }
        | none => s
      | _ => s

/-- Which permissions an access needs (R346). -/
structure Needs where
  r : Bool
  w : Bool
  x : Bool
  deriving DecidableEq, Repr

/-- What the checks of an address give (R100 step 5): an address and key, Permission with its reason (R347), or a
translation fault. -/
inductive Place where
  | ok (pa key : Nat)
  | perm (reason : Nat)
  | fault (level entryPa : Nat) (entry : Dword)
  deriving DecidableEq, Repr

/-- A key that the partition may use (R346). -/
def Partition.ownsKey (P : Partition) (k : Nat) : Bool :=
  P.keyOwn.getLsbD k && !(P.keyBusy && decide (P.keyRet.toNat = k))

/-- Translation and permission of one address (R346, R347): the lowest reason is reported. -/
def State.place (s : State) (u : TUnit) (p va : Nat) (n : Needs) : Place :=
  match s.translate u p va with
  | .fault l e v => .fault l e v
  | .noMapping => .perm 4
  | .malformed _ _ _ => .perm 4
  | .ok pa key _ r w x =>
    if n.r && !r then .perm 1
    else if n.w && !w then .perm 2
    else if n.x && !x then .perm 3
    else if !(s.part p).ownsKey key then .perm 5
    else if s.badPlace pa then .perm 6
    else .ok pa key

/-- The place of a region's access: another device's memory, reachable or not, is a place, at which the region aborts
before any access (R155). -/
def State.regionPlace (s : State) (u : TUnit) (p va : Nat) (n : Needs) : Place :=
  match s.place u p va n with
  | .perm 6 => match s.translate u p va with
    | .ok pa key _ _ _ _ => if s.local pa then .perm 6 else .ok pa key
    | _ => .perm 6
  | x => x

/-- What a fault record says of an access (R350). -/
structure FaultSrc where
  source : Nat
  access : Nat
  lin : Nat
  gang : Nat
  lane : Nat
  queue : Nat
  deriving DecidableEq, Repr

/-- A fault ring has room for a record (R350). -/
def Partition.ringRoom (P : Partition) : Bool :=
  decide (P.frLog2n ≠ 0) && decide ((P.frHead - P.frTail).toNat ≠ 2 ^ P.frLog2n.toNat)

/-- Writing a record to the partition's fault ring, or counting it when there is no room (R350); status 2 for a
malformed entry (R347). A page is outstanding once it has a record. -/
def State.faultRecord (s : State) (p va level entryPa : Nat) (entry : Dword) (status : Nat) (f : FaultSrc) : State :=
  let P := s.part p
  let page := va / 2 ^ 16
  if page ∈ P.frPages then s
  else if !P.ringRoom then s.modPart p fun P => { P with frOvf := P.frOvf + 1 }
  else
    let bs := bytesOf 1 f.source ++ bytesOf 1 f.access ++ bytesOf 1 level ++ bytesOf 1 status ++ bytesOf 4 0
      ++ bytesOf 16 va ++ bytesOf 8 entryPa ++ bytesOf 8 entry.toNat ++ bytesOf 8 f.lin
      ++ bytesOf 1 f.gang ++ bytesOf 1 f.lane ++ bytesOf 1 f.queue ++ bytesOf 5 0 ++ bytesOf 8 s.time
    let at_ := P.frBase.toNat % 2 ^ 44 + 64 * (P.frHead.toNat % 2 ^ P.frLog2n.toNat)
    (s.physWrite 0 (s.devId.toNat * 2 ^ 44 + at_) bs).modPart p fun P =>
      { P with frHead := P.frHead + 1, frPages := page :: P.frPages }

/-- The fault record of an address whose walk ends in a malformed entry or a fault (R347, R350). -/
def State.recordWalk (s : State) (u : TUnit) (p va : Nat) (f : FaultSrc) : State :=
  match s.translate u p va with
  | .fault l e v => s.faultRecord p va l e v 1 f
  | .malformed l e v => s.faultRecord p va l e v 2 f
  | _ => s

/-! ### Memory as units without a core use it: the command processor, context and trace writes -/

/-- The parts of n bytes from va on that lie in one line: address and length. -/
def lineParts (va n : Nat) : List (Nat × Nat) :=
  (List.range ((va % 128 + n + 127) / 128)).map fun i =>
    let lo := if i = 0 then va else (va / 128 + i) * 128
    (lo, min (va + n) ((va / 128 + i + 1) * 128) - lo)

/-- n bytes at a virtual address of a partition, read at their homes, each page through its own translation; the first address
that does not translate otherwise. -/
def State.virtBytes (s : State) (p va n : Nat) (need : Needs) : Except (Nat × Place) (List Byte) :=
  (lineParts va n).foldr (fun x acc =>
    match s.place .device p (x.1 % 2 ^ 72) need with
    | .ok pa key => match acc with
      | .ok bs => .ok ((List.range x.2).map (fun i => s.homeByte key (pa + i)) ++ bs)
      | .error e => .error e
    | y => .error (x.1 % 2 ^ 72, y)) (.ok [])

/-- Whether every byte of n from va on translates with a need; the first that does not. -/
def State.virtCheck (s : State) (p va n : Nat) (need : Needs) : Option (Nat × Place) :=
  let pages := if n = 0 then [] else
    va :: (List.range ((va + n - 1) / 2 ^ 16 - va / 2 ^ 16)).map fun i => (va / 2 ^ 16 + i + 1) * 2 ^ 16
  pages.findSome? fun a =>
    match s.place .device p (a % 2 ^ 72) need with
    | .ok _ _ => none
    | x => some (a % 2 ^ 72, x)

/-- The dies' dirty bytes of the lines under n bytes at a virtual address come to their homes (R365). -/
def State.virtRecall (s : State) (p va n : Nat) (need : Needs) : State :=
  (lineParts va n).foldl (fun s x =>
    match s.place .device p (x.1 % 2 ^ 72) need with
    | .ok pa key => s.recallLine (lineOf pa) key
    | _ => s) s

/-- Bytes written at a virtual address of a partition, at their homes, after the dies' copies are recalled; another
device's become dirty in its proxy copy. -/
def State.virtWrite (s : State) (p va : Nat) (bs : List Byte) : State :=
  (lineParts va bs.length).foldl (fun s x =>
    match s.place .device p (x.1 % 2 ^ 72) ⟨false, true, false⟩ with
    | .ok pa key =>
      let cs := (bs.drop (x.1 - va)).take x.2
      let s := s.recallLine (lineOf pa) key
      if s.local pa then s.physWrite key pa cs
      else s.writeMasked (lineOf pa) key (patchLine (lineOf pa) pa cs 0) (byteMask pa x.2) (wholePieces (byteMask pa x.2))
    | _ => s) s

end Sys2Proof.Machine
end

