-- ==== Sys2Proof/Machine/Record.lean ====
section
/-! DEFINITION. The recorder (chapter 20): agents and clocks, the tests of R378, chunks and their records, frames and
the spill ring. -/

namespace Sys2Proof.Machine

/-- No agent (R376). -/
def noAgent : BitVec 32 := 0xFFFFFFFF#32

/-- AGENT of a gang, a job, a drain, a fabric message (R376). -/
def gangAgent (recNo g : Nat) : BitVec 32 := BitVec.ofNat 32 (recNo % 2 ^ 20 * 2 ^ 10 + g)
def jobAgent (recNo job : Nat) : BitVec 32 := BitVec.ofNat 32 (2 ^ 30 + recNo % 2 ^ 20 * 2 ^ 10 + job % 1024)
def drainAgent : BitVec 32 := BitVec.ofNat 32 (2 * 2 ^ 30)
def fabricAgent (src : Nat) : BitVec 32 := BitVec.ofNat 32 (3 * 2 ^ 30 + src % 256 * 2 ^ 10)

/-- A clocked item (R377): a line under a key; what lies in a block. -/
inductive Item where
  | line (key n : Nat)
  | spad (n : Nat)
  | tile (t : Nat)
  | buf (n : Nat)
  | token (g r : Nat)
  deriving DecidableEq, Repr

/-- The number of a block's item among the block's clocks. -/
def Item.code : Item → Nat
  | .line _ n => 4 * n
  | .spad n => 4 * n
  | .tile t => 4 * t + 1
  | .buf n => 4 * n + 2
  | .token g r => 4 * (64 * g + r) + 3

/-- The clocks of a line for a partition, as a die has them: a privatised copy has its own (R380). -/
def State.lineClocks (s : State) (p d line key : Nat) : Clocks :=
  let x := s.l2line d line key
  if x.st = .p then vget x.clk p Clocks.none else s.homeClocks p line key

/-- The state with a line's clocks changed where a die has them. -/
def State.setLineClocks (s : State) (p d line key : Nat) (c : Clocks) : State :=
  let x := s.l2line d line key
  if x.st = .p then s.setL2 { x with clk := vset x.clk p c } else s.modHomeClocks line key fun v => vset v p c

/-- The clocks of an item of a block, or of a line of memory as the block's die has it. -/
def State.clocks (s : State) (u : Nat) : Item → Clocks
  | .line key n => match s.block? u, s.launchOf u with
    | some b, some L => s.lineClocks L.part (dieOf b.core) n key
    | _, _ => Clocks.none
  | it => match s.block? u with
    | some b => ((b.clocks.find? fun c => decide (c.1 = it.code)).map (·.2)).getD
        { Clocks.none with wclk := b.baseClock, rclk := b.baseClock }
    | none => Clocks.none

/-- The state with the clocks of an item changed. -/
def State.setClocks (s : State) (u : Nat) (it : Item) (c : Clocks) : State :=
  match it with
  | .line key n => match s.block? u, s.launchOf u with
    | some b, some L => s.setLineClocks L.part (dieOf b.core) n key c
    | _, _ => s
  | _ => s.modBlock u fun b =>
    { b with clocks := (it.code, c) :: b.clocks.filter fun x => decide (x.1 ≠ it.code) }

/-- An access at clock C by agent a passes a stamp (R378). -/
def passes (C : Nat) (a : BitVec 32) (X : Nat) (A : BitVec 32) : Bool := decide (C > X) || (decide (C = X) && decide (A = a))

/-- The stamps that an access fails (R378). -/
def Clocks.failures (k : Clocks) (C : Nat) (a : BitVec 32) (write : Bool) : List (BitVec 32 × Nat) :=
  (if passes C a k.wclk k.wag then [] else [(k.wag, k.wclk)])
    ++ (if write && !passes C a k.rclk k.rag then [(k.rag, k.rclk)] else [])

/-- The stamps after an access that passes (R378). -/
def Clocks.record (k : Clocks) (C : Nat) (a : BitVec 32) (write : Bool) : Clocks :=
  if write then { wclk := C, wag := a, rclk := C, rag := a }
  else if C > k.rclk then { k with rclk := C, rag := a }
  else if C = k.rclk ∧ k.rag ≠ a then { k with rag := noAgent }
  else k

/-! ### Encodings of the records (R385, R386) -/

/-- A V field: groups of seven bits, at most ten bytes (R385). -/
def encV : Nat → Nat → List Byte
  | 0, _ => []
  | n + 1, v => if v < 128 then [BitVec.ofNat 8 v] else BitVec.ofNat 8 (v % 128 + 128) :: encV n (v / 128)

/-- A V field. -/
def vField (v : Nat) : List Byte := encV 10 v

/-- A Z field (R385). -/
def zField (n : Int) : List Byte := vField (if 0 ≤ n then (2 * n).toNat else (-2 * n - 1).toNat)

/-- One bit of the CRC-32 of IEEE 802.3, least significant bit first. -/
def crcBit (c : BitVec 32) (b : Bool) : BitVec 32 :=
  let x := c.getLsbD 0 != b
  if x then (c >>> 1) ^^^ 0xEDB88320#32 else c >>> 1

/-- CRC-32 of IEEE 802.3 over a list of bytes (R387, R406). -/
def crc32 (bs : List Byte) : BitVec 32 :=
  ~~~ (bs.foldl (fun c b => (List.range 8).foldl (fun c i => crcBit c (b.getLsbD i)) c) (BitVec.allOnes 32))

/-! ### The spill ring (R387-R390) -/

/-- Bytes of the ring's frame area (R390). -/
def Partition.ringBytes (P : Partition) : Nat := 2 ^ P.rrLog2sz.toNat - 2 ^ 24

/-- The open frame of a source. -/
def Partition.frame (P : Partition) (src : Nat) : FrameBuf :=
  (P.frames.find? fun f => decide (f.src = src)).getD { src := src, seq := 0, kept := [], bytes := [] }

/-- The partition with a source's open frame replaced. -/
def Partition.setFrame (P : Partition) (f : FrameBuf) : Partition :=
  { P with frames := f :: P.frames.filter fun x => decide (x.src ≠ f.src) }

/-- Bytes of a frame that holds n bytes of records (R387). -/
def frameSize (n : Nat) : Nat := (16 + n + 63) / 64 * 64

/-- The records that a frame of 65,536 bytes can hold (R387). -/
def frameLimit : Nat := 65520

/-- A frame's bytes: header, records, zero padding to a multiple of 64 (R387); method 0 or 2. -/
def frameBytes (src seq method : Nat) (body : List Byte) : List Byte :=
  let n := frameSize body.length
  let padded := body ++ List.replicate (n - 16 - body.length) 0
  bytesOf 4 n ++ bytesOf 2 src ++ bytesOf 1 method ++ bytesOf 1 0 ++ bytesOf 4 seq ++ bytesOf 4 (crc32 padded).toNat ++ padded

/-- Bytes put at the head of the ring (R390). -/
def State.ringPut (s : State) (p : Nat) (bs : List Byte) : State :=
  let P := s.part p
  let at_ := P.rrBase.toNat % 2 ^ 44 + P.rrHead.toNat % P.ringBytes
  (s.physWrite 0 (s.devId.toNat * 2 ^ 44 + at_) bs).modPart p fun P => { P with rrHead := P.rrHead + BitVec.ofNat 64 bs.length }

/-- The size of the frame that starts at a byte count of the ring, as it stands in memory. -/
def State.ringFrameSize (s : State) (p count : Nat) : Nat :=
  let P := s.part p
  ofBytes (s.bytesAt 0 (s.devId.toNat * 2 ^ 44 + P.rrBase.toNat % 2 ^ 44 + count % P.ringBytes) 4)

/-- In rolling mode the oldest frames give way until n bytes fit (R390). -/
def State.ringRoll (s : State) (p n : Nat) : Nat → State
  | 0 => s
  | fuel + 1 =>
    let P := s.part p
    if (P.rrHead - P.rrTail).toNat + n ≤ P.ringBytes then s
    else
      let k := s.ringFrameSize p P.rrTail.toNat
      (s.modPart p fun P => { P with
        rrTail := P.rrTail + BitVec.ofNat 64 k, rrLost := P.rrLost + BitVec.ofNat 64 k, rrWrapped := true }).ringRoll p n fuel

/-- A frame with a source's records is put into the ring, after a pad frame where it would pass the end; none where the ring
lacks room in drain mode (R387, R390). -/
def State.putFrame (s : State) (p src : Nat) (body : List Byte) : Option State :=
  let P := s.part p
  let f := P.frame src
  let n := frameSize body.length
  let at_ := P.rrHead.toNat % P.ringBytes
  let pad := if at_ + n > P.ringBytes then P.ringBytes - at_ else 0
  let s := if P.rrMode then s.ringRoll p (pad + n) 65536 else s
  let P := s.part p
  if (P.rrHead - P.rrTail).toNat + pad + n > P.ringBytes then none
  else
    let s := if pad = 0 then s else s.ringPut p (frameBytes src f.seq 2 (List.replicate (pad - 16) 0))
    let seq := if pad = 0 then f.seq else f.seq + 1
    some ((s.ringPut p (frameBytes src seq 0 body)).modPart p fun P => P.setFrame { P.frame src with src := src, seq := seq + 1 })

/-- A source's closed frames go to the ring in order, as far as it has room. -/
def State.flushKept (s : State) (p src : Nat) : List (List Byte) → State
  | [] => s
  | body :: t => match s.putFrame p src body with
    | some s => (s.modPart p fun P => P.setFrame { P.frame src with src := src, kept := t }).flushKept p src t
    | none => s

/-- A source keeps more bytes of frames than it may (R390). -/
def FrameBuf.full (f : FrameBuf) : Bool := decide ((f.kept.map fun b => frameSize b.length).sum > 256 * 1024)

/-- A source closes its open frame; its frames go to the ring while there is room, and STALLED tells whether a source keeps more
than 256 KiB (R387, R390). -/
def State.closeFrame (s : State) (p src : Nat) : State :=
  let f := (s.part p).frame src
  let f := if f.bytes.isEmpty then f else { f with kept := f.kept ++ [f.bytes], bytes := [] }
  if f.kept.isEmpty then s
  else
    ((s.modPart p fun P => P.setFrame f).flushKept p src f.kept).modPart p fun P =>
      { P with rrStalled := !P.rrMode && P.frames.any FrameBuf.full }

/-- A record joins its source's open frame, which closes first where it cannot hold the record, and closes when it holds 60 KiB
(R387). -/
def State.logRecord (s : State) (p src : Nat) (bs : List Byte) : State :=
  if !(s.part p).rrEn then s
  else
    let s := if ((s.part p).frame src).bytes.length + bs.length > frameLimit then s.closeFrame p src else s
    let s := s.modPart p fun P => P.setFrame { P.frame src with src := src, bytes := (P.frame src).bytes ++ bs }
    if ((s.part p).frame src).bytes.length < 60 * 1024 then s else s.closeFrame p src

/-- Every source of a partition closes its frame (R387). -/
def State.closeFrames (s : State) (p : Nat) : State :=
  ((s.part p).frames.map (·.src)).foldl (fun s src => s.closeFrame p src) s

/-! ### Replay: the log and what of it has completed (R391-R397) -/

/-- A partition replays (R391): STATE is 1 running, 2 stopped at a breakpoint, 5 waiting for another device; a replay left
by FREE is over (R398). -/
def Partition.replaying (P : Partition) : Bool := decide (P.rpState = 1 ∨ P.rpState = 2 ∨ P.rpState = 5) && !P.rpLeft

/-- The partition that replays a block's launch. -/
def State.replayOf (s : State) (u : Nat) : Option Partition :=
  match s.launchOf u with
  | some L => if L.number.isSome && (s.part L.part).replaying then some (s.part L.part) else none
  | none => none

/-- A logged chunk, as one record. -/
structure LogChunk where
  clock : Nat
  count : Nat
  ending : Nat
  clks : List Dword
  traps : List (Nat × Nat)
  fabric : List (Nat × BitVec 32)
  digest : Option Dword

/-- The logged chunk of a launch, block, gang and chunk sequence number. -/
def LogRec.chunkOf (n b g c : Nat) : LogRec → Option LogChunk
  | .chunk ln bl ga cs clock count ending clks traps fabric digest =>
    if ln = n ∧ bl = b ∧ ga = g ∧ cs = c then some ⟨clock, count, ending, clks, traps, fabric, digest⟩ else none
  | _ => none

/-- A logged chunk with its place in the log. -/
def Partition.logChunk (P : Partition) (n b g c : Nat) : Option (Nat × LogChunk) :=
  (List.range P.rpLog.length).findSome? fun i => (P.rpLog[i]?.bind (LogRec.chunkOf n b g c)).map fun x => (i, x)

/-- The logged chunk that a gang replays. -/
def State.replayChunk (s : State) (u g : Nat) : Option (Nat × LogChunk) :=
  match s.replayOf u, s.block? u, s.launchOf u, (s.gang? u g).bind (·.chunk) with
  | some P, some b, some L, some c => P.logChunk (L.number.getD 0) b.lin g c.cseq
  | _, _, _, _ => none

/-- A record of the log, or a job's first segment (true), holds back a clock C: its own clock is smaller and it has not
completed (R392). -/
def Partition.holdsBack (P : Partition) (C i : Nat) : Bool :=
  let open_ (clock : Nat) (first : Bool) : Bool := decide (clock < C) && !decide ((i, first) ∈ P.rpDone)
  match P.rpLog[i]? with
  | some (.chunk _ _ _ _ clock _ _ _ _ _ _) => open_ clock false
  | some (.jobStep _ _ _ _ _ _ clock first) => open_ clock false || (match first with | some f => open_ f true | none => false)
  | some (.jobEnd _ _ _ _ _ _ first) => match first with | some f => open_ f true | none => false
  | some (.drain _ _ stamp) => open_ stamp false
  | some (.arrival _ _ _ _ stamp) => open_ stamp false
  | _ => false

/-- A clock is clear (R392), one record of the log set aside. -/
def Partition.clearBut (P : Partition) (skip : Option Nat) (C : Nat) : Bool :=
  (List.range P.rpLog.length).all fun i => decide (skip = some i) || !P.holdsBack C i

/-- A clock is clear (R392). -/
def Partition.clear (P : Partition) (C : Nat) : Bool := P.clearBut none C

/-- The cut of the pending stop (R397): the lower of a breakpoint's and a HALT's. -/
def Partition.stopAt (P : Partition) : Option Nat :=
  match P.rpStop, P.rpHalt with
  | some a, some b => some (min a b)
  | some a, none => some a
  | none, x => x

/-- A clock may start: it is clear, and below the cut of a pending stop (R392, R397). -/
def Partition.mayStart (P : Partition) (C : Nat) (skip : Option Nat := none) : Bool :=
  P.clearBut skip C && (match P.stopAt with | some K => decide (C < K) | none => true) && decide (P.rpState ≠ 2)

/-- A record of the log has completed. -/
def State.logDone (s : State) (p : Nat) (x : Nat × Bool) : State :=
  s.modPart p fun P => { P with rpDone := if x ∈ P.rpDone then P.rpDone else x :: P.rpDone }

/-- Every block of a partition is to stop (R335). -/
def State.stopBlocks (s : State) (p : Nat) : State :=
  { s with blocks := s.blocks.map fun b =>
      if (match s.launch? b.launch with | some L => decide (L.part = p) | none => false) && b.stop.isNone then
        { b with stop := some s.time } else b }

/-- Replay-Divergence (R396): the first mismatch stops every gang and fills RPDIV. -/
def State.diverge (s : State) (p kind lin gang cseq offset logged found : Nat) : State :=
  if !(s.part p).replaying then s
  else
    (s.stopBlocks p).modPart p fun P => { P with
      rpState := 3, rpDiv := BitVec.ofNat 4 kind, rpStop := none, rpHalt := none,
      rpDetail := bytesOf 8 lin ++ bytesOf 1 gang ++ bytesOf 1 kind ++ bytesOf 2 0 ++ bytesOf 4 cseq ++ bytesOf 4 offset
        ++ bytesOf 4 0 ++ bytesOf 8 logged ++ bytesOf 8 found ++ bytesOf 8 0 }

/-- A mismatch of a gang's running chunk (R396). -/
def State.divergeGang (s : State) (u g kind logged found : Nat) : State :=
  match s.block? u, s.launchOf u, (s.gang? u g).bind (·.chunk) with
  | some b, some L, some c => s.diverge L.part kind b.lin g c.cseq c.count logged found
  | _, _, _ => s

/-! ### Chunks (R382-R384) -/

/-- The high-water clock takes a new value (R379). -/
def State.raiseHwm (s : State) (p c : Nat) : State := s.modPart p fun P => { P with hwm := max P.hwm c }

/-- The limit that a clock may not pass (R390). -/
def clockLimit : Nat := 0xFFFFFF00

/-- RotL64 (R173). -/
def rotL64 (x : Dword) (n : Nat) : Dword := (x <<< n) ||| (x >>> (64 - n))

/-- One write joins the store digest (R384). -/
def digestStep (d : Dword) (addr value : Nat) : Dword :=
  rotL64 d 17 ^^^ (BitVec.ofNat 64 (addr % 2 ^ 64) * 0x9E3779B97F4A7C15#64 + BitVec.ofNat 64 (value % 2 ^ 64)
    + BitVec.ofNat 64 (value / 2 ^ 64))

/-- A write of a gang joins its chunk's digest. -/
def State.digestWrite (s : State) (u g addr value : Nat) : State :=
  s.modGang u g fun G => { G with chunk := G.chunk.map fun c => { c with digest := digestStep c.digest addr value } }

/-- A source is used in the sieve's table of 64, where it is the last; the least recently used one leaves first (R384). -/
def sieveUse (table : List (BitVec 32 × Nat)) (d : BitVec 32 × Nat) : List (BitVec 32 × Nat) :=
  let rest := table.filter fun e => decide (e.1 ≠ d.1)
  let old := ((table.find? fun e => decide (e.1 = d.1)).map (·.2)).getD 0
  (if rest.length ≥ 64 then rest.drop 1 else rest) ++ [(d.1, max d.2 old)]

/-- The sieve of a gang (R384): the dependences of a chunk that no earlier chunk has recorded at a later clock of the same
source, and the table after them. Dependences on the gang itself are never written. -/
def sieve (me : BitVec 32) (table deps : List (BitVec 32 × Nat)) : List (BitVec 32 × Nat) × List (BitVec 32 × Nat) :=
  let ds := deps.filter fun d => decide (d.1 ≠ me)
  (ds.filter fun d => !table.any fun e => decide (e.1 = d.1 ∧ d.2 ≤ e.2), ds.foldl sieveUse table)

/-- The bytes of a chunk record (R385). -/
def chunkRecord (c : ChunkState) (lnum lin gang base limit reason : Nat) (digest : Bool) : List Byte :=
  bytesOf 1 1 ++ bytesOf 1 (reason + (if digest then 4 else 0)) ++ vField lnum ++ vField lin ++ bytesOf 1 gang ++ vField c.cseq
    ++ vField (c.clock - base) ++ zField ((c.count : Int) - limit)
    ++ vField c.clks.length ++ vField c.traps.length ++ vField c.deps.length ++ vField c.fabric.length
    ++ c.clks.flatMap (fun v => bytesOf 8 v.toNat)
    ++ c.traps.flatMap (fun t => vField t.1 ++ bytesOf 1 t.2)
    ++ c.deps.flatMap (fun d => bytesOf 4 d.1.toNat ++ vField (c.clock - d.2))
    ++ c.fabric.flatMap (fun f => vField f.1 ++ bytesOf 4 f.2.toNat)
    ++ (if digest then bytesOf 8 c.digest.toNat else [])

/-- What a completed chunk of a replay must agree with (R396): its count, its clk instructions, its traps, its digest. -/
def State.checkChunk (s : State) (u g : Nat) (c : ChunkState) (x : LogChunk) : State :=
  if c.count ≠ x.count then s.divergeGang u g 1 x.count c.count
  else if c.clks.length ≠ x.clks.length then s.divergeGang u g 3 x.clks.length c.clks.length
  else if c.traps.length ≠ x.traps.length then
    let lost := ((x.traps.drop c.traps.length).head?.map (·.2)).getD 0
    s.divergeGang u g (if 0x30 ≤ lost then 5 else 2) lost 0
  else match x.digest with
    | some d => if c.digest ≠ d then s.divergeGang u g 4 d.toNat c.digest.toNat else s
    | none => s

/-- A gang's chunk of a replay ends (R392): the gang is held at the start of its next logged chunk, if there is one. -/
def State.endReplayed (s : State) (u g : Nat) : State :=
  match s.replayOf u, s.block? u, s.launchOf u, (s.gang? u g).bind (·.chunk) with
  | some P, some b, some L, some c =>
    let n := L.number.getD 0
    match P.logChunk n b.lin g c.cseq with
    | none => s.modGang u g fun G => { G with chunk := none }
    | some (i, x) =>
      let s := (s.checkChunk u g c x).logDone L.part (i, false)
      match P.logChunk n b.lin g (c.cseq + 1) with
      | none =>
        let live := ((s.gang? u g).map fun G => G.lanes.toList.any Lane.live).getD false
        let s := if live && decide (x.ending ≠ 3) then s.divergeGang u g 1 x.count (c.count + 1) else s
        s.modGang u g fun G => { G with chunk := none }
      | some (_, y) =>
        let ended := ((s.gang? u g).map fun G => decide (G.live = 0)).getD false
        let s := if ended then s.divergeGang u g 1 (x.count + y.count) x.count else s
        s.modGang u g fun G => { G with
          held := true
          chunk := some { c with clock := y.clock, cseq := c.cseq + 1, count := 0, digest := 0, clks := [], traps := [], deps := [],
                                 fabric := [], prevClock := c.clock } }
  | _, _, _, _ => s

/-- The record of a chunk of a gang, which ends for a reason (R385: 0 count, 1 failed test, 2 last exit, 3 session end). -/
def State.logChunk (s : State) (L : Launch) (b : Block) (g : Nat) (c : ChunkState) (reason : Nat) : State :=
  let base := if c.cseq = 0 then L.lbase else c.prevClock
  s.logRecord L.part (clusterOf b.core)
    (chunkRecord c (L.number.getD 0) b.lin g base L.r.chunk reason (s.part L.part).rrDigest)

/-- A gang's chunk ends for a reason, and its record is written. -/
def State.writeChunk (s : State) (u g reason : Nat) : State :=
  match s.block? u, s.launchOf u, (s.gang? u g).bind (·.chunk) with
  | some b, some L, some c => (s.logChunk L b g c reason).modGang u g fun G => { G with chunk := none, held := false }
  | _, _, _ => s

/-- A gang without holds and without a chunk. -/
def Gang.freed (G : Gang) : Gang := { G with held := false, chunk := none }

/-- The chunks of a launch's saved blocks end for a reason (R382). -/
def State.writeSaved (s : State) (L : Launch) (reason : Nat) : State :=
  let s := L.saved.foldl (fun s x => x.1.gangs.foldl (fun s G => match G.chunk with
    | some c => if (s.part L.part).replaying then s else s.logChunk L x.1 G.idx c reason
    | none => s) s) s
  s.modLaunch L.id fun M => { M with saved := M.saved.map fun x => ({ x.1 with gangs := x.1.gangs.map Gang.freed }, x.2) }

/-- A partition's session ends (R382, R388, R390): every chunk with reason 3, those of saved blocks too, every frame; its
launches go on unrecorded. -/
def State.endSession (s : State) (p : Nat) (clockEnd : Bool) : State :=
  let mine (u : Nat) : Bool := match s.launchOf u with | some L => decide (L.part = p) | none => false
  let s := (s.blocks.filter fun b => mine b.uid).foldl (fun s b =>
    b.gangs.foldl (fun s G => s.writeChunk b.uid G.idx 3) s) s
  let s := (s.launches.filter fun L => decide (L.part = p)).foldl (fun s L => s.writeSaved L 3) s
  let s := s.closeFrames p
  ({ s with launches := s.launches.map fun L => if L.part = p then { L with number := none } else L } : State).modPart p fun P =>
    { P with rrEn := false, rrClockEnd := P.rrClockEnd || clockEnd }

/-- A chunk of a gang ends for a reason and its record is written; the next chunk starts at clock next with the dependences
that opened it (R382), or there is none. A clock beyond the limit ends the session instead (R390), and a gang whose source
keeps too many frames stops here (R390). -/
def State.endChunk (s : State) (u g reason : Nat) (next : Option Nat) (deps : List (BitVec 32 × Nat)) : State :=
  match s.block? u, s.launchOf u, (s.gang? u g).bind (·.chunk) with
  | some b, some L, some c =>
    if (s.replayOf u).isSome then s.endReplayed u g
    else match next with
      | none => s.writeChunk u g reason
      | some n =>
        if clockLimit < n then s.endSession L.part true
        else
          let f := sieve (gangAgent b.recNo g) c.sieve deps
          let s := (s.writeChunk u g reason).raiseHwm L.part n
          let P := s.part L.part
          s.modGang u g fun G => { G with
            held := !P.rrMode && (P.frame (clusterOf b.core)).full
            chunk := some { c with clock := n, cseq := c.cseq + 1, count := 0, digest := 0, clks := [], traps := [],
                                   deps := f.1, fabric := [], prevClock := c.clock, sieve := f.2 } }
  | _, _, _ => s

/-- The accesses of a gang to clocked items, some read and some written, are recorded at its chunk's clock (R378). -/
def State.recordAccesses (s : State) (u g : Nat) (reads writes : List Item) : State :=
  match s.block? u, (s.gang? u g).bind (·.chunk) with
  | some b, some c =>
    let a := gangAgent b.recNo g
    let s := reads.foldl (fun s it => s.setClocks u it ((s.clocks u it).record c.clock a false)) s
    writes.foldl (fun s it => s.setClocks u it ((s.clocks u it).record c.clock a true)) s
  | _, _ => s

/-- One access of a gang to clocked items, some read and some written, is tested and recorded as a whole (R378, R381): a failure
ends the chunk first, at the largest failing stamp. A replay makes no tests (R392). -/
def State.gangAccesses (s : State) (u g : Nat) (reads writes : List Item) : State :=
  match s.block? u, (s.gang? u g).bind (·.chunk) with
  | some b, some c =>
    if (s.replayOf u).isSome then s else
    let a := gangAgent b.recNo g
    let bad := reads.flatMap (fun it => (s.clocks u it).failures c.clock a false)
      ++ writes.flatMap fun it => (s.clocks u it).failures c.clock a true
    let x := bad.foldl (fun m d => max m d.2) 0
    let s := if bad.isEmpty then s else s.endChunk u g 1 (some (max (c.clock + 1) (x + 1))) bad
    s.recordAccesses u g reads writes
  | _, _ => s

/-- The accesses of an instruction of a gang, which reads or writes every item: each is tested and recorded in turn (R378). A
chunk ends between two instructions (R382), so the accesses before a failed test count at the clock of the chunk that the
instruction is in (log 49). -/
def State.gangAccess (s : State) (u g : Nat) (items : List Item) (write : Bool) : State :=
  if ((s.gang? u g).bind (·.chunk)).isNone then s
  else
    let s := items.foldl (fun s it => if write then s.gangAccesses u g [] [it] else s.gangAccesses u g [it] []) s
    if (s.replayOf u).isSome then s else if write then s.recordAccesses u g [] items else s.recordAccesses u g items []

/-- Words executed count towards the chunk (R169, R382). -/
def State.countWords (s : State) (u g n : Nat) : State :=
  s.modGang u g fun G => { G with chunk := G.chunk.map fun c => { c with count := c.count + n } }

/-- At least the bytes of a chunk's record. -/
def ChunkState.recordBytes (c : ChunkState) : Nat :=
  64 + 8 * c.clks.length + 11 * c.traps.length + 14 * c.deps.length + 14 * c.fabric.length

/-- A chunk that has executed its words ends: CHUNK of them, or in replay as many as the log says (R382, R392). A logged
last chunk that ended with its gang's last exit is left to that exit. A chunk also ends before its record outgrows a frame
(DESIGN CHOICE, log 51). -/
def State.chunkDue (s : State) (u g : Nat) : Bool :=
  match s.launchOf u, (s.gang? u g).bind (·.chunk) with
  | some L, some c =>
    if (s.replayOf u).isSome then
      match s.replayChunk u g with
      | some (_, x) => decide (x.count ≤ c.count)
      | none => false
    else decide (L.r.chunk ≤ c.count) || decide (frameLimit < c.recordBytes + 1024)
  | _, _ => false

/-- The end of a chunk by count (R382). -/
def State.endByCount (s : State) (u g : Nat) : State :=
  match (s.gang? u g).bind (·.chunk) with
  | some c => s.endChunk u g 0 (some (c.clock + 1)) []
  | none => s

/-- A trap of a gang, or a region abort with cause 0x32, 0x33, 0x40 or 0x50, joins its chunk record at the words
executed so far (R157, R383); in replay it must be the logged one (R396). -/
def State.logTrap (s : State) (u g cause : Nat) : State :=
  let s : State := match s.replayChunk u g, (s.gang? u g).bind (·.chunk) with
    | some (_, x), some c =>
      let next : Option (Nat × Nat) := (x.traps.drop c.traps.length).head?
      if next = some (c.count, cause) then s
      else s.divergeGang u g (if 0x30 ≤ cause then 5 else 2) ((next.map (·.2)).getD 0) cause
    | _, _ => s
  s.modGang u g fun G => { G with chunk := G.chunk.map fun c =>
    { c with traps := c.traps ++ [(c.count, cause)] } }

/-- The lines of scratchpad bytes. -/
def spadItems (off n : Nat) : List Item := (linesOf off n).map Item.spad

/-- The lines of global bytes under a key. -/
def lineItems (key pa n : Nat) : List Item := (linesOf pa n).map (Item.line key)

/-- What a clk returns: device time, or in replay the next logged value of its chunk (R196, R393). -/
def State.clkValue (s : State) (u g : Nat) : Dword :=
  match s.replayChunk u g, (s.gang? u g).bind (·.chunk) with
  | some (_, x), some c => (x.clks.drop c.clks.length).headD (BitVec.ofNat 64 s.time)
  | _, _ => BitVec.ofNat 64 s.time

/-- A clk's value joins its chunk's record (R207); in replay one beyond the logged ones diverges (R396). -/
def State.clkLog (s : State) (u g : Nat) : State :=
  let v := s.clkValue u g
  let s := match s.replayChunk u g, (s.gang? u g).bind (·.chunk) with
    | some (_, x), some c => if x.clks.length ≤ c.clks.length then s.divergeGang u g 3 x.clks.length (c.clks.length + 1) else s
    | _, _ => s
  s.modGang u g fun G => { G with chunk := G.chunk.map fun c => { c with clks := c.clks ++ [v] } }

end Sys2Proof.Machine
end

