-- ==== Sys2Proof/Machine/Operands.lean ====
section
/-! DEFINITION. The operand forms: which registers an instruction names (R59-R66, R158, R165, R172), and what each
encoded instruction is by rule: whether it needs a full sheaf (R37), must end its run (R32), is legal in a region
(R140), is withheld for an FP exception (R88). -/

namespace Sys2Proof.Machine

/-- The vector registers from a 7-bit code on, k of them; a broadcast code names none (R64). -/
def vregs (c : BitVec 7) (k : Nat) : List Nat := if c.toNat < 112 then (List.range k).map fun i => c.toNat + i else []

/-- The scalar register that a broadcast code names (R64). -/
def bcast (c : BitVec 7) : List Nat := if c.toNat < 112 then [] else [c.toNat - 112]

end Sys2Proof.Machine

namespace Sys2Proof

/-- The third operand: the extra vector operand, else vd (R173, Third). -/
def Hdr.third (h : Hdr) (d : BitVec 7) : BitVec 7 := match h.ext with | some (.vec c) => c | _ => d

/-- The registers of the extra vector operand. -/
def Hdr.extRegs (h : Hdr) (k : Nat) : List Nat := match h.ext with | some (.vec c) => Machine.vregs c k | _ => []

/-- The scalar register of a broadcast extra operand. -/
def Hdr.extBcast (h : Hdr) : List Nat := match h.ext with | some (.vec c) => Machine.bcast c | _ => []

/-- The scalar destination that a prefix supplies (R172). -/
def Hdr.scalarDest (h : Hdr) : List Nat := match h.ext with | some (.sca n) => [n.toNat] | _ => []

/-- The vector destination, unless a prefix supplies a scalar one (R172). -/
def Hdr.vdUnlessScalar (h : Hdr) (d : BitVec 7) : List Nat := match h.ext with | some (.sca _) => [] | _ => Machine.vregs d 1

/-- The words of the prefix group (R169). -/
def Hdr.words (h : Hdr) : Nat := 1 + (if h.imm.isSome then 1 else 0) + (if h.mod.isSome then 1 else 0) + (if h.ext.isSome then 1 else 0)

/-- The modifier fields, or their defaults (R171, R173 Mod). -/
def Hdr.rnd (h : Hdr) : Nat := match h.mod with | some m => m.rnd.toNat | none => 0
def Hdr.ftz (h : Hdr) : Bool := match h.mod with | some m => m.ftz | none => false
def Hdr.sat (h : Hdr) : Bool := match h.mod with | some m => m.sat | none => false
def Hdr.scope (h : Hdr) : Nat := match h.mod with | some m => if m.scv then m.scope.toNat else 2 | none => 2
def Hdr.order (h : Hdr) : Nat := match h.mod with | some m => if m.orv then m.order.toNat else 0 | none => 0
def Hdr.hint (h : Hdr) : Nat := match h.mod with | some m => m.hint.toNat | none => 0

end Sys2Proof

namespace Sys2Proof
open Machine

/-- The vector registers that an instruction reads. -/
def Instr.vsrcs : Instr → List Nat
  | .brx _ _ t => vregs t 1
  | .callx _ _ t => vregs t 1
  | .pmov _ _ _ a => vregs a 1
  | .sfirst _ _ a => vregs a 1
  | .iadd _ _ _ a b => vregs a 1 ++ vregs b 1
  | .isub _ _ _ a b => vregs a 1 ++ vregs b 1
  | .imulLo _ _ _ a b => vregs a 1 ++ vregs b 1
  | .imulhI32 _ _ _ a b => vregs a 1 ++ vregs b 1
  | .imulhN32 _ _ _ a b => vregs a 1 ++ vregs b 1
  | .imad h _ d a b => vregs a 1 ++ vregs b 1 ++ vregs (h.third d) 1
  | .iand _ _ _ a b => vregs a 1 ++ vregs b 1
  | .ior _ _ _ a b => vregs a 1 ++ vregs b 1
  | .ixor _ _ _ a b => vregs a 1 ++ vregs b 1
  | .ishl _ _ _ a b => vregs a 1 ++ vregs b 1
  | .ishrN _ _ _ a b => vregs a 1 ++ vregs b 1
  | .ishrI _ _ _ a b => vregs a 1 ++ vregs b 1
  | .iminI32 _ _ _ a b => vregs a 1 ++ vregs b 1
  | .imaxI32 _ _ _ a b => vregs a 1 ++ vregs b 1
  | .iminN32 _ _ _ a b => vregs a 1 ++ vregs b 1
  | .imaxN32 _ _ _ a b => vregs a 1 ++ vregs b 1
  | .iadd64 _ _ _ a b => vregs a 2 ++ vregs b 2
  | .imadw h _ d a b => vregs a 1 ++ vregs b 1 ++ vregs (h.third d) 2
  | .icmp _ _ _ _ a b => vregs a 1 ++ vregs b 1
  | .isel _ _ _ a b => vregs a 1 ++ vregs b 1
  | .ibit _ _ _ a _ => vregs a 1
  | .ibfe _ _ _ a b => vregs a 1 ++ vregs b 1
  | .ibfi h _ d a b => vregs a 1 ++ vregs b 1 ++ vregs (h.third d) 1
  | .idivI32 _ _ _ a b => vregs a 1 ++ vregs b 1
  | .idivN32 _ _ _ a b => vregs a 1 ++ vregs b 1
  | .iremI32 _ _ _ a b => vregs a 1 ++ vregs b 1
  | .iremN32 _ _ _ a b => vregs a 1 ++ vregs b 1
  | .iaddi _ _ _ a _ => vregs a 1
  | .ishli _ _ _ a _ => vregs a 1
  | .ishriN _ _ _ a _ => vregs a 1
  | .ishriI _ _ _ a _ => vregs a 1
  | .vshfl _ _ _ a b => vregs a 1 ++ vregs b 1
  | .vfirst _ _ _ a => vregs a 1
  | .vbcast _ _ _ a _ => vregs a 1
  | .vscan _ _ _ a _ => vregs a 1
  | .vred _ _ _ a _ => vregs a 1
  | .faddF32 _ _ _ a b => vregs a 1 ++ vregs b 1
  | .fsubF32 _ _ _ a b => vregs a 1 ++ vregs b 1
  | .fmulF32 _ _ _ a b => vregs a 1 ++ vregs b 1
  | .ffmaF32 h _ d a b => vregs a 1 ++ vregs b 1 ++ vregs (h.third d) 1
  | .fminF32 _ _ _ a b => vregs a 1 ++ vregs b 1
  | .fmaxF32 _ _ _ a b => vregs a 1 ++ vregs b 1
  | .fcmpF32 _ _ _ _ a b => vregs a 1 ++ vregs b 1
  | .ffunF32 _ _ _ a _ => vregs a 1
  | .fdivF32 _ _ _ a b => vregs a 1 ++ vregs b 1
  | .faddF64 _ _ _ a b => vregs a 2 ++ vregs b 2
  | .fsubF64 _ _ _ a b => vregs a 2 ++ vregs b 2
  | .fmulF64 _ _ _ a b => vregs a 2 ++ vregs b 2
  | .ffmaF64 h _ d a b => vregs a 2 ++ vregs b 2 ++ vregs (h.third d) 2
  | .fminF64 _ _ _ a b => vregs a 2 ++ vregs b 2
  | .fmaxF64 _ _ _ a b => vregs a 2 ++ vregs b 2
  | .fcmpF64 _ _ _ _ a b => vregs a 2 ++ vregs b 2
  | .ffunF64 _ _ _ a _ => vregs a 2
  | .fdivF64 _ _ _ a b => vregs a 2 ++ vregs b 2
  | .faddF16x2 _ _ _ a b => vregs a 1 ++ vregs b 1
  | .fmulF16x2 _ _ _ a b => vregs a 1 ++ vregs b 1
  | .ffmaF16x2 h _ d a b => vregs a 1 ++ vregs b 1 ++ vregs (h.third d) 1
  | .faddBf16x2 _ _ _ a b => vregs a 1 ++ vregs b 1
  | .fmulBf16x2 _ _ _ a b => vregs a 1 ++ vregs b 1
  | .ffmaBf16x2 h _ d a b => vregs a 1 ++ vregs b 1 ++ vregs (h.third d) 1
  | .cvt _ _ _ a f => vregs a (if f.toNat / 10 = 0 then 2 else 1)
  | .cvtq _ _ _ a _ => vregs a 1
  | .cvtd _ _ _ a _ => vregs a 1
  | .ldg _ _ _ o _ _ => vregs o 1
  | .stg _ _ t o _ w => vregs t (widthRegs w) ++ vregs o 1
  | .ldgAcq _ _ _ o _ _ => vregs o 1
  | .stgRel _ _ t o _ w => vregs t (widthRegs w) ++ vregs o 1
  | .lds _ _ _ o _ _ => vregs o 1
  | .sts _ _ t o _ w => vregs t (widthRegs w) ++ vregs o 1
  | .atomg h _ t o _ _ => vregs t h.atomRegs ++ vregs o 1 ++ h.extRegs h.atomRegs
  | .redg h _ t o _ _ => vregs t h.atomRegs ++ vregs o 1
  | .redgDet h _ t o _ _ => vregs t h.atomRegs ++ vregs o 1
  | .atoms h _ t o _ => vregs t h.atomRegs ++ vregs o 1 ++ h.extRegs h.atomRegs
  | .reds h _ t o _ => vregs t h.atomRegs ++ vregs o 1
  | .pfg _ _ o _ _ => vregs o 1
  | .copy h _ _ _ => h.extRegs 1
  | .mma h _ _ _ _ _ _ _ => h.extRegs 1
  | .accread _ _ _ a _ => vregs a 1
  | .accwrite _ _ d a _ => vregs d 2 ++ vregs a 1
  | .apatch _ _ d a _ _ _ => vregs d 2 ++ vregs a 1
  | .rld _ _ _ o _ => vregs o 1
  | .rst _ _ t o _ w => vregs t (widthRegs w) ++ vregs o 1
  | _ => []

/-- The vector registers that an instruction writes. -/
def Instr.vdsts : Instr → List Nat
  | .vgetGang _ d _ => vregs d 1
  | .vgetThread _ _ d _ => vregs d 1
  | .clkVector _ d => vregs d 2
  | .iadd _ _ d _ _ => vregs d 1
  | .isub _ _ d _ _ => vregs d 1
  | .imulLo _ _ d _ _ => vregs d 1
  | .imulhI32 _ _ d _ _ => vregs d 1
  | .imulhN32 _ _ d _ _ => vregs d 1
  | .imad _ _ d _ _ => vregs d 1
  | .iand _ _ d _ _ => vregs d 1
  | .ior _ _ d _ _ => vregs d 1
  | .ixor _ _ d _ _ => vregs d 1
  | .ishl _ _ d _ _ => vregs d 1
  | .ishrN _ _ d _ _ => vregs d 1
  | .ishrI _ _ d _ _ => vregs d 1
  | .iminI32 _ _ d _ _ => vregs d 1
  | .imaxI32 _ _ d _ _ => vregs d 1
  | .iminN32 _ _ d _ _ => vregs d 1
  | .imaxN32 _ _ d _ _ => vregs d 1
  | .iadd64 _ _ d _ _ => vregs d 2
  | .imadw _ _ d _ _ => vregs d 2
  | .isel _ _ d _ _ => vregs d 1
  | .ibit _ _ d _ _ => vregs d 1
  | .ibfe _ _ d _ _ => vregs d 1
  | .ibfi _ _ d _ _ => vregs d 1
  | .idivI32 _ _ d _ _ => vregs d 1
  | .idivN32 _ _ d _ _ => vregs d 1
  | .iremI32 _ _ d _ _ => vregs d 1
  | .iremN32 _ _ d _ _ => vregs d 1
  | .iaddi _ _ d _ _ => vregs d 1
  | .ishli _ _ d _ _ => vregs d 1
  | .ishriN _ _ d _ _ => vregs d 1
  | .ishriI _ _ d _ _ => vregs d 1
  | .vshfl _ _ d _ _ => vregs d 1
  | .vfirst h _ d _ => h.vdUnlessScalar d
  | .vbcast h _ d _ _ => h.vdUnlessScalar d
  | .vscan _ _ d _ _ => vregs d 1
  | .vred h _ d _ _ => h.vdUnlessScalar d
  | .faddF32 _ _ d _ _ => vregs d 1
  | .fsubF32 _ _ d _ _ => vregs d 1
  | .fmulF32 _ _ d _ _ => vregs d 1
  | .ffmaF32 _ _ d _ _ => vregs d 1
  | .fminF32 _ _ d _ _ => vregs d 1
  | .fmaxF32 _ _ d _ _ => vregs d 1
  | .ffunF32 _ _ d _ _ => vregs d 1
  | .fdivF32 _ _ d _ _ => vregs d 1
  | .faddF64 _ _ d _ _ => vregs d 2
  | .fsubF64 _ _ d _ _ => vregs d 2
  | .fmulF64 _ _ d _ _ => vregs d 2
  | .ffmaF64 _ _ d _ _ => vregs d 2
  | .fminF64 _ _ d _ _ => vregs d 2
  | .fmaxF64 _ _ d _ _ => vregs d 2
  | .ffunF64 _ _ d _ _ => vregs d 2
  | .fdivF64 _ _ d _ _ => vregs d 2
  | .faddF16x2 _ _ d _ _ => vregs d 1
  | .fmulF16x2 _ _ d _ _ => vregs d 1
  | .ffmaF16x2 _ _ d _ _ => vregs d 1
  | .faddBf16x2 _ _ d _ _ => vregs d 1
  | .fmulBf16x2 _ _ d _ _ => vregs d 1
  | .ffmaBf16x2 _ _ d _ _ => vregs d 1
  | .cvt _ _ d _ f => vregs d (if f.toNat % 10 = 0 then 2 else 1)
  | .cvtq _ _ d _ _ => vregs d 1
  | .cvtd _ _ d _ _ => vregs d 1
  | .rand _ _ d => vregs d 1
  | .ldg _ _ t _ _ w => vregs t (widthRegs w)
  | .ldgAcq _ _ t _ _ w => vregs t (widthRegs w)
  | .lds _ _ t _ _ w => vregs t (widthRegs w)
  | .atomg h _ t _ _ _ => vregs t h.atomRegs
  | .atoms h _ t _ _ => vregs t h.atomRegs
  | .accread _ _ d _ _ => vregs d 2
  | .rld _ _ t _ _ => vregs t 1
  | .rstat _ _ d => vregs d 1
  | _ => []

/-- The scalar registers that an instruction names, broadcast operands among them (R59, R64). -/
def Instr.sregs : Instr → List Nat
  | .jmask _ _ s => [s.toNat]
  | .jarr _ _ s => [s.toNat]
  | .jload _ _ s => [s.toNat]
  | .pget _ _ s _ => [s.toNat]
  | .sget _ d _ => [d.toNat]
  | .sset _ a _ => [a.toNat]
  | .clkScalar _ d => [d.toNat]
  | .sadd _ d a b => [d.toNat] ++ [a.toNat] ++ [b.toNat]
  | .ssub _ d a b => [d.toNat] ++ [a.toNat] ++ [b.toNat]
  | .smul _ d a b => [d.toNat] ++ [a.toNat] ++ [b.toNat]
  | .smulhN _ d a b => [d.toNat] ++ [a.toNat] ++ [b.toNat]
  | .smulhI _ d a b => [d.toNat] ++ [a.toNat] ++ [b.toNat]
  | .sand _ d a b => [d.toNat] ++ [a.toNat] ++ [b.toNat]
  | .sor _ d a b => [d.toNat] ++ [a.toNat] ++ [b.toNat]
  | .sxor _ d a b => [d.toNat] ++ [a.toNat] ++ [b.toNat]
  | .sandn _ d a b => [d.toNat] ++ [a.toNat] ++ [b.toNat]
  | .sshl _ d a b => [d.toNat] ++ [a.toNat] ++ [b.toNat]
  | .sshrN _ d a b => [d.toNat] ++ [a.toNat] ++ [b.toNat]
  | .sshrI _ d a b => [d.toNat] ++ [a.toNat] ++ [b.toNat]
  | .sminI _ d a b => [d.toNat] ++ [a.toNat] ++ [b.toNat]
  | .smaxI _ d a b => [d.toNat] ++ [a.toNat] ++ [b.toNat]
  | .sminN _ d a b => [d.toNat] ++ [a.toNat] ++ [b.toNat]
  | .smaxN _ d a b => [d.toNat] ++ [a.toNat] ++ [b.toNat]
  | .sadda _ d a b => [d.toNat] ++ [a.toNat] ++ [b.toNat]
  | .smov _ d a => [d.toNat] ++ [a.toNat]
  | .spopc _ d a => [d.toNat] ++ [a.toNat]
  | .saddi _ d a _ => [d.toNat] ++ [a.toNat]
  | .sshli _ d a _ => [d.toNat] ++ [a.toNat]
  | .sli _ d _ => [d.toNat]
  | .scmp _ _ a b _ => [a.toNat] ++ [b.toNat]
  | .saddai _ d a _ => [d.toNat] ++ [a.toNat]
  | .sld _ d a _ _ => [d.toNat] ++ [a.toNat]
  | .sldp _ d a _ => [d.toNat] ++ [a.toNat]
  | .sst _ d a _ _ => [d.toNat] ++ [a.toNat]
  | .sstp _ d a _ => [d.toNat] ++ [a.toNat]
  | .sldparam _ d _ _ => [d.toNat]
  | .sfirst _ d _ => [d.toNat]
  | .iadd _ _ _ _ b => bcast b
  | .isub _ _ _ _ b => bcast b
  | .imulLo _ _ _ _ b => bcast b
  | .imulhI32 _ _ _ _ b => bcast b
  | .imulhN32 _ _ _ _ b => bcast b
  | .imad h _ d _ b => bcast b ++ bcast (h.third d)
  | .iand _ _ _ _ b => bcast b
  | .ior _ _ _ _ b => bcast b
  | .ixor _ _ _ _ b => bcast b
  | .ishl _ _ _ _ b => bcast b
  | .ishrN _ _ _ _ b => bcast b
  | .ishrI _ _ _ _ b => bcast b
  | .iminI32 _ _ _ _ b => bcast b
  | .imaxI32 _ _ _ _ b => bcast b
  | .iminN32 _ _ _ _ b => bcast b
  | .imaxN32 _ _ _ _ b => bcast b
  | .iadd64 _ _ _ _ b => bcast b
  | .imadw h _ d _ b => bcast b ++ bcast (h.third d)
  | .icmp _ _ _ _ _ b => bcast b
  | .isel _ _ _ _ b => bcast b
  | .ibfe _ _ _ _ b => bcast b
  | .ibfi h _ d _ b => bcast b ++ bcast (h.third d)
  | .idivI32 _ _ _ _ b => bcast b
  | .idivN32 _ _ _ _ b => bcast b
  | .iremI32 _ _ _ _ b => bcast b
  | .iremN32 _ _ _ _ b => bcast b
  | .vshfl _ _ _ _ b => bcast b
  | .vfirst h _ _ _ => h.scalarDest
  | .vbcast h _ _ _ _ => h.scalarDest
  | .vred h _ _ _ _ => h.scalarDest
  | .faddF32 _ _ _ _ b => bcast b
  | .fsubF32 _ _ _ _ b => bcast b
  | .fmulF32 _ _ _ _ b => bcast b
  | .ffmaF32 h _ d _ b => bcast b ++ bcast (h.third d)
  | .fminF32 _ _ _ _ b => bcast b
  | .fmaxF32 _ _ _ _ b => bcast b
  | .fcmpF32 _ _ _ _ _ b => bcast b
  | .fdivF32 _ _ _ _ b => bcast b
  | .faddF64 _ _ _ _ b => bcast b
  | .fsubF64 _ _ _ _ b => bcast b
  | .fmulF64 _ _ _ _ b => bcast b
  | .ffmaF64 h _ d _ b => bcast b ++ bcast (h.third d)
  | .fminF64 _ _ _ _ b => bcast b
  | .fmaxF64 _ _ _ _ b => bcast b
  | .fcmpF64 _ _ _ _ _ b => bcast b
  | .fdivF64 _ _ _ _ b => bcast b
  | .faddF16x2 _ _ _ _ b => bcast b
  | .fmulF16x2 _ _ _ _ b => bcast b
  | .ffmaF16x2 h _ d _ b => bcast b ++ bcast (h.third d)
  | .faddBf16x2 _ _ _ _ b => bcast b
  | .fmulBf16x2 _ _ _ _ b => bcast b
  | .ffmaBf16x2 h _ d _ b => bcast b ++ bcast (h.third d)
  | .ldg _ _ _ _ b _ => [b.toNat]
  | .stg _ _ _ _ b _ => [b.toNat]
  | .ldgAcq _ _ _ _ b _ => [b.toNat]
  | .stgRel _ _ _ _ b _ => [b.toNat]
  | .atomg h _ _ _ b _ => h.extBcast ++ [b.toNat]
  | .redg _ _ _ _ b _ => [b.toNat]
  | .redgDet _ _ _ _ b _ => [b.toNat]
  | .atoms h _ _ _ _ => h.extBcast
  | .fencer _ _ _ a b => [a.toNat] ++ [b.toNat]
  | .barArrive _ _ s => [s.toNat]
  | .barWait _ _ s => [s.toNat]
  | .barArrwait _ _ s => [s.toNat]
  | .barCredit _ _ s _ => [s.toNat]
  | .pfg _ _ _ b _ => [b.toNat]
  | .copy _ _ c t => [c.toNat] ++ [t.toNat]
  | .mma _ _ c t _ _ _ _ => [c.toNat] ++ [t.toNat]
  | .accctlSave _ _ c _ => [c.toNat]
  | .accctlLoad _ _ c _ => [c.toNat]
  | .accctlOvf _ _ d _ => [d.toNat]
  | .rld _ _ _ _ b => [b.toNat]
  | .rst _ _ _ _ b _ => [b.toNat]
  | _ => []

/-- The accumulator tile that an instruction names (R66). -/
def Instr.tiles : Instr → List Nat
  | .accread _ _ _ _ t => [t.toNat]
  | .accwrite _ _ _ _ t => [t.toNat]
  | .apatch _ _ _ _ _ _ t => [t.toNat]
  | .accctlClear _ _ t => [t.toNat]
  | .accctlSave _ _ _ t => [t.toNat]
  | .accctlLoad _ _ _ t => [t.toNat]
  | .accctlWait _ _ t => [t.toNat]
  | .accctlOvf _ _ _ t => [t.toNat]
  | _ => []

/-- The instruction writes a scalar register, or FPSTAT, and needs a full sheaf (R37, R68). -/
def Instr.needsFull : Instr → Bool
  | .jmask _ _ _ => true
  | .jarr _ _ _ => true
  | .pget _ _ _ _ => true
  | .sget _ _ _ => true
  | .sset _ _ _ => true
  | .clkScalar _ _ => true
  | .sadd _ _ _ _ => true
  | .ssub _ _ _ _ => true
  | .smul _ _ _ _ => true
  | .smulhN _ _ _ _ => true
  | .smulhI _ _ _ _ => true
  | .sand _ _ _ _ => true
  | .sor _ _ _ _ => true
  | .sxor _ _ _ _ => true
  | .sandn _ _ _ _ => true
  | .sshl _ _ _ _ => true
  | .sshrN _ _ _ _ => true
  | .sshrI _ _ _ _ => true
  | .sminI _ _ _ _ => true
  | .smaxI _ _ _ _ => true
  | .sminN _ _ _ _ => true
  | .smaxN _ _ _ _ => true
  | .sadda _ _ _ _ => true
  | .smov _ _ _ => true
  | .spopc _ _ _ => true
  | .saddi _ _ _ _ => true
  | .sshli _ _ _ _ => true
  | .sli _ _ _ => true
  | .saddai _ _ _ _ => true
  | .sld _ _ _ _ _ => true
  | .sldp _ _ _ _ => true
  | .sldparam _ _ _ _ => true
  | .sfirst _ _ _ => true
  | .vfirst h _ _ _ => !h.scalarDest.isEmpty
  | .vbcast h _ _ _ _ => !h.scalarDest.isEmpty
  | .vred h _ _ _ _ => !h.scalarDest.isEmpty
  | .accctlOvf _ _ _ _ => true
  | _ => false

/-- The instruction must carry E = 1 (R32). -/
def Instr.mustEnd : Instr → Bool
  | .bra _ _ _ => true
  | .call _ _ _ => true
  | .ret _ _ => true
  | .exit _ _ => true
  | .exitQ _ _ => true
  | .yield _ _ => true
  | .tret _ _ => true
  | .brx _ _ _ => true
  | .callx _ _ _ => true
  | .bkpt _ _ _ => true
  | .trap _ _ _ => true
  | .jwait _ _ => true
  | .reggrow _ _ => true
  | .barWait _ _ _ => true
  | .barArrwait _ _ _ => true
  | .rend _ _ => true
  | .rabort _ _ _ => true
  | _ => false

/-- The instruction is withheld when its run has raised an enabled FP exception (R88). -/
def Instr.withheld : Instr → Bool
  | .exit _ _ => true
  | .exitQ _ _ => true
  | .yield _ _ => true
  | .tret _ _ => true
  | .bkpt _ _ _ => true
  | .trap _ _ _ => true
  | .jwait _ _ => true
  | .reggrow _ _ => true
  | .barWait _ _ _ => true
  | .barArrwait _ _ _ => true
  | .rend _ _ => true
  | .rabort _ _ _ => true
  | _ => false

/-- The instruction is legal inside an atomic region (R140). -/
def Instr.regionLegal : Instr → Bool
  | .bra _ _ _ => true
  | .nop _ _ => true
  | .pand _ _ _ _ _ => true
  | .por _ _ _ _ _ => true
  | .pxor _ _ _ _ _ => true
  | .pandn _ _ _ _ _ => true
  | .pnot _ _ _ _ => true
  | .pmov _ _ _ _ => true
  | .vgetThread _ _ _ _ => true
  | .iadd _ _ _ _ _ => true
  | .isub _ _ _ _ _ => true
  | .imulLo _ _ _ _ _ => true
  | .imulhI32 _ _ _ _ _ => true
  | .imulhN32 _ _ _ _ _ => true
  | .imad _ _ _ _ _ => true
  | .iand _ _ _ _ _ => true
  | .ior _ _ _ _ _ => true
  | .ixor _ _ _ _ _ => true
  | .ishl _ _ _ _ _ => true
  | .ishrN _ _ _ _ _ => true
  | .ishrI _ _ _ _ _ => true
  | .iminI32 _ _ _ _ _ => true
  | .imaxI32 _ _ _ _ _ => true
  | .iminN32 _ _ _ _ _ => true
  | .imaxN32 _ _ _ _ _ => true
  | .iadd64 _ _ _ _ _ => true
  | .imadw _ _ _ _ _ => true
  | .icmp _ _ _ _ _ _ => true
  | .isel _ _ _ _ _ => true
  | .ibit _ _ _ _ _ => true
  | .ibfe _ _ _ _ _ => true
  | .ibfi _ _ _ _ _ => true
  | .idivI32 _ _ _ _ _ => true
  | .idivN32 _ _ _ _ _ => true
  | .iremI32 _ _ _ _ _ => true
  | .iremN32 _ _ _ _ _ => true
  | .iaddi _ _ _ _ _ => true
  | .ishli _ _ _ _ _ => true
  | .ishriN _ _ _ _ _ => true
  | .ishriI _ _ _ _ _ => true
  | .faddF32 _ _ _ _ _ => true
  | .fsubF32 _ _ _ _ _ => true
  | .fmulF32 _ _ _ _ _ => true
  | .ffmaF32 _ _ _ _ _ => true
  | .fminF32 _ _ _ _ _ => true
  | .fmaxF32 _ _ _ _ _ => true
  | .fcmpF32 _ _ _ _ _ _ => true
  | .ffunF32 _ _ _ _ _ => true
  | .fdivF32 _ _ _ _ _ => true
  | .faddF64 _ _ _ _ _ => true
  | .fsubF64 _ _ _ _ _ => true
  | .fmulF64 _ _ _ _ _ => true
  | .ffmaF64 _ _ _ _ _ => true
  | .fminF64 _ _ _ _ _ => true
  | .fmaxF64 _ _ _ _ _ => true
  | .fcmpF64 _ _ _ _ _ _ => true
  | .ffunF64 _ _ _ _ _ => true
  | .fdivF64 _ _ _ _ _ => true
  | .faddF16x2 _ _ _ _ _ => true
  | .fmulF16x2 _ _ _ _ _ => true
  | .ffmaF16x2 _ _ _ _ _ => true
  | .faddBf16x2 _ _ _ _ _ => true
  | .fmulBf16x2 _ _ _ _ _ => true
  | .ffmaBf16x2 _ _ _ _ _ => true
  | .cvt _ _ _ _ _ => true
  | .cvtq _ _ _ _ _ => true
  | .cvtd _ _ _ _ _ => true
  | .rld _ _ _ _ _ => true
  | .rst _ _ _ _ _ _ => true
  | .rend _ _ => true
  | .rabort _ _ _ => true
  | .rstat _ _ _ => true
  | _ => false

end Sys2Proof
end

