-- ==== Sys2Proof/Machine/RegionOps.lean ====
section
/-! DEFINITION. The state of atomic regions: opening and aborting them, and the tags of registers (R139-R151). -/

namespace Sys2Proof.Machine

/-- A region as rbegin opens it (R139). -/
def Region.opened (fallback : Word) : Region :=
  { fallback := fallback, count := 0, inputs := [], lines := [], cons := [], stores := [], tags := [] }

/-- rstat after a region's end (R151). -/
def rstatValue (cause detail count : Nat) : Word := BitVec.ofNat 32 (cause + 2 ^ 8 * (detail % 256) + 2 ^ 16 * count)

/-- A thread's region aborts (R150). -/
def Lane.abort (t : Lane) (cause detail : Nat) : Lane :=
  match t.region with
  | none => t
  | some r => { t with region := none, rstat := rstatValue cause detail r.count, pc := r.fallback }

/-- The lanes with an open region. -/
def Gang.inRegion (G : Gang) : BitVec 32 := maskOf fun l => (G.lane l).region.isSome

/-- The regions of lanes abort, and the lanes leave the run at their fallback PCs (R150). -/
def Gang.abort (G : Gang) (m : BitVec 32) (cause : Nat) (detail : Nat → Nat) : Gang :=
  (G.modLanes m fun l t => t.abort cause (detail l)).settle (m &&& G.inRegion)

/-- The region aborts that are logged (R157). -/
def loggedAbort (cause : Nat) : Bool := decide (cause = 0x32 ∨ cause = 0x33 ∨ cause = 0x40 ∨ cause = 0x50)

/-- The regions of lanes of a gang abort, with the recorder's entry where R157 asks for one. DESIGN CHOICE (log 48): the lanes
that abort together at one instruction take one trap entry. -/
def State.abortRegions (s : State) (u g : Nat) (m : BitVec 32) (cause : Nat) (detail : Nat → Nat) : State :=
  match s.gang? u g with
  | none => s
  | some G =>
    if m &&& G.inRegion = 0 then s
    else
      let s := if loggedAbort cause then s.logTrap u g cause else s
      s.modGang u g fun G => G.abort m cause detail

/-- The next logged trap of a gang in replay, when it stands at the words executed so far (R383, R395). -/
def State.loggedTrap (s : State) (u g : Nat) : Option Nat :=
  match s.replayChunk u g, (s.gang? u g).bind (·.chunk) with
  | some (_, x), some c => match (x.traps.drop c.traps.length).head? with
    | some y => if y.1 = c.count then some y.2 else none
    | none => none
  | _, _ => none

/-- In replay, the regions that were logged as aborted by a pre-emption here abort, whether or not one recurs (R157). -/
def State.abortLogged (s : State) (u g : Nat) : State :=
  if s.loggedTrap u g = some 0x40 then
    s.abortRegions u g (((s.gang? u g).map Gang.inRegion).getD 0) 0x40 fun _ => 0
  else s

/-- A region changed. -/
def Lane.modRegion (t : Lane) (f : Region → Region) : Lane := { t with region := t.region.map f }

/-- The tag of a vector register (R142). -/
def Lane.tag (t : Lane) (reg : Nat) : Option RTag := t.region.bind fun r => r.tags.find? fun x => decide (x.reg = reg)

/-- The tag of a source code; a broadcast has none (R142). -/
def Lane.tagOf (t : Lane) (c : BitVec 7) : Option RTag := if c.toNat < 112 then t.tag c.toNat else none

/-- A register's tag removed. -/
def Lane.clearTag (t : Lane) (reg : Nat) : Lane :=
  t.modRegion fun r => { r with tags := r.tags.filter fun x => decide (x.reg ≠ reg) }

/-- A register's tag set. -/
def Lane.setTag (t : Lane) (reg k : Nat) (c : Word) : Lane :=
  t.modRegion fun r => { r with tags := { reg := reg, k := k, c := c } :: r.tags.filter fun x => decide (x.reg ≠ reg) }

/-- An input made rigid (R142). -/
def Lane.makeRigid (t : Lane) (k : Nat) : Lane :=
  t.modRegion fun r => { r with inputs := r.inputs.mapIdx fun i x => if i = k then { x with rigid := true } else x }

/-- The inputs of tagged registers made rigid (R142): the tags are those that t0 holds. -/
def Lane.rigidRegs (t t0 : Lane) (regs : List Nat) : Lane :=
  regs.foldl (fun t r => match t0.tag r with | some x => t.makeRigid x.k | none => t) t

/-- One tagged operand of an addition: the destination's tag (R142). -/
def Lane.addTags (t t0 : Lane) (d a b : BitVec 7) (x y : Word) (sub : Bool) : Lane :=
  match t0.tagOf a, t0.tagOf b with
  | some ta, none => t.setTag d.toNat ta.k (if sub then ta.c - y else ta.c + y)
  | none, some tb => if sub then (t.makeRigid tb.k).clearTag d.toNat else t.setTag d.toNat tb.k (tb.c + x)
  | some ta, some tb => ((t.makeRigid ta.k).makeRigid tb.k).clearTag d.toNat
  | none, none => t.clearTag d.toNat

end Sys2Proof.Machine

namespace Sys2Proof
open Machine

/-- The second registers of the pairs that an F64 slot makes of cvtq's destination and cvtd's source (R261, R262):
sources, then destinations. -/
def Instr.slotRegs (i : Instr) (slots : List (Option SlotDesc)) : List Nat × List Nat :=
  let f64 (x : BitVec 3) : Bool := match slots.getD x.toNat none with | some d => decide (d.fmt = 1) | none => false
  match i with
  | .cvtq _ _ d _ x => if f64 x then ([], vregs d 2) else ([], [])
  | .cvtd _ _ _ a x => if f64 x then (vregs a 2, []) else ([], [])
  | _ => ([], [])

/-- What an executed instruction does to the tags of a thread in a region (R142): t is the thread after its effect, G
the gang before it. Instructions with a rule of their own (rld, rst, icmp, the region ends) set tags themselves. -/
def Instr.tagEffect (i : Instr) (slots : List (Option SlotDesc)) (G : Gang) (l : Nat) (t : Lane) : Lane :=
  let t0 := G.lane l
  match i with
  | .iadd _ _ d a b => t.addTags t0 d a b (G.src a l) (G.src b l) false
  | .isub _ _ d a b => t.addTags t0 d a b (G.src a l) (G.src b l) true
  | .iaddi h _ d a imm =>
    match t0.tagOf a with
    | some x => t.setTag d.toNat x.k (x.c + BitVec.ofInt 32 (h.immOf imm true))
    | none => t.clearTag d.toNat
  | .rld _ _ _ _ _ => t
  | .rst _ _ _ _ _ _ => t
  | .icmp _ _ _ _ _ _ => t
  | .rbegin _ _ _ => t
  | .rend _ _ => t
  | .rabort _ _ _ => t
  | i => (i.vdsts ++ (i.slotRegs slots).2).foldl (fun t r => t.clearTag r)
      (t.rigidRegs t0 (i.vsrcs ++ (i.slotRegs slots).1))

end Sys2Proof

namespace Sys2Proof.Machine

/-- An icmp that would record a constraint in a thread (R143): exactly one operand is tagged. -/
def Lane.wouldConstrain (t : Lane) (a b : BitVec 7) : Bool := (t.tagOf a).isSome != (t.tagOf b).isSome

/-- What icmp does to a thread's region (R143): x and y are the operands, r the result. -/
def Lane.constrain (t : Lane) (a b : BitVec 7) (cond : BitVec 4) (x y : Word) (r : Bool) : Lane :=
  match t.tagOf a, t.tagOf b with
  | some ta, none => t.modRegion fun R =>
      { R with cons := R.cons ++ [{ k := ta.k, c := ta.c, cond := cond, u := y, tagFirst := true, result := r }] }
  | none, some tb => t.modRegion fun R =>
      { R with cons := R.cons ++ [{ k := tb.k, c := tb.c, cond := cond, u := x, tagFirst := false, result := r }] }
  | some ta, some tb => (t.makeRigid ta.k).makeRigid tb.k
  | none, none => t

/-- A constraint holds for a value of its input (R143). -/
def RConstraint.holds (q : RConstraint) (x : Word) : Bool :=
  (if q.tagFirst then compareInt q.cond.toNat (x + q.c) q.u else compareInt q.cond.toNat q.u (x + q.c)) == q.result

end Sys2Proof.Machine
end

