-- ==== Sys2Proof/Machine/Trace.lean ====
section
/-! DEFINITION. Trace buffers (R323, R328, R399) and the barrier checker (R400). -/

namespace Sys2Proof.Machine

/-- The trace buffer's records beside its header (R399). -/
def Launch.traceSlots (L : Launch) : Nat := L.r.traceLen / 512 - 1

/-- A trace write cannot be made: a translation fault suspends the trace, a Permission failure ends it (R399). -/
def State.traceFailed (s : State) (a : Nat) (x : Place) : State :=
  s.modLaunch a fun L => match x with
    | .fault _ _ _ => { L with traceSuspended := true, traceSusp := L.traceSusp + 1 }
    | _ => { L with traceEnded := true }

/-- The header of a trace buffer: records written, records lost, suspensions (R399). -/
def State.traceHeader (s : State) (a : Nat) : State :=
  match s.launch? a with
  | none => s
  | some L =>
    if L.r.traceLen < 512 ∨ L.traceSuspended ∨ L.traceEnded then s
    else
      match s.virtCheck L.part L.r.trace.toNat 512 ⟨false, true, false⟩ with
      | some (_, x) => s.traceFailed a x
      | none => s.virtWrite L.part L.r.trace.toNat
          (bytesOf 8 L.traceNext ++ bytesOf 8 L.traceLost ++ bytesOf 8 L.traceSusp ++ List.replicate 488 0)

/-- A record of a launch's trace, padded with zeros to 512 bytes (R399). -/
def State.trace (s : State) (a : Nat) (bs : List Byte) : State :=
  match s.launch? a with
  | none => s
  | some L =>
    if L.r.trace = 0 then s
    else if L.traceSuspended ∨ L.traceEnded ∨ L.traceSlots = 0 then
      (s.modLaunch a fun L => { L with traceLost := L.traceLost + 1 }).traceHeader a
    else
      let va := (L.r.trace.toNat + 512 + 512 * (L.traceNext % L.traceSlots)) % 2 ^ 72
      match s.virtCheck L.part va 512 ⟨false, true, false⟩ with
      | some (_, x) => (s.traceFailed a x).modLaunch a fun L => { L with traceLost := L.traceLost + 1 }
      | none =>
        ((s.virtWrite L.part va (bs ++ List.replicate (512 - bs.length) 0)).modLaunch a fun L =>
          { L with traceNext := L.traceNext + 1 }).traceHeader a

/-- The record of an undelivered Watchpoint (R328, kind 2). -/
def State.traceWatch (s : State) (u g lane : Nat) (tpc : Word) (addr info : Dword) : State :=
  match s.block? u with
  | none => s
  | some b => s.trace b.launch (bytesOf 4 2 ++ bytesOf 2 b.core ++ bytesOf 1 (g % 4) ++ bytesOf 1 0 ++ bytesOf 8 s.time
      ++ bytesOf 8 b.lin ++ bytesOf 1 g ++ bytesOf 1 lane ++ bytesOf 6 0
      ++ bytesOf 8 tpc.toNat ++ bytesOf 8 addr.toNat ++ bytesOf 8 info.toNat)

/-- A thread waits on a barrier object. -/
def Lane.waitsOn (t : Lane) (off : Nat) : Bool :=
  match t.st with | .blocked (.bar o _ _ _) => decide (o = off) | _ => false

/-- How many threads of a block wait on a barrier object. -/
def Block.waiters (b : Block) (off : Nat) : Nat :=
  (b.gangs.map fun G => (G.lanes.toList.filter fun t => t.waitsOn off).length).sum

/-- The object on which the lowest-lane waiting thread of the lowest gang waits (R400). -/
def Block.firstWaited (b : Block) : Option Nat :=
  b.gangs.findSome? fun G => G.lanes.toList.findSome? fun t =>
    match t.st with | .blocked (.bar o _ _ _) => some o | _ => none

/-- The barrier checker's record, once for an object, gang and phase (R400, kind 3). -/
def State.barCheck (s : State) (u g cond off : Nat) (lanes : BitVec 32) : State :=
  match s.block? u, s.launchOf u, s.gang? u g with
  | some b, some L, some G =>
    let phase := readLE b.spad (off + 12) 4
    if !L.r.debug || decide (L.r.trace = 0) || G.checked.any (fun x => decide (x = (off, phase))) then s
    else
      (s.modGang u g fun G => { G with checked := (off, phase) :: G.checked }).trace b.launch
        (bytesOf 4 3 ++ bytesOf 2 b.core ++ bytesOf 1 (g % 4) ++ bytesOf 1 cond ++ bytesOf 8 s.time ++ bytesOf 8 b.lin
          ++ bytesOf 1 g ++ bytesOf 3 0 ++ bytesOf 4 off ++ bytesOf 4 G.live.toNat ++ bytesOf 4 lanes.toNat
          ++ bytesOf 4 (readLE b.spad off 4) ++ bytesOf 4 (readLE b.spad (off + 4) 4) ++ bytesOf 4 phase
          ++ bytesOf 4 (b.waiters off))
  | _, _, _ => s

end Sys2Proof.Machine
end

