-- ==== Sys2Proof/Machine/Ops.lean ====
section
/-! DEFINITION. The shared operations of the device: exits and the completion of blocks, taking an exception and
returning from one (R325-R331, R187), the end of a run (R31, R88), and the issue of one instruction (R29-R37). -/

namespace Sys2Proof.Machine

/-! ### Exits, blocks and launches -/

/-- The threads of a mask become eligible. -/
def Gang.wake (G : Gang) (m : BitVec 32) : Gang := G.modLanes m fun _ t => { t with st := .eligible }

/-- jquit of set j for the lanes of b (R49). -/
def Gang.jquit (G : Gang) (j : Nat) (b : BitVec 32) : Gang :=
  let m := G.m j &&& ~~~b
  let a := G.a j &&& ~~~b
  if a = m ∧ a ≠ 0 then ((G.setM j m).setA j 0).wake a else (G.setM j m).setA j a

/-- Every set is quit, in ascending order (R53). -/
def Gang.quitAll (G : Gang) (b : BitVec 32) : Gang := (List.range 16).foldl (fun G j => G.jquit j b) G

/-- The threads of a mask become Exited (R25, R184). -/
def Gang.exitLanes (G : Gang) (b : BitVec 32) : Gang :=
  (G.modLanes b fun _ t => { t with st := .exited, region := none }).settle b

/-- Nothing is on its way to the gang's registers (R73). -/
def Gang.settled (G : Gang) : Bool := G.resp.isEmpty && G.mau.isEmpty && G.tokens.isEmpty && G.accRegs.isEmpty

/-- The virtual core of a block (R6, R67). -/
def vcoreOf (lin : Nat) : Nat := lin % 1024

/-- An entry joins the list of the 64 lowest blocks with a SPFAULT mask (R315). -/
def insertFault (x : Nat × List Word) : List (Nat × List Word) → List (Nat × List Word)
  | [] => [x]
  | y :: t => if x.1 < y.1 then x :: y :: t else y :: insertFault x t

/-- The SEQ counters that a block's virtual core carries on (R8). -/
def Block.seqs (b : Block) : List (Nat × Nat) :=
  b.gangs.flatMap fun G => (List.range 32).filterMap fun l =>
    if (G.lane l).seq = 0 then none else some ((vcoreOf b.lin * 32 + G.idx) * 32 + l, (G.lane l).seq)

/-- A block's SPFAULT masks are reported (R104, R315). -/
def Launch.noteFaults (L : Launch) (b : Block) : Launch :=
  let masks := b.gangs.map (·.spfault)
  if masks.any (fun m => decide (m ≠ 0)) then
    { L with spcount := L.spcount + 1, spfaults := (insertFault (b.lin, masks) L.spfaults).take 64 }
  else L

/-- A block completes (R22): its core's resources are free, its SPFAULT masks are reported (R104). -/
def State.completeBlock (s : State) (b : Block) : State :=
  let s := s.modLaunch b.launch fun L => { L.noteFaults b with
    done := L.done + 1,
    vcBusy := L.vcBusy.filter fun v => decide (v ≠ vcoreOf b.lin),
    seqs := if L.r.det then b.seqs ++ L.seqs.filter (fun e => decide (e.1 / 1024 ≠ vcoreOf b.lin)) else L.seqs }
  { s with
    blocks := s.blocks.filter fun x => decide (x.uid ≠ b.uid),
    holders := s.holders.filter fun h => decide (h.2.2.2.1 ≠ b.uid),
    cur := match s.cur with | some (u, g) => if u = b.uid then none else some (u, g) | none => none }

/-- A block whose gangs have drained and whose jobs have completed completes (R22). -/
def State.checkBlock (s : State) (u : Nat) : State :=
  match s.block? u with
  | none => s
  | some b => if b.gangs.all (·.drained) && b.jobs.isEmpty then s.completeBlock b else s

/-- The last exit of a gang (R73, R382): its chunk ends; it drains by an event of its own. -/
def State.retireGang (s : State) (u g : Nat) : State :=
  match s.gang? u g with
  | none => s
  | some G =>
    if G.live ≠ 0 ∨ G.drained then s
    else
      (s.endChunk u g 2 none []).modGang u g fun G =>
        { G with sheaf := none, events := [], grow := none, evicted := false, parked := none, away := [] }

/-- Every thread of a gang ends, with its launch (R327). -/
def Gang.terminated (G : Gang) : Gang :=
  { (G.modLanes (BitVec.allOnes 32) fun _ t => { t with st := .exited, region := none }) with
    sheaf := none, events := [], tokens := [], accRegs := [], grow := none, evicted := false }

/-- A launch ends early with a status (R327, R312, R220, R294, R338): its jobs and its pending updates are discarded, and
its threads end at their next run boundary, which is now for a gang without a sheaf and for a saved block. A run that a stop
had cut goes on to its boundary. -/
def State.endLaunch (s : State) (a status : Nat) : State :=
  let s := match s.launch? a with | some L => s.writeSaved L 2 | none => s
  let s := s.modLaunch a fun L =>
    { L.saved.foldl (fun M x => M.noteFaults x.1) L with
      status := if L.status = 0 then status else L.status, inflight := [], held := [], saved := [] }
  (s.blocks.filter fun b => decide (b.launch = a)).foldl (fun s b =>
    let s := s.modBlock b.uid fun b => { b with jobs := [], stop := none, parked := false }
    let s := b.gangs.foldl (fun s G =>
      if G.sheaf.isSome then s.modGang b.uid G.idx fun G => { G with tokens := [], accRegs := [], cut := false }
      else (s.modGang b.uid G.idx Gang.terminated).retireGang b.uid G.idx) s
    s.checkBlock b.uid) s

/-- The parked accesses of a killed launch are discarded, and with them the runs that wait on them (R351). -/
def State.discardParked (s : State) (a : Nat) : State :=
  (s.blocks.filter fun b => decide (b.launch = a)).foldl (fun s b =>
    (b.gangs.foldl (fun s G => match G.parked with
      | some x => if x.kind = 0 then (s.modGang b.uid G.idx Gang.terminated).retireGang b.uid G.idx else s
      | none => s) s).checkBlock b.uid) s

/-- A trap ends the launch (R327). -/
def State.endByTrap (s : State) (a : Nat) (f : FaultRec) : State :=
  (s.modLaunch a fun L => { L with fault := match L.fault with | some x => some x | none => some f }).endLaunch a 7

/-! ### Taking an exception (R325-R330) -/

/-- No handler is set (R328). -/
def noHandler : Word := 0xFFFFFFFF#32

/-- A thread takes a trap (R325): the trap registers, the resume PC, handler state, the handler's PC. -/
def Lane.enter (t : Lane) (handler : Word) (cause : Nat) (tpc : Word) (addr info : Dword) (resume : Word) : Lane :=
  { t with tcause := BitVec.ofNat 64 cause, tpc := tpc.setWidth 64, taddr := addr, tinfo := info, handler := true,
           resume := resume, pc := handler }

/-- A cause of kind S is delivered to the threads of a mask (R325-R328): a region aborts first (R153), with detail in
rstat; without a handler, or for a thread in handler state, the launch ends. -/
def State.deliver (s : State) (u g : Nat) (m : BitVec 32) (cause detail : Nat) (tpc resume : Nat → Word)
    (addr info : Dword) : State :=
  match s.block? u, s.launchOf u, s.gang? u g with
  | some b, some L, some G =>
    if m = 0 then s
    else
      let s := s.abortRegions u g m (if cause = 0x10 then 0x33 else 0x32) (fun _ => detail)
      let s := s.logTrap u g cause
      if decide (L.r.handler = noHandler) || (lanesOf m).any (fun l => (G.lane l).handler) then
        s.endByTrap b.launch { cause := cause, lin := b.lin, gang := g, lane := lowest m,
                               tpc := (tpc (lowest m)).setWidth 64, taddr := addr, tinfo := info }
      else
        s.modGang u g fun G' => (G'.modLanes m fun l t =>
          t.enter L.r.handler cause (tpc l) addr info
            (match (G.lane l).region with | some r => r.fallback | none => resume l)).settle m
  | _, _, _ => s

/-- The jobs frozen for a Watchpoint that has been delivered to threads of a gang resume at their freeze point (R326,
R334). -/
def State.releaseFrozen (s : State) (u g : Nat) (m : BitVec 32) : State :=
  match s.gang? u g with
  | none => s
  | some G => s.modBlock u fun b => { b with
      jobs := b.jobs.map fun j => if j.gang = g ∧ m.getLsbD j.lane ∧ j.frozen ∧ !(G.events.any fun e => decide (e.job = some j.id)) then
        { j with frozen := false, watchPos := some j.pos } else j }

/-- An undelivered event (R328): the job of a Watchpoint continues, any other cause ends the launch. -/
def State.undelivered (s : State) (u g : Nat) (e : EngEvent) : State :=
  match s.block? u with
  | none => s
  | some b =>
    if e.cause = 0x10 then
      (s.modBlock u fun b => { b with
        jobs := b.jobs.map fun j => if e.job = some j.id then { j with frozen := false, watchPos := some j.pos } else j }).traceWatch u g e.lane e.tpc e.taddr e.tinfo
    else (s.logTrap u g e.cause).endByTrap b.launch
      { cause := e.cause, lin := b.lin, gang := g, lane := e.lane, tpc := e.tpc.setWidth 64, taddr := e.taddr, tinfo := e.tinfo }

/-- An engine event joins its gang's queue, unless it can never be delivered (R328, R329). -/
def State.queueEvent (s : State) (u g : Nat) (e : EngEvent) : State :=
  match s.gang? u g, s.launchOf u with
  | some G, some L =>
    if L.r.handler = noHandler ∨ ¬ (G.lane e.lane).live then s.undelivered u g e
    else s.modGang u g fun G => { G with events := G.events ++ [e] }
  | _, _ => s

/-- The queued events of exited threads are undelivered (R328). -/
def State.dropEvents (s : State) (u g : Nat) : State :=
  match s.gang? u g with
  | none => s
  | some G =>
    let dead := G.events.filter fun e => !(G.lane e.lane).live
    let s := s.modGang u g fun G => { G with events := G.events.filter fun e => (G.lane e.lane).live }
    dead.foldl (fun s e => s.undelivered u g e) s

/-- What follows threads' exits: their frozen jobs resume (R326), their queued events are undelivered (R328), the
barrier checker looks (R400). -/
def State.afterExit (s : State) (u g : Nat) (m : BitVec 32) : State :=
  let s := s.releaseFrozen u g (maskOf fun l =>
    m.getLsbD l && ((s.gang? u g).map fun G => (G.lane l).handler).getD false)
  let s := s.dropEvents u g
  match (s.block? u).bind Block.firstWaited with
  | some off => if m = 0 then s else s.barCheck u g 1 off m
  | none => s

/-- The phase of a barrier object (R108). -/
def Block.phase (b : Block) (off : Nat) : BitVec 32 := BitVec.ofNat 32 (readLE b.spad (off + 12) 4)

/-- A restored wait whose phase has completed while its thread was in the handler (R331). -/
def Lane.passed (t : Lane) (b : Block) : Option Nat :=
  match t.restored with
  | some (off, ph, _) => if b.phase off = ph then none else some off
  | none => none

/-- A thread in handler state returns from it (R187): a restored wait goes on unless its phase has completed (R331), which the
thread then reads as one that was released (R381). -/
def Lane.tret (t : Lane) (b : Block) (recorded : Bool) : Lane :=
  { t with woken := if recorded then (t.passed b).orElse fun _ => t.woken else t.woken,
            pc := t.resume, handler := false, tcause := 0, tpc := 0, taddr := 0, tinfo := 0, watchPass := true,
           ranSinceTret := false, restored := none,
           st := match t.restored with
             | some (off, ph, pc) => if b.phase off = ph then .blocked (.bar off ph pc true) else .eligible
             | none => t.st }

/-- The threads of a mask return from their handlers (R187), and the jobs frozen for them resume (R334). -/
def State.tret (s : State) (u g : Nat) (m : BitVec 32) : State :=
  match s.block? u with
  | none => s
  | some b => (s.modGang u g fun G => (G.modLanes m fun _ t => t.tret b G.chunk.isSome).settle m).releaseFrozen u g m

/-! ### The end of a run -/

/-- Every live thread of a gang is blocked in jwait, and no event can free one (R54, R331). -/
def Gang.deadlocked (G : Gang) : Bool :=
  decide (G.live ≠ 0) && (lanesOf G.live).all (fun l => (G.lane l).inJwait) && G.events.isEmpty

/-- The address of the instruction in which a thread waits (R39). -/
def Lane.waitPc (t : Lane) : Word :=
  match t.st with
  | .blocked (.jwait _ pc) => pc
  | .blocked (.bar _ _ pc _) => pc
  | _ => t.pc

/-- Rejoin-Deadlock (R54, R55). The spec gives no TADDR: it is an open value (log 5). -/
def State.rejoinDeadlock (s : State) (u g : Nat) : State :=
  match s.block? u, s.gang? u g with
  | some b, some G =>
    if !G.deadlocked then s
    else
      let snap := (List.range 16).map fun j => (G.m j, G.a j)
      let sets := ((List.range 16).filter fun j => decide (G.a j ≠ 0)).foldl (fun x j => x + 2 ^ j) 0
      let wait l := (G.lane l).waitPc
      let s := s.modLaunch b.launch fun L => { L with deadlock := match L.deadlock with | some x => some x | none => some snap }
      let s := s.modGang u g fun G =>
        { (G.modLanes G.live fun l t => { t with st := .eligible, pc := wait l }) with ja := Vector.replicate 16 0 }
      s.takeFree.deliver u g G.live 0x0C 0x0C wait wait s.freeVal (BitVec.ofNat 64 sets)
  | _, _ => s

/-- FP-Exception at a run boundary (R88, R89). DESIGN CHOICE (log 48): it aborts the region that a receiver has open then, also
one that an rbegin of the run opened after the selected instruction. -/
def State.fpException (s : State) (u g : Nat) (f : FpTrap) : State :=
  match s.gang? u g with
  | none => s
  | some G =>
    s.deliver u g (f.lanes &&& G.live) 0x08 0x08 (fun _ => f.pc) (fun l => (G.lane l).pc)
      (f.flags.setWidth 32 ++ f.lanes) (BitVec.ofNat 64 (f.pos * 256 + lowest f.lanes))

/-- An access of the gang waits for system software or for another device (R350, R410). -/
def Gang.isParked (G : Gang) : Bool := match G.parked with | some x => decide (x.kind ≠ 2) | none => false

/-- A gang with an eligible thread, or with a run to go on with (R42). -/
def Gang.runnable (G : Gang) : Bool := decide (G.eligible ≠ 0) || G.sheaf.isSome

/-- The gangs of a launch on a quadrant, in ascending (virtual core, gang) (R42). -/
def State.order (s : State) (a core quad : Nat) : List (Nat × Nat) :=
  let gs := (s.blocks.filter fun b => decide (b.launch = a ∧ b.core = core)).flatMap fun b =>
    (b.gangs.filter fun G => decide (G.idx % 4 = quad)).map fun G => (vcoreOf b.lin * 64 + G.idx, b.uid, G.idx)
  (sortedBy gs).map fun x => (x.2.1, x.2.2)

/-- The runnable ones among them. -/
def State.runnables (s : State) (a core quad : Nat) : List (Nat × Nat) :=
  (s.order a core quad).filter fun x => ((s.gang? x.1 x.2).map Gang.runnable).getD false

/-- The gang that holds a quadrant for a launch. -/
def State.holder (s : State) (a core quad : Nat) : Option (Nat × Nat) :=
  (s.holders.find? fun h => decide (h.1 = a ∧ h.2.1 = core ∧ h.2.2.1 = quad)).map fun h => h.2.2.2

/-- The quadrant passes to a gang, or is held by none. -/
def State.setHolder (s : State) (a core quad : Nat) (h : Option (Nat × Nat)) : State :=
  let rest := s.holders.filter fun h => decide (¬ (h.1 = a ∧ h.2.1 = core ∧ h.2.2.1 = quad))
  { s with holders := match h with | some x => (a, core, quad, x) :: rest | none => rest }

/-- A deterministic launch's quadrant passes on from a gang (R42), or to the next runnable gang after it in the order,
wrapping (R43, R44). -/
def State.passHolder (s : State) (u g : Nat) (next : Bool) : State :=
  match s.block? u, s.launchOf u with
  | some b, some L =>
    if !L.r.det then s
    else
      let q := g % 4
      let run := s.runnables L.id b.core q
      let heir := if next then
          let all := s.order L.id b.core q
          let i := (all.findIdx? fun x => decide (x = (u, g))).getD 0
          ((all.drop (i + 1) ++ all.take i).find? fun x => decide (x ∈ run)).orElse fun _ => run.head?
        else run.head?
      (s.setHolder L.id b.core q heir).modGang u g fun G => { G with runs := 0 }
  | _, _ => s

/-- A run ends (R31): the PCs of the members that go on, FP-Exception (R88), the end of an ended launch's threads
(R327), Rejoin-Deadlock (R54), the last exit (R73), the deterministic hold (R42). -/
def State.endRun (s : State) (u g : Nat) (yielded : Bool) : State :=
  match s.gang? u g with
  | none => { s with cur := none }
  | some G =>
    match G.sheaf with
    | none => { s with cur := none }
    | some S =>
      let s := { s with cur := none }
      let s := s.modGang u g fun G =>
        { (G.modLanes G.running fun _ t => { t with pc := S.pc }) with sheaf := none, runs := G.runs + 1 }
      let s := match S.fp with | some f => s.fpException u g f | none => s
      let ended := match s.launchOf u with | some L => decide (L.status ≠ 0) | none => false
      let s := if ended then s.modGang u g Gang.terminated else (s.rejoinDeadlock u g).abortLogged u g
      let s := s.retireGang u g
      let s := match s.gang? u g with
        | some G => if yielded then s.passHolder u g true else if G.eligible = 0 then s.passHolder u g false else s
        | none => s
      s.checkBlock u

/-! ### The issue of an instruction -/

/-- What a meaning sees of the sheaf that executes it: the gang, its block and launch, the header, the address of the
group's first word and of the instruction's word, the group's words, its position in the run, the members that run,
and the active ones among them. -/
structure Ctx where
  u : Nat
  g : Nat
  B : Block
  L : Launch
  G : Gang
  h : Hdr
  pc : Word
  wpc : Word
  n : Nat
  pos : Nat
  run : BitVec 32
  act : BitVec 32

/-- What translates for the context's accesses: its quadrant (R348). -/
def Ctx.unit (c : Ctx) : TUnit := .thread c.B.core (c.g % 4)

/-- The address after the group. -/
def Ctx.after (c : Ctx) : Word := c.pc + BitVec.ofNat 32 (4 * c.n)

/-- The sheaf's members that are live: a member whose region has aborted in the run stays one (R150). -/
def Gang.members (G : Gang) : BitVec 32 := match G.sheaf with | some S => S.members &&& G.live | none => 0
def Ctx.members (c : Ctx) : BitVec 32 := c.G.members

/-- A synchronous cause: its trap registers, its receivers (every running member when none is named), whether it
resumes at the instruction itself (R333), and the DETAIL of a region that it aborts (R151). -/
structure Trap where
  cause : Nat
  addr : Dword
  info : Dword
  lanes : Option (BitVec 32)
  again : Bool
  detail : Nat

/-- What an instruction does: its effect, a synchronous cause, or a wait on the scoreboard (R29) or a parked access. -/
inductive Eff where
  | done (s : State)
  | trap (t : Trap) (s : State)
  | stall (s : State)

end Sys2Proof.Machine

namespace Sys2Proof
open Machine

/-- The cause that an instruction raises by design (R186, R188), which R88 withholds with it. -/
def Instr.ownTrap : Instr → Option Nat
  | .bkpt _ _ _ => some 0x14
  | .trap _ _ _ => some 0x15
  | .tret _ _ => some 0x15
  | _ => none

/-- A register outside the gang's budgets, or a tile outside the block's (R61, R66). -/
def Instr.exhausts (i : Instr) (G : Gang) (accn : Nat) : Bool :=
  (i.vsrcs ++ i.vdsts).any (fun r => decide (G.vb - 8 ≤ r ∧ r < 104)) || i.sregs.any (fun r => decide (G.sb ≤ r))
    || i.tiles.any (fun t => decide (accn ≤ t))

/-- A gang's accctl save, load or wait is under way: its next instruction waits for it (R287). -/
def Machine.Block.accBusy (b : Block) (g : Nat) : Bool :=
  b.jobs.any fun j => decide (j.gang = g) && match j.kind with
    | .acc _ (.save _) => true
    | .acc _ (.load _) => true
    | .acc _ .wait => true
    | _ => false

/-- A register that the instruction names waits for a write under way in a member of the sheaf (R29, R116, R210, R284). -/
def Instr.waits (i : Instr) (G : Gang) (slots : List (Option SlotDesc)) (run : BitVec 32) : Bool :=
  let vs := i.vsrcs ++ i.vdsts ++ (i.slotRegs slots).1 ++ (i.slotRegs slots).2
  G.resp.any (fun r => r.writes.any fun w => run.getLsbD w.1 && decide (w.2.1 ∈ vs))
    || G.mau.any (fun m => match m.dest with
        | some d => run.getLsbD m.lane && (decide (d ∈ vs) || (m.w64 && decide (d + 1 ∈ vs)))
        | none => false)
    || vs.any (fun r => decide (r ∈ G.accRegs)) || i.sregs.any (fun r => decide (r ∈ G.tokens))

/-- A reduction without a result on its way to its MAU: its place among others of its kind is open (R216). -/
def Machine.MauOp.relaxed (m : MauOp) : Bool := m.dest.isNone

/-- An instruction that is performed after the gang's earlier global atomics (R120, R125): it reads or writes memory,
scratchpad or a tile's place in it, or it orders such accesses. Reductions keep no order among themselves (R216, R223). -/
def Instr.awaits (i : Instr) (G : Gang) : Bool :=
  match i with
  | .sld _ _ _ _ _ => !G.mau.isEmpty
  | .sldp _ _ _ _ => !G.mau.isEmpty
  | .sst _ _ _ _ _ => !G.mau.isEmpty
  | .sstp _ _ _ _ => !G.mau.isEmpty
  | .ldg _ _ _ _ _ _ => !G.mau.isEmpty
  | .stg _ _ _ _ _ _ => !G.mau.isEmpty
  | .ldgAcq _ _ _ _ _ _ => !G.mau.isEmpty
  | .stgRel _ _ _ _ _ _ => !G.mau.isEmpty
  | .lds _ _ _ _ _ _ => !G.mau.isEmpty
  | .sts _ _ _ _ _ _ => !G.mau.isEmpty
  | .atomg _ _ _ _ _ _ => !G.mau.isEmpty
  | .redg _ _ _ _ _ _ => G.mau.any fun m => !m.relaxed
  | .redgDet _ _ _ _ _ _ => !G.mau.isEmpty
  | .atoms _ _ _ _ _ => !G.mau.isEmpty
  | .reds _ _ _ _ _ => !G.mau.isEmpty
  | .fence _ _ _ => !G.mau.isEmpty
  | .fencer _ _ _ _ _ => !G.mau.isEmpty
  | .barArrive _ _ _ => !G.mau.isEmpty
  | .barWait _ _ _ => !G.mau.isEmpty
  | .barArrwait _ _ _ => !G.mau.isEmpty
  | .barCredit _ _ _ _ => !G.mau.isEmpty
  | .copy _ _ _ _ => !G.mau.isEmpty
  | .mma _ _ _ _ _ _ _ _ => !G.mau.isEmpty
  | .accctlSave _ _ _ _ => !G.mau.isEmpty
  | .accctlLoad _ _ _ _ => !G.mau.isEmpty
  | .rld _ _ _ _ _ => !G.mau.isEmpty
  | .rst _ _ _ _ _ _ => !G.mau.isEmpty
  | .rend _ _ => !G.mau.isEmpty
  | _ => false

/-- The barrier object's register of an instruction, which is read at its issue (R230). -/
def Instr.objectReg : Instr → Option (BitVec 6)
  | .barArrive _ _ x => some x
  | .barWait _ _ x => some x
  | .barArrwait _ _ x => some x
  | .barCredit _ _ x _ => some x
  | _ => none

/-- That register is a token whose write is still to come: the instruction waits before anything is judged of it (R116). -/
def Instr.objectPending (i : Instr) (G : Gang) : Bool :=
  match i.objectReg with | some x => decide (x.toNat ∈ G.tokens) | none => false

/-- A barrier operand whose bits 71:64 are not zero is no instruction, whatever the guard (R166, R230; log 47); a register
outside the budget is not read. -/
def Machine.Ctx.badObject (c : Ctx) (x : BitVec 6) : Option Nat :=
  if x.toNat < c.G.sb ∧ (c.G.sreg x.toNat).toNat / 2 ^ 64 ≠ 0 then some 3 else none

/-- What makes an encoded word no instruction at its issue (R166): a slot (R91, R261), a barrier operand (R230), a region
instruction of a running member outside a region, whatever its guard (R156). The reason is that of R167. -/
def Instr.illegalHere (i : Instr) (c : Ctx) : Option Nat :=
  let slot (x : BitVec 3) (pair : BitVec 7) : Option Nat := match c.L.r.slots.getD x.toNat none with
    | none => some 4
    | some d => if d.fmt = 1 ∧ pair.toNat % 2 = 1 then some 4 else none
  let outside := if c.run &&& ~~~ c.G.inRegion = 0 then none else some 6
  match i with
  | .cvtq _ _ d _ x => slot x d
  | .cvtd _ _ _ a x => slot x a
  | .rld _ _ _ _ _ => outside
  | .rst _ _ _ _ _ _ => outside
  | .rend _ _ => outside
  | .rabort _ _ _ => outside
  | i => i.objectReg.bind c.badObject

end Sys2Proof

namespace Sys2Proof.Machine

/-- A cause for every member. -/
def trapAll (cause : Nat) (addr info : Dword) (s : State) : Eff :=
  .trap { cause := cause, addr := addr, info := info, lanes := none, again := false, detail := cause } s

/-- A cause whose trap registers the spec leaves open (log 5). -/
def trapOpen (cause : Nat) (s : State) : Eff := trapAll cause s.freeVal s.takeFree.freeVal s.takeFree.takeFree

/-- The gang in issue, if it has a sheaf that is not waiting for its commits. -/
def State.focus (s : State) : Option (Nat × Nat × Sheaf) :=
  match s.cur with
  | none => none
  | some (u, g) => match s.gang? u g with
    | none => none
    | some G => match G.sheaf with
      | none => none
      | some S => if S.commit.isSome then none else some (u, g, S)

/-- The context of the next group of n words of a gang's run, with a guard. -/
def State.ctx (s : State) (u g : Nat) (h : Hdr) (n : Nat) (guard : BitVec 3) : Option Ctx :=
  match s.block? u, s.launchOf u, s.gang? u g with
  | some B, some L, some G => match G.sheaf with
    | none => none
    | some S => some { u := u, g := g, B := B, L := L, G := G, h := h, pc := S.pc, wpc := S.pc + BitVec.ofNat 32 (4 * (n - 1)),
                       n := n, pos := S.pos, run := G.running, act := G.running &&& G.guardMask guard }
  | _, _, _ => none

/-- The sheaf goes on to the next group (R31), and the watch pass of its members clears, but not one that
this very instruction, a tret, has given (R333). -/
def State.move (s : State) (c : Ctx) : State :=
  s.modGang c.u c.g fun G =>
    { (G.modLanes c.run fun l t => { t with watchPass := t.watchPass && (c.G.lane l).handler && !t.handler }) with
      sheaf := G.sheaf.map fun S => { S with pc := c.after, pos := S.pos + c.n } }

/-- The sheaf goes on, and the group's words count (R169). -/
def State.advance (s : State) (c : Ctx) : State := (s.move c).countWords c.u c.g c.n

/-- A synchronous cause is delivered, on every member where it names none, and ends the run (R33); enabled FP exceptions of
the run are left in FPSTAT (R88). A member whose region has aborted in the run resumes at its fallback PC (R150, R153). -/
def State.faultRun (s : State) (c : Ctx) (t : Trap) : State :=
  let s := s.modGang c.u c.g fun G => { G with sheaf := G.sheaf.map fun S => { S with fp := none } }
  let G := (s.gang? c.u c.g).getD c.G
  let s := s.deliver c.u c.g (t.lanes.getD G.members) t.cause t.detail (fun _ => c.pc)
    (fun l => if !G.running.getLsbD l then (G.lane l).pc else if t.again then c.pc else c.after) t.addr t.info
  (s.advance c).endRun c.u c.g false

/-- An effect takes place: tags of threads in regions (R142), then the end of the run, or the quadrant's choice of the next
instruction (R30). A run whose last member a scratchpad access has terminated is over (R54, R104). DESIGN CHOICE (log 48): an
event that the instruction brings about at the end of its run is logged after its own words. -/
def State.complete (s : State) (i : Instr) (c : Ctx) : State :=
  let s := s.modGang c.u c.g fun G =>
    G.modLanes (c.act &&& c.G.inRegion &&& G.inRegion) fun l t => i.tagEffect c.L.r.slots c.G l t
  let s := s.move c
  let G := (s.gang? c.u c.g).getD c.G
  let waits := match G.sheaf with | some S => S.commit.isSome | none => false
  let s := if waits then s else s.countWords c.u c.g c.n
  if waits then { s with cur := none }
  else if c.h.e || decide (G.members = 0) then s.endRun c.u c.g (match i with | .yield _ _ => decide (c.act ≠ 0) | _ => false)
  else { s with cur := none }

/-- An instruction's outcome (R33, R88): s0 is the state before it, to which a wait returns the threads. A last instruction
that R88 withholds has no effect and every member stays on it; a fault that stops the run is delivered all the same. -/
def State.settleEff (s0 : State) (i : Instr) (c : Ctx) (e : Eff) : State :=
  let pending := match c.G.sheaf with | some S => S.fp.isSome | none => false
  match e with
  | .stall s => { s.modGang c.u c.g fun G => { G with
      lanes := ((s0.gang? c.u c.g).map (·.lanes)).getD G.lanes, sheaf := ((s0.gang? c.u c.g).map (·.sheaf)).getD G.sheaf }
      with cur := none }
  | .trap t s => if pending && i.withheld && decide (i.ownTrap = some t.cause) then s0.endRun c.u c.g false else s.faultRun c t
  | .done s => if pending && i.withheld then s0.endRun c.u c.g false else s.complete i c

/-- Illegal-Instruction (R167) on the word at index idx of a group. The position of a word past the 24th of its run is open
(log 5). -/
def illegalTrap (reason : Nat) (word : Word) (pos idx : Nat) (s : State) : Eff :=
  let at_ (k : Nat) (s : State) : Eff := trapAll 0x01 (word.setWidth 64) (BitVec.ofNat 64 (reason * 2 ^ 32 + k)) s
  if pos + idx < 24 then at_ (pos + idx) s else at_ (s.freeVal.toNat % 24) s.takeFree

/-- The words of a group count towards the regions of the running members, and a region in which one of them is the 65th aborts
at the group (R145, R151). -/
def State.regionCount (s : State) (c : Ctx) : State :=
  let m := c.run &&& c.G.inRegion
  if m = 0 then s
  else
    let full := maskOf fun l => m.getLsbD l && decide (64 < (((c.G.lane l).region.map (·.count)).getD 0) + c.n)
    let s := s.modGang c.u c.g fun G => G.modLanes m fun _ t => t.modRegion fun r => { r with count := min 65 (r.count + c.n) }
    s.abortRegions c.u c.g full 0x24 fun _ => 0

/-- A region in which an active member's instruction is illegal, or overflows the constraints, aborts at it (R140, R143). -/
def State.regionRules (s : State) (i : Instr) (c : Ctx) : State :=
  let m := c.act &&& c.G.inRegion
  if m = 0 then s
  else if !i.regionLegal then s.abortRegions c.u c.g m 0x30 fun _ => 0
  else match i with
    | .icmp _ _ _ _ a b =>
      let spill := maskOf fun l => m.getLsbD l && (c.G.lane l).wouldConstrain a b
        && decide (16 ≤ (((c.G.lane l).region.map (·.cons.length)).getD 0))
      s.abortRegions c.u c.g spill 0x22 fun _ => 0
    | _ => s

/-- The context with its gang as a state holds it now. -/
def Ctx.refresh (c : Ctx) (s : State) : Ctx :=
  let G := (s.gang? c.u c.g).getD c.G
  { c with G := G, run := G.running, act := c.act &&& G.running }

/-- In record mode, an instruction that names a register whose token a job has written reads that token (R381). -/
def State.tokenReads (s : State) (i : Instr) (c : Ctx) : State :=
  let rs := i.sregs.filter fun r => c.B.clocks.any fun x => decide (x.1 = (Item.token c.g r).code)
  if c.G.chunk.isNone || rs.isEmpty then s
  else
    (s.gangAccess c.u c.g (rs.map (Item.token c.g)) false).modBlock c.u fun b =>
      { b with clocks := b.clocks.filter fun x => !rs.any fun r => decide (x.1 = (Item.token c.g r).code) }

/-- In record mode, the reads of barrier objects that released threads owe (R381). -/
def State.wokenReads (s : State) (c : Ctx) : State :=
  let ls := (lanesOf c.run).filter fun l => (c.G.lane l).woken.isSome
  if ls.isEmpty then s
  else
    let items := (ls.flatMap fun l => spadItems ((c.G.lane l).woken.getD 0) 16).eraseDups
    (s.gangAccess c.u c.g items false).modGang c.u c.g fun G => G.modLanes c.run fun _ t => { t with woken := none }

/-- The instruction's own word, without its prefixes. -/
def mainWord (i : Instr) : Word := (encode i).getLastD 0

/-- A full sheaf: every live thread of the gang is a member (R37). -/
def Gang.fullSheaf (G : Gang) : Bool :=
  match G.sheaf with
  | some S => decide (G.live &&& ~~~ S.members = 0)
  | none => false

/-- An instruction breaks the run's structure (R31, R32, R33). -/
def Ctx.breaksRun (c : Ctx) (i : Instr) : Bool :=
  (i.mustEnd && !c.h.e) || decide (24 < c.pos + c.n) || (decide (c.pos + c.n = 24) && !c.h.e)

/-- The instruction waits at issue (R29, R116, R120, R287, R350). -/
def Ctx.held (c : Ctx) (i : Instr) : Bool :=
  i.waits c.G c.L.r.slots c.members || i.awaits c.G || c.G.isParked || c.B.accBusy c.g

/-- The issue of one instruction: the checks in the order of R34 and R61, then its own effect. In replay a gang held for
its chunk's clock does not issue (R392). A run none of whose members is live any more is over. -/
def State.issueAt (s : State) (i : Instr) (h : Hdr) (guard : BitVec 3) (body : Ctx → State → Eff) (u g : Nat) : State :=
  let s := (if s.chunkDue u g then s.endByCount u g else s).abortLogged u g
  match s.ctx u g h h.words guard with
  | none => s
  | some c =>
    if c.G.held || (c.G.chunk.isSome && !c.G.mau.isEmpty) then { s with cur := none }
    else if c.members = 0 then s.endRun u g false
    else if i.objectPending c.G then s.settleEff i c (.stall s)
    else
      let s1 := s.regionCount c
      let c1 := c.refresh s1
      match i.illegalHere c1 with
      | some r => s.settleEff i c1 (illegalTrap r (mainWord i) c.pos (c.n - 1) s1)
      | none =>
        if c1.breaksRun i then s.settleEff i c1 (trapOpen 0x02 s1)
        else
          let s2 := s1.regionRules i c1
          let c2 := c1.refresh s2
          if i.needsFull && !c2.G.fullSheaf then s.settleEff i c2 (trapOpen 0x0F s2)
          else if i.exhausts c2.G c2.L.r.accn then s.settleEff i c2 (trapOpen 0x0E s2)
          else if c2.held i then s.settleEff i c2 (.stall s)
          else s.settleEff i c2 (body c2 ((s2.wokenReads c2).tokenReads i c2))

/-- An instruction issues from the sheaf in issue; without one there is nothing to execute it. -/
def issue (i : Instr) (h : Hdr) (guard : BitVec 3) (body : Ctx → State → Eff) (s : State) : Host.Outcome State Fault Refusal :=
  match s.focus with
  | some (u, g, _) => .next (s.issueAt i h guard body u g)
  | none => .fault .noSheaf

/-- A group of n words that has no effect of its own is a fault of the run (R33, R166): its words count (R145, R169), and a
barrier instruction in it waits for its object's register. DESIGN CHOICE (log 47): the group starts at the first word that the
run executes, also where a transfer has entered it at a later word. -/
def State.faultGroup (s : State) (n : Nat) (i : Option Instr) (e : Ctx → State → Eff) : State :=
  match s.focus with
  | none => s
  | some (u, g, _) =>
    let s := (if s.chunkDue u g then s.endByCount u g else s).abortLogged u g
    match s.ctx u g (Hdr.plain false) n 7 with
    | none => s
    | some c =>
      if c.G.held then { s with cur := none }
      else if c.members = 0 then s.endRun u g false
      else if i.any (·.objectPending c.G) then { s with cur := none }
      else
        let s1 := s.regionCount c
        let c1 := c.refresh s1
        match e c1 s1 with
        | .trap t s => s.faultRun c1 t
        | _ => s1

/-- An effect on each active lane's registers alone. -/
def laneEff (f : Ctx → Nat → Lane → Lane) (c : Ctx) (s : State) : Eff :=
  .done (s.modGang c.u c.g fun G => G.modLanes c.act fun l t => f c l t)

/-- An effect on every running member's registers alone. -/
def memberEff (f : Ctx → Nat → Lane → Lane) (c : Ctx) (s : State) : Eff :=
  .done (s.modGang c.u c.g fun G => G.modLanes c.run fun l t => f c l t)

/-- An effect on the gang alone. -/
def gangEff (f : Ctx → Gang → Gang) (c : Ctx) (s : State) : Eff := .done (s.modGang c.u c.g fun G => f c G)

end Sys2Proof.Machine
end

