-- ==== Sys2Proof/Machine/Remote.lean ====
section
/-! DEFINITION. What the device sends over the Axfen fabric (R406-R412): flits, messages, and requests to other devices'
homes. -/

namespace Sys2Proof

open Machine

/-! ### Messages and flits as bytes (R406, R408) -/

/-- A message's bytes. -/
def FabMsg.bytes (m : FabMsg) : List Byte :=
  bytesOf 1 m.kind.toNat ++ bytesOf 1 m.src.toNat ++ bytesOf 1 m.dst.toNat ++ bytesOf 1 m.key.toNat ++ bytesOf 4 m.fseq.toNat
    ++ bytesOf 4 m.tag.toNat ++ bytesOf 8 m.pa.toNat ++ bytesOf 16 m.mask.toNat ++ bytesOf 4 m.agent.toNat ++ bytesOf 4 m.clk.toNat
    ++ bytesOf 4 m.mseq.toNat ++ bytesOf 4 m.aop.toNat ++ bytesOf 128 m.data.toNat

/-- The message that bytes hold; bits 63:52 of its address are zero (log 54). -/
def FabMsg.ofBytes (bs : List Byte) : FabMsg :=
  let f (w at_ n : Nat) : BitVec w := BitVec.ofNat w (fieldAt bs at_ n)
  { kind := f 8 0 1, src := f 8 1 1, dst := f 8 2 1, key := f 8 3 1, fseq := f 32 4 4, tag := f 32 8 4,
    pa := (f 52 12 8).setWidth 64, mask := f 128 20 16, agent := f 32 36 4, clk := f 32 40 4, mseq := f 32 44 4, aop := f 32 48 4,
    data := f 1024 52 128 }

/-- A flit: its sequence fields, its channel, the credits that it returns, its message, zeros, and the CRC of all this. -/
def FlitIn.make (lseq lack : BitVec 16) (vc : Nat) (cred : List Nat) (msg : Option FabMsg) : FlitIn :=
  let head := bytesOf 2 lseq.toNat ++ bytesOf 2 lack.toNat ++ bytesOf 1 vc ++ cred.flatMap (bytesOf 1 ·)
  let body := head ++ match msg with
    | some m => m.bytes ++ List.replicate 64 0
    | none => List.replicate 244 0
  { bytes := body ++ bytesOf 4 (crc32 body).toNat }

/-- The fields of a flit. -/
def FlitIn.lseq (f : FlitIn) : BitVec 16 := BitVec.ofNat 16 (fieldAt f.bytes 0 2)
def FlitIn.lack (f : FlitIn) : BitVec 16 := BitVec.ofNat 16 (fieldAt f.bytes 2 2)
def FlitIn.vc (f : FlitIn) : Nat := fieldAt f.bytes 4 1 % 4
def FlitIn.cred (f : FlitIn) (ch : Nat) : Nat := fieldAt f.bytes (5 + ch) 1

/-- A flit of 256 bytes whose CRC holds. -/
def FlitIn.crcOk (f : FlitIn) : Bool :=
  decide (f.bytes.length = 256) && decide (fieldAt f.bytes 252 4 = (crc32 (f.bytes.take 252)).toNat)

/-- The message that a flit carries, unless it is idle. -/
def FlitIn.msg (f : FlitIn) : Option FabMsg := if f.vc = 3 then none else some (FabMsg.ofBytes (f.bytes.drop 8))

end Sys2Proof

namespace Sys2Proof.Machine

/-- The channel of a message kind (R406, R408). -/
def channelOf (kind : BitVec 8) : Nat := if kind.toNat = 8 then 2 else if kind.toNat ≤ 3 then 0 else 1

/-- A link sends a flit, which returns the credits that it owes (R406); it keeps its last 256 flits (R407). -/
def Link.emit (L : Link) (vc : Nat) (m : Option FabMsg) : Link :=
  let f := FlitIn.make L.lseq L.lack vc (L.owed.toList.map (min 255 ·)) m
  { L with lseq := L.lseq + 1, owed := L.owed.map (· - 255), held := (f :: L.held).take 256, out := f :: L.out }

/-- A link sends a message on a channel, which spends a credit (R407). -/
def Link.flit (L : Link) (ch : Nat) (m : FabMsg) : Link :=
  { L.emit ch (some m) with cred := vset L.cred ch (vget L.cred ch 0 - 1) }

/-- A link takes a message: it sends it while it holds a credit of its channel, in order (R407). -/
def Link.push (L : Link) (m : FabMsg) : Link :=
  let ch := channelOf m.kind
  if vget L.cred ch 0 = 0 ∨ L.wait.any (fun x => decide (channelOf x.kind = ch)) then { L with wait := L.wait ++ [m] }
  else L.flit ch m

/-- The messages that wait for credits are sent as far as the credits go (R407). -/
def Link.drainWait (L : Link) : Link :=
  L.wait.foldl (fun L m => L.push m) { L with wait := [] }

/-- The link that carries a message (R409): chosen among those of its route by a hash of bits 15:7 of its address. -/
def State.linkFor (s : State) (m : FabMsg) : Option Nat :=
  let ls := s.linksTo m.dst.toNat
  ls[Config.linkHash (m.pa.toNat / 128 % 512) % ls.length]?

/-- A message is handed to its link, if its destination can be reached. -/
def State.handOver (s : State) (m : FabMsg) : State :=
  match s.linkFor m with
  | none => s
  | some l => { s with links := vset s.links l ((vget s.links l Link.reset).push m) }

/-- A message leaves for another device: SRC and its next FSEQ are filled in (R408, R409). -/
def State.fabricSend (s : State) (m : FabMsg) : State :=
  let d := m.dst.toNat
  let ch := channelOf m.kind
  let n := ((s.fseqOut.find? fun x => decide (x.1 = d ∧ x.2.1 = ch)).map (·.2.2)).getD 0
  let s := { s with fseqOut := (d, ch, n + 1) :: s.fseqOut.filter fun x => decide (¬ (x.1 = d ∧ x.2.1 = ch)) }
  s.handOver { m with src := s.devId, fseq := n }

/-- A message without a sender's clock (R408). -/
def FabMsg.plain (kind dst key : Nat) (pa : Nat) : FabMsg :=
  { kind := BitVec.ofNat 8 kind, src := 0, dst := BitVec.ofNat 8 dst, key := BitVec.ofNat 8 key, fseq := 0, tag := 0,
    pa := BitVec.ofNat 64 pa, mask := 0, agent := noAgent, clk := 0, mseq := 0, aop := 0, data := 0 }

/-- A request leaves for another device's home, with a fresh TAG, and waits for its response (R410). -/
def State.sendRequest (s : State) (m : FabMsg) (gang job : Option (Nat × Nat)) : State :=
  let m := { m with tag := s.nextTag }
  ({ s with nextTag := s.nextTag + 1,
            requests := s.requests ++ [{ msg := m, sent := s.time, gang := gang, job := job, lane := 0, pc := 0, va := 0, stale := false }] } : State).fabricSend m

/-- The last request was sent for a lane's instruction and a virtual address. -/
def State.sentFor (s : State) (lane : Nat) (pc : Word) (va : Wide) : State :=
  { s with requests := s.requests.modify (s.requests.length - 1) fun r => { r with lane := lane, pc := pc, va := va } }

/-- A gang's request carries its AGENT, clock and message number in record mode, and its place joins the chunk's record
(R383, R412); in replay it is the logged one (R396). -/
def State.gangRequest (s : State) (u g : Nat) (m : FabMsg) : State :=
  match s.block? u, (s.gang? u g).bind (·.chunk) with
  | some b, some c =>
    let s : State := match s.replayChunk u g with
      | some (_, x) =>
        let next : Option (Nat × BitVec 32) := (x.fabric.drop c.fabric.length).head?
        if next = some (c.count, c.mseq) then s else s.divergeGang u g 6 ((next.map (·.2.toNat)).getD 0) c.mseq.toNat
      | none => s
    let m := { m with agent := gangAgent b.recNo g, clk := BitVec.ofNat 32 c.clock, mseq := c.mseq }
    (s.modGang u g fun G => { G with chunk := G.chunk.map fun c =>
      { c with mseq := c.mseq + 1, fabric := c.fabric ++ [(c.count, c.mseq)] } }).sendRequest m (some (u, g)) none
  | _, _ => s.sendRequest m (some (u, g)) none

/-- A request of a kind for a line under a key has no response yet, and will not be stale when it has (R132). -/
def State.outstanding (s : State) (kind line key : Nat) : Bool :=
  s.requests.any fun r =>
    !r.stale && decide (r.msg.kind.toNat = kind ∧ lineOf r.msg.pa.toNat = line ∧ r.msg.key.toNat = key)

/-- A write or an atomic on another device has no response yet (R374, R410). -/
def State.writesPending (s : State) : Bool := s.requests.any fun r => decide (r.msg.kind = 2 ∨ r.msg.kind = 3)

/-- The read message for a remote line (R410). -/
def readRequest (line key : Nat) : FabMsg :=
  { FabMsg.plain 1 (devOf (line * 128)) key (line * 128) with mask := BitVec.allOnes 128 }

/-- The write message of a proxy copy's dirty bytes (R374, R410). -/
def writeRequest (x : RemoteLine) : FabMsg :=
  { FabMsg.plain 2 (devOf (x.line * 128)) x.key (x.line * 128) with mask := x.dirty, data := x.data }

/-- The bytes that a cluster reads from a remote line are here: in its L1, or in a filled proxy copy (R373, R410). -/
def State.remoteReady (s : State) (cl key pa n : Nat) : Bool :=
  decide (byteMask pa n &&& ~~~ (s.l1Readable cl (lineOf pa) key ||| (s.remoteLine (lineOf pa) key).valid) = 0)

/-- The address of such a write. -/
def State.pendingWrite (s : State) : Nat :=
  ((s.requests.find? fun r => decide (r.msg.kind = 2 ∨ r.msg.kind = 3)).map fun r => r.msg.pa.toNat / 128 * 128).getD 0

/-- A gang sends a read for each remote line that it misses, unless one is under way (R410). -/
def State.askLines (s : State) (u g : Nat) (ls : List (Nat × Nat)) : State :=
  ls.foldl (fun s x =>
    if s.outstanding 1 x.1 x.2 then s else s.gangRequest u g (readRequest x.1 x.2)) s

/-- The proxy copies with bytes that their home does not have yet (R374). -/
def State.remoteDirty (s : State) : List RemoteLine := s.remote.filter fun x => decide (x.dirty ≠ 0)

/-- A gang sends a write for each such copy, unless one is under way (R374). -/
def State.writeRemote (s : State) (u g : Nat) : State :=
  s.remoteDirty.foldl (fun s x =>
    if s.outstanding 2 x.line x.key then s else s.gangRequest u g (writeRequest x)) s

/-- A gang waits for another device. -/
def State.parkRemote (s : State) (u g part pa : Nat) : State :=
  s.modGang u g fun G => { G with parked := some { kind := 1, part := part, va := BitVec.ofNat 72 pa } }

/-- Nothing waits for another device any more. -/
def State.unpark (s : State) (u g : Nat) : State := s.modGang u g fun G => { G with parked := none }

/-- A gang's failed remote access (R410): the physical address of its line. -/
def Gang.failedAt (G : Gang) : Option Nat :=
  match G.parked with | some x => if x.kind = 2 then some x.va.toNat else none | none => none

end Sys2Proof.Machine
end

