-- ==== Sys2Proof/Machine/ThreadMem.lean ====
section
/-! DEFINITION. The checks of a thread access, in the order of R100, and the loads and stores that follow them. -/

namespace Sys2Proof.Machine

/-- A number modulo 2^n. -/
def wrapTo (n : Nat) (x : Int) : Nat := (x % ((2 ^ n : Nat) : Int)).toNat

/-- What an access is: its bytes, whether it reads and writes, the permissions it needs (R346), whether it raises
Poisoned-Data, whether it is one access of the whole sheaf (R204), whether it is a redg.det (R223), and whether it waits
for another device's lines (R410). -/
structure Access where
  n : Nat
  rd : Bool
  wr : Bool
  need : Needs
  poison : Bool
  scalar : Bool
  det : Bool
  fetch : Bool
  region : Bool

/-- A plain load, a plain store of n bytes. -/
def Access.load (n : Nat) : Access := ⟨n, true, false, ⟨true, false, false⟩, true, false, false, true, false⟩
def Access.store (n : Nat) : Access := ⟨n, false, true, ⟨false, true, false⟩, false, false, false, false, false⟩
/-- An atomic that returns the old value, or a reduction, of n bytes. -/
def Access.atomic (n : Nat) (returns : Bool) : Access := ⟨n, true, true, ⟨true, true, false⟩, returns, false, false, false, false⟩

/-- Trap information of a memory cause: what stands from bit 40 on, address bits 71:64, and the lanes (R99, R333, R347,
R372). -/
def memInfo (top hi : Nat) (m : BitVec 32) : Dword := BitVec.ofNat 64 (top * 2 ^ 40 + hi * 2 ^ 32 + m.toNat)

/-- The mask of the lanes of a list of lane addresses. -/
def laneMask (las : List (Nat × Nat)) : BitVec 32 := maskOf fun l => las.any fun x => decide (x.1 = l)

/-- The first address of a list, which is the lowest lane's. -/
def firstAddr (las : List (Nat × Nat)) : Nat := (las.map (·.2)).headD 0

/-- The lanes that a cause names: the failing ones, or every member for a scalar access (R204). -/
def Access.mask (a : Access) (c : Ctx) (las : List (Nat × Nat)) : BitVec 32 := if a.scalar then c.members else laneMask las

/-- A cause of a memory access (R100). -/
def memTrap (cause addr : Nat) (info : Dword) (s : State) : Eff := trapAll cause (BitVec.ofNat 64 addr) info s

/-- Misaligned (R99). -/
def misaligned (spad : Bool) (addr : Nat) (m : BitVec 32) (s : State) : Eff :=
  memTrap 0x03 addr (memInfo (if spad then 1 else 0) (if spad then 0 else addr / 2 ^ 64) m) s

/-! ### Watch descriptors (R332, R333) -/

/-- Some number below n satisfies f. -/
def anyBelow (f : Nat → Bool) : Nat → Bool
  | 0 => false
  | n + 1 => f n || anyBelow f n

/-- A byte at distance y from a base lies in an element of the dimensions. -/
def coveredFrom (m es : Nat) : List (Nat × Int) → Int → Bool
  | [], y => decide (y % (m : Int) < (es : Int))
  | (e, st) :: t, y => anyBelow (fun i => coveredFrom m es t (y - (i : Int) * st)) e

/-- A descriptor covers a byte (R333). -/
def WatchDesc.covers (d : WatchDesc) (x : Nat) : Bool :=
  coveredFrom (if d.spad then 2 ^ 32 else 2 ^ 72) d.esize ((d.ext.zip d.str).take d.ndim) ((x : Int) - (d.base : Int))

/-- The bytes of an access that a descriptor covers, lowest first. -/
def WatchDesc.hits (d : WatchDesc) (a n : Nat) : List Nat :=
  ((List.range n).map fun i => a + i).filter fun x => d.covers x

/-- A descriptor applies to accesses of a space and of kinds (R333): thread read and write are bits 0 and 1, engine read
and write bits 2 and 3. -/
def WatchDesc.applies (d : WatchDesc) (spad rd wr engine : Bool) : Bool :=
  let o := if engine then 2 else 0
  (d.spad == spad) && ((rd && d.kinds.getLsbD o) || (wr && d.kinds.getLsbD (o + 1)))

/-- The lowest descriptor that some access matches, with the accesses that do (R333). -/
def watchMatch (ws : List WatchDesc) (spad rd wr engine : Bool) (n : Nat) (las : List (Nat × Nat)) :
    Option (Nat × List (Nat × Nat) × Nat) :=
  (List.range ws.length).findSome? fun i =>
    match ws[i]? with
    | none => none
    | some d =>
      if !d.applies spad rd wr engine then none
      else
        let hit := las.filter fun x => !(d.hits x.2 n).isEmpty
        if hit.isEmpty then none
        else
          let bytes := hit.flatMap fun x => d.hits x.2 n
          some (i, hit, bytes.foldl min (bytes.headD 0))

/-- The accesses that the watch comparison looks at: those of threads without a watch pass; a scalar access is compared
when some member has none (R333). -/
def Access.watched (a : Access) (c : Ctx) (las : List (Nat × Nat)) : List (Nat × Nat) :=
  if a.scalar then
    if (lanesOf c.members).all fun l => (c.G.lane l).watchPass then [] else las
  else las.filter fun x => !(c.G.lane x.1).watchPass

/-- The watch comparison of a thread access (R333): Watchpoint, which resumes at the instruction; without a handler only
a trace record is written (R328). -/
def watchThread (c : Ctx) (spad : Bool) (a : Access) (las : List (Nat × Nat)) (s : State) : Except Eff State :=
  if c.L.r.watch.isEmpty then .ok s
  else
    match watchMatch c.L.r.watch spad a.rd a.wr false a.n (a.watched c las) with
    | none => .ok s
    | some (i, hit, addr) =>
      let info := memInfo (2 * i + (if spad then 1 else 0)) (if spad then 0 else addr / 2 ^ 64) (a.mask c hit)
      if c.L.r.handler = noHandler then
        .ok (s.traceWatch c.u c.g (lowest (a.mask c hit)) c.pc (BitVec.ofNat 64 addr) info)
      else .error (.trap { cause := 0x10, addr := BitVec.ofNat 64 addr, info := info, lanes := none, again := true, detail := i } s)

/-! ### Scratchpad accesses -/

/-- The buffer that a scratchpad byte lies in (R105). -/
def LaunchRec.bufAt (r : LaunchRec) (x : Nat) : Option Nat :=
  (List.range 16).find? fun i =>
    let b := r.bufs.getD i (0, 0)
    decide (b.1 ≤ x) && decide (x < b.1 + b.2)

/-- A buffer's state (R106): 0 empty, 1 filling, 2 full, 3 draining. -/
def Block.buf (b : Block) (i : Nat) : Nat := (vget b.bufs i 0).toNat

/-- A thread access to a byte is legal in a buffer state (R106). -/
def bufAllows (st : Nat) (rd wr : Bool) : Bool :=
  (!rd || decide (2 ≤ st)) && (!wr || decide (st = 0 ∨ st = 3))

/-- The lowest byte of an access that its buffer forbids, with the buffer (R107). -/
def Block.badByte (b : Block) (r : LaunchRec) (rd wr : Bool) (a n : Nat) : Option (Nat × Nat) :=
  (List.range n).findSome? fun i => (r.bufAt (a + i)).bind fun k => if bufAllows (b.buf k) rd wr then none else some (a + i, k)

/-- Scratchpad-Buffer (R107). -/
def bufferTrap (addr st k : Nat) (m : BitVec 32) (s : State) : Eff :=
  memTrap 0x04 addr (BitVec.ofNat 64 (st * 2 ^ 36 + k * 2 ^ 32 + m.toNat)) s

/-- The checks of thread accesses to buffers (R107): the lowest offending byte over the lanes. -/
def bufferCheck (b : Block) (r : LaunchRec) (rd wr : Bool) (n : Nat) (las : List (Nat × Nat)) : Option (Nat × Nat × BitVec 32) :=
  let bad := las.filterMap fun x => (b.badByte r rd wr x.2 n).map fun y => (x.1, y)
  match bad with
  | [] => none
  | y :: t =>
    let low := t.foldl (fun (z : Nat × Nat) e => if e.2.1 < z.1 then e.2 else z) y.2
    some (low.1, low.2, maskOf fun l => bad.any fun e => decide (e.1 = l))

/-- Lanes beyond the block's scratchpad are terminated as by exit.q (R104). -/
def State.terminate (s : State) (c : Ctx) (m : BitVec 32) : State :=
  if m = 0 then s
  else
    (s.modGang c.u c.g fun G =>
      { (G.quitAll m).exitLanes m with spfault := G.spfault ||| m }).afterExit c.u c.g m

/-- The checks of a scratchpad access (R100 steps 1 to 4): the state and the lanes that go on. -/
def spadCheck (c : Ctx) (a : Access) (align : Nat) (las : List (Nat × Nat)) (s : State) : Except Eff (State × List (Nat × Nat)) :=
  let bad := las.filter fun x => decide (x.2 % align ≠ 0)
  if !bad.isEmpty then .error (misaligned true (firstAddr bad) (laneMask bad) s)
  else
    match bufferCheck c.B c.L.r a.rd a.wr a.n las with
    | some (addr, k, m) => .error (bufferTrap addr (c.B.buf k) k m s)
    | none =>
      let out := las.filter fun x => decide (c.L.r.scratch < x.2 + a.n)
      let rest := las.filter fun x => decide (x.2 + a.n ≤ c.L.r.scratch)
      let s := s.terminate c (laneMask out)
      match watchThread c true a rest s with
      | .error e => .error e
      | .ok s => .ok (s, rest)

/-! ### Global accesses -/

/-- A read meets poison (R372): a byte lies in a poisoned piece that no dirty write of the cluster's L1 covers whole. -/
def State.readPoison (s : State) (cl key pa n : Nat) : Option Nat :=
  if !s.local pa || !s.poisoned key pa n then none
  else
    let whole := match s.l1Line? cl (lineOf pa) key with | some x => x.whole | none => 0
    ((List.range n).find? fun i => s.poisoned key (pa + i) 1 && !whole.getLsbD ((pa + i) % 128 / 8)).map (pa + ·)

/-- A lane with its address, its physical address and its key. -/
structure Spot where
  lane : Nat
  va : Nat
  pa : Nat
  key : Nat
  deriving DecidableEq, Repr

/-- What a fault record says of a thread access (R350). -/
def threadSource (c : Ctx) (a : Access) (lane : Nat) : FaultSrc :=
  { source := 1, access := if (a.rd && a.wr) || a.det then 2 else if a.wr then 1 else 0, lin := c.B.lin, gang := c.g, lane := lane, queue := 0 }

/-- Permission of an access (R347): the lowest failing lane's reason and address. -/
def permission (reason addr : Nat) (m : BitVec 32) (s : State) : Eff := memTrap 0x06 addr (memInfo reason (addr / 2 ^ 64) m) s

/-- The place of a thread access; a redg.det on another device's memory is denied with reason 7 (R223). -/
def placeOf (c : Ctx) (a : Access) (s : State) (va : Nat) : Place :=
  match if a.region then s.regionPlace c.unit c.L.part va a.need else s.place c.unit c.L.part va a.need with
  | .ok pa key => if a.det && !s.local pa then .perm 7 else .ok pa key
  | x => x

/-- The lane of an access's fault records: a scalar access's is the lowest member. -/
def Access.laneOf (a : Access) (c : Ctx) (l : Nat) : Nat := if a.scalar then lowest c.members else l

/-- The checks of a global access (R100 steps 1, 4 to 6, and the data of other devices' lines): the state and the
places of the lanes. The trace record of an undelivered Watchpoint is written when the access does not wait. -/
def globalCheck (c : Ctx) (a : Access) (las : List (Nat × Nat)) (s : State) : Except Eff (State × List Spot) :=
  let bad := las.filter fun x => decide (x.2 % a.n ≠ 0)
  if !bad.isEmpty then .error (misaligned false (firstAddr bad) (a.mask c bad) s)
  else
    match watchThread c false a las s with
    | .error e => .error e
    | .ok sw =>
      let at_ := las.map fun x => (x, placeOf c a s x.2)
      let perms := at_.filterMap fun x => match x.2 with | .perm r => some (x.1, r) | _ => none
      match perms with
      | (x, r) :: _ =>
        let s := perms.foldl (fun s y =>
          if y.2 = 4 then s.recordWalk c.unit c.L.part y.1.2 (threadSource c a (a.laneOf c y.1.1)) else s) sw
        .error (permission r x.2 (a.mask c (perms.map (·.1))) s)
      | [] =>
        let faults := at_.filterMap fun x => match x.2 with | .fault l e v => some (x.1, l, e, v) | _ => none
        match faults with
        | (x, _) :: _ =>
          let s := faults.foldl (fun s y =>
            s.faultRecord c.L.part y.1.2 y.2.1 y.2.2.1 y.2.2.2 1 (threadSource c a (a.laneOf c y.1.1))) s
          .error (.stall (s.modGang c.u c.g fun G =>
            { G with parked := some { kind := 0, part := c.L.part, va := BitVec.ofNat 72 x.2 } }))
        | [] =>
          let spots := at_.filterMap fun x => match x.2 with
            | .ok pa key => some { lane := x.1.1, va := x.1.2, pa := pa, key := key : Spot } | _ => none
          let s := las.foldl (fun s x => s.cacheTrans c.unit c.L.part x.2) s
          let sw := las.foldl (fun s x => s.cacheTrans c.unit c.L.part x.2) sw
          let cl := clusterOf c.B.core
          let away := if a.fetch then spots.filter fun x => !s.local x.pa && !s.remoteReady cl x.key x.pa a.n else []
          let failed := away.filter fun x => decide (c.G.failedAt = some (lineOf x.pa * 128))
          match failed, away with
          | x :: _, _ =>
            .error (permission 6 x.va (a.mask c (failed.map fun y => (y.lane, y.va))) (sw.unpark c.u c.g))
          | [], x :: _ =>
            .error (.stall ((s.askLines c.u c.g (away.map fun y => (lineOf y.pa, y.key))).parkRemote c.u c.g c.L.part (lineOf x.pa * 128)))
          | [], [] =>
            let sw := if a.poison then spots.foldl (fun s x => s.reach cl x.key x.pa a.n a.wr) sw else sw
            let sick := if a.poison then spots.filterMap fun x => (sw.readPoison cl x.key x.pa a.n).map fun b => (x, b) else []
            match sick with
            | (x, b) :: _ =>
              .error (memTrap 0x13 (x.va + (b - x.pa)) (memInfo (sw.poisonSrc (lineOf x.pa) x.key).toNat ((x.va + (b - x.pa)) / 2 ^ 64)
                (a.mask c (sick.map fun y => (y.1.lane, y.1.va)))) sw)
            | [] => .ok (sw.unpark c.u c.g, spots)

/-! ### Loads and stores -/

/-- The bytes of a width code (R161). -/
def widthBytes (w : BitVec 3) : Nat := [1, 1, 2, 2, 4, 8, 16].getD w.toNat 1

/-- The registers that a load of a width code writes, from its bytes (R209). -/
def loadWords (w : BitVec 3) (bs : List Byte) : List Word :=
  match w.toNat with
  | 0 => [BitVec.ofNat 32 (ofBytes bs)]
  | 1 => [(BitVec.ofNat 8 (ofBytes bs)).signExtend 32]
  | 2 => [BitVec.ofNat 32 (ofBytes bs)]
  | 3 => [(BitVec.ofNat 16 (ofBytes bs)).signExtend 32]
  | _ => (List.range (bs.length / 4)).map fun i => BitVec.ofNat 32 (fieldAt bs (4 * i) 4)

/-- The bytes that a store of a width code takes from registers (R209). -/
def storeBytes (w : BitVec 3) (t : Lane) (r : Nat) : List Byte :=
  ((List.range (widthRegs w)).flatMap fun i => bytesOf 4 (t.reg (r + i)).toNat).take (widthBytes w)

/-- The bytes that a plain load of a cluster returns, read with no other access between them. -/
def State.loadAt (s : State) (cl : Nat) (x : Spot) (n : Nat) : List Byte := s.plainBytes cl x.key x.pa n

/-- Plain loads of n bytes have been made: they stand in the L1 (R112). -/
def State.loaded (s : State) (cl : Nat) (xs : List Spot) (n : Nat) : State :=
  xs.foldl (fun s x => s.afterLoad cl x.key x.pa n) s

/-- The lines of the spots, once each. -/
def spotItems (xs : List Spot) (n : Nat) : List Item := (xs.flatMap fun x => lineItems x.key x.pa n).eraseDups

/-- The L1 copies of a line are dropped in every cluster: what a recorded write does on its way through (R380). -/
def State.dropLine (s : State) (line key : Nat) : State :=
  { s with l1 := s.l1.filter fun x => decide (¬ (x.line = line ∧ x.key = key)) }

/-- A plain store: into the L1; in record mode at once through to the die's L2 (R113, R380). -/
def State.storeAt (s : State) (c : Ctx) (x : Spot) (bs : List Byte) : State :=
  let cl := clusterOf c.B.core
  let s := (s.l1Store cl x.key x.pa bs).digestWrite c.u c.g (x.va % 2 ^ 64) (ofBytes bs)
  if c.G.chunk.isSome then (s.writeBack cl (lineOf x.pa) x.key).dropLine (lineOf x.pa) x.key else s

/-- The cache actions of a release (R113): 2 device, 3 system; narrower scopes have none. -/
def State.release (s : State) (cl scope : Nat) : State := if 2 ≤ scope then s.releaseCluster cl else s

/-- The cache actions of an acquire (R113). -/
def State.acquire (s : State) (cl scope : Nat) : State :=
  if scope < 2 then s
  else
    let s := s.acquireCluster cl
    if scope = 3 then s.acquireRemote else s

/-- A system-scope release waits until every home has acknowledged (R374, R410): the state to go on from, or a wait, or
Permission on the releasing threads. The failing line's address stands for the address of an instruction that has none;
the spec gives no other (log 17). -/
def systemRelease (c : Ctx) (scope : Nat) (addr : Option Nat) (m : BitVec 32) (s : State) : Except Eff State :=
  if scope ≠ 3 then .ok s
  else
    match c.G.failedAt with
    | some _ =>
      match addr with
      | some a => .error (permission 6 a m (s.unpark c.u c.g))
      | none => .error (trapAll 0x06 s.freeVal (memInfo 6 0 m) (s.takeFree.unpark c.u c.g))
    | none =>
      match s.remoteDirty with
      | [] => if s.writesPending then .error (.stall (s.parkRemote c.u c.g c.L.part s.pendingWrite)) else .ok s
      | x :: _ => .error (.stall ((s.writeRemote c.u c.g).parkRemote c.u c.g c.L.part (x.line * 128)))

end Sys2Proof.Machine
end

