-- ==== Sys2Proof/Machine/VectorMem.lean ====
section
/-! DEFINITION. Vector loads and stores (R208-R212), prefetch (R231), fences (R224-R226). -/

namespace Sys2Proof.Machine

/-- The addresses of a global access (R97, R210). -/
def globalAddrs (c : Ctx) (b : Nat) (o : BitVec 7) : List (Nat × Nat) :=
  (lanesOf c.act).map fun l =>
    (l, wrapTo 72 ((c.G.sreg b).toNat + ((c.G.lane l).reg o.toNat).toInt + c.h.disp))

/-- The offsets of a scratchpad access (R101, R210). -/
def spadAddrs (c : Ctx) (o : BitVec 7) (add : Int) : List (Nat × Nat) :=
  (lanesOf c.act).map fun l => (l, wrapTo 32 (((c.G.lane l).reg o.toNat).toNat + add))

/-- Register writes on their way to a gang (R210). -/
def State.respond (s : State) (c : Ctx) (far : Bool) (writes : List (Nat × Nat × Word)) : State :=
  if writes.isEmpty then s else s.modGang c.u c.g fun G => { G with resp := G.resp ++ [({ writes := writes, far := far } : Resp)] }

/-- The writes that a lane's loaded words make from a register on. -/
def wordWrites (l : Nat) (r : Nat) (ws : List Word) : List (Nat × Nat × Word) := ws.mapIdx fun i x => (l, r + i, x)

/-- A vector load of global memory, with the cache actions of an acquire at a scope (0 for a plain load). The line that
the acquire reads is read afresh, and other devices' lines are dropped after it (R113, R211). -/
def vectorLoad (t o : BitVec 7) (b : BitVec 4) (w : BitVec 3) (scope : Nat) (c : Ctx) (s : State) : Eff :=
  let n := widthBytes w
  let cl := clusterOf c.B.core
  let s := if c.act = 0 then s else s.acquire cl (min scope 2)
  match globalCheck c (Access.load n) (globalAddrs c b.toNat o) s with
  | .error e => e
  | .ok (s, xs) =>
    let s := s.gangAccess c.u c.g (spotItems xs n) false
    let ws := xs.flatMap fun x => wordWrites x.lane t.toNat (loadWords w (s.loadAt cl x n))
    let s := (s.loaded cl xs n).respond c true ws
    .done (if scope = 3 ∧ c.act ≠ 0 then s.acquire cl 3 else s)

/-- The stores of stg.rel.s, lane by lane (R211): each waits until what the gang has written before it, the lower lanes' stores
included, is at its home; a lane whose store is made is noted, for a wait of a later one. -/
def systemStores (t : BitVec 7) (w : BitVec 3) (c : Ctx) : List Spot → State → Eff
  | [], s => .done (s.modGang c.u c.g fun G => { G with stored := 0 })
  | x :: xs, s =>
    match systemRelease c 3 (some x.va) (maskOf fun l => (x :: xs).any fun y => decide (y.lane = l)) (s.release (clusterOf c.B.core) 3) with
    | .error (.trap q s) => .trap q (s.modGang c.u c.g fun G => { G with stored := 0 })
    | .error e => e
    | .ok s => systemStores t w c xs ((s.storeAt c x (storeBytes w (c.G.lane x.lane) t.toNat)).modGang c.u c.g fun G =>
        { G with stored := G.stored ||| BitVec.twoPow 32 x.lane })

/-- A vector store to global memory; each lane's store releases at a scope (0 for a plain store) (R211). -/
def vectorStore (t o : BitVec 7) (b : BitVec 4) (w : BitVec 3) (scope : Nat) (c : Ctx) (s : State) : Eff :=
  let n := widthBytes w
  let cl := clusterOf c.B.core
  match globalCheck c (Access.store n) ((globalAddrs c b.toNat o).filter fun x => !c.G.stored.getLsbD x.1) s with
  | .error e => e
  | .ok (s, xs) =>
    let s := s.gangAccess c.u c.g (spotItems xs n) true
    if scope = 3 then systemStores t w c xs s
    else .done (xs.foldl (fun s x => (s.release cl scope).storeAt c x (storeBytes w (c.G.lane x.lane) t.toNat)) s)

/-- LDG (R210). -/
def execLdg (h : Hdr) (g : BitVec 3) (t o : BitVec 7) (b : BitVec 4) (w : BitVec 3) (s : State) : Host.Outcome State Fault Refusal :=
  issue (.ldg h g t o b w) h g (vectorLoad t o b w 0) s

/-- STG (R210). -/
def execStg (h : Hdr) (g : BitVec 3) (t o : BitVec 7) (b : BitVec 4) (w : BitVec 3) (s : State) : Host.Outcome State Fault Refusal :=
  issue (.stg h g t o b w) h g (vectorStore t o b w 0) s

/-- LDG_ACQ (R211). -/
def execLdgAcq (h : Hdr) (g : BitVec 3) (t o : BitVec 7) (b : BitVec 4) (w : BitVec 3) (s : State) : Host.Outcome State Fault Refusal :=
  issue (.ldgAcq h g t o b w) h g (vectorLoad t o b w h.scope) s

/-- STG_REL (R211). -/
def execStgRel (h : Hdr) (g : BitVec 3) (t o : BitVec 7) (b : BitVec 4) (w : BitVec 3) (s : State) : Host.Outcome State Fault Refusal :=
  issue (.stgRel h g t o b w) h g (vectorStore t o b w h.scope) s

/-- A block's scratchpad. -/
def State.spad (s : State) (u : Nat) : List Host.Cell := ((s.block? u).map (·.spad)).getD []

/-- Bytes written to a block's scratchpad. -/
def State.spadWrite (s : State) (u a : Nat) (bs : List Byte) : State :=
  s.modBlock u fun b => { b with spad := writeBytes b.spad a bs }

/-- The recorder sees a thread's scratchpad access (R244): the states of the buffers that it touches are read, its lines
are read or written. -/
def State.spadAccess (s : State) (c : Ctx) (las : List (Nat × Nat)) (n : Nat) (write : Bool) : State :=
  let bufs := (las.filterMap fun x => (c.L.r.bufAt x.2).map Item.buf).eraseDups
  let s := if bufs.isEmpty then s else s.gangAccess c.u c.g bufs false
  s.gangAccess c.u c.g (las.flatMap fun x => spadItems x.2 n).eraseDups write

/-- LDS (R210, R101). -/
def execLds (h : Hdr) (g : BitVec 3) (t o : BitVec 7) (i : BitVec 4) (w : BitVec 3) (s : State) : Host.Outcome State Fault Refusal :=
  issue (.lds h g t o i w) h g (fun c s =>
    let n := widthBytes w
    match spadCheck c (Access.load n) n (spadAddrs c o (h.immOf i false * 16)) s with
    | .error e => e
    | .ok (s, xs) =>
      let s := s.spadAccess c xs n false
      .done (s.respond c false (xs.flatMap fun x => wordWrites x.1 t.toNat (loadWords w (readBytes (s.spad c.u) x.2 n))))) s

/-- STS (R210, R102). -/
def execSts (h : Hdr) (g : BitVec 3) (t o : BitVec 7) (i : BitVec 4) (w : BitVec 3) (s : State) : Host.Outcome State Fault Refusal :=
  issue (.sts h g t o i w) h g (fun c s =>
    let n := widthBytes w
    match spadCheck c (Access.store n) n (spadAddrs c o (h.immOf i false * 16)) s with
    | .error e => e
    | .ok (s, xs) =>
      let s := s.spadAccess c xs n true
      .done (xs.foldl (fun s x =>
        let bs := storeBytes w (c.G.lane x.1) t.toNat
        (s.spadWrite c.u x.2 bs).digestWrite c.u c.g x.2 (ofBytes bs)) s)) s

/-- PFG (R231): the line of each active lane's address comes into the named level, or nothing happens for the lane. -/
def execPfg (h : Hdr) (g : BitVec 3) (o : BitVec 7) (b : BitVec 4) (l : BitVec 3) (s : State) : Host.Outcome State Fault Refusal :=
  issue (.pfg h g o b l) h g (fun c s =>
    .done ((globalAddrs c b.toNat o).foldl (fun s x =>
      match s.place c.unit c.L.part x.2 ⟨true, false, false⟩ with
      | .ok pa key =>
        let line := lineOf pa
        if !s.local pa || decide (s.poisonBits line key ≠ 0) then s
        else if l = 2 then s.homeData line key
        else if l = 1 then s.getShared line key (dieOf c.B.core) 0
        else s.fillL1 (clusterOf c.B.core) line key (BitVec.allOnes 128 &&& ~~~ (s.l2line (dieOf c.B.core) line key).foreign)
      | _ => s) s)) s

/-- A fence's cache actions (R225, R113): order 1 acquires, 2 releases what rel gives up of the L1, 3 does both. -/
def fenceBody (order scope : Nat) (c : Ctx) (rel k : State → State) (s : State) : Eff :=
  let cl := clusterOf c.B.core
  match (if 2 ≤ order then systemRelease c scope none c.members (rel s) else .ok s) with
  | .error e => e
  | .ok s =>
    let s := s.unpark c.u c.g
    .done (k (if order = 2 then s else s.acquire cl scope))

/-- FENCE (R225): a release at device or system scope is a drain fence of every member (R221). -/
def execFence (h : Hdr) (o c : BitVec 2) (s : State) : Host.Outcome State Fault Refusal :=
  issue (.fence h o c) h 7 (fun x s =>
    fenceBody o.toNat c.toNat x (fun s => s.release (clusterOf x.B.core) c.toNat) (fun s =>
      if 2 ≤ o.toNat ∧ 2 ≤ c.toNat then
        s.modGang x.u x.g fun G => G.modLanes x.run fun _ t => { t with epoch := t.epoch + 1 }
      else s) s) s

/-- Some byte of a line under a key lies in the virtual addresses from base to base + len - 1, which stop at 2^72 - 1 (R128). A
range of more than 4,096 pages is taken to hold every line: a fencer may act on more than its range (log 46). -/
def State.inRange (s : State) (c : Ctx) (base len line key : Nat) : Bool :=
  let stop := min (base + len) (2 ^ 72)
  let first := base / 2 ^ 16
  let pages := (stop - 1) / 2 ^ 16 - first + 1
  decide (4096 < pages) || (List.range pages).any fun i =>
    match s.translate c.unit c.L.part ((first + i) * 2 ^ 16) with
    | .ok pa k _ _ _ _ =>
      let va := (first + i) * 2 ^ 16 + line * 128 % 2 ^ 16
      decide (k = key ∧ pa / 2 ^ 16 = line * 128 / 2 ^ 16 ∧ va < stop ∧ base < va + 128)
    | _ => false

/-- The dirty lines of the cluster that lie in a fencer's range are written back (R113, R128). -/
def State.releaseRange (s : State) (c : Ctx) (scope base len : Nat) : State :=
  if scope < 2 then s
  else
    let cl := clusterOf c.B.core
    (s.l1.filter fun x => decide (x.cluster = cl) && s.inRange c base len x.line x.key).foldl (fun s x =>
      s.writeBack cl x.line x.key) s

/-- FENCER (R128, R225): a release of the writes in its range; an acquire by any read before it in its range orders every access
after it, so its acquire is a fence's. A length of 0 orders nothing. It is never a drain fence (R221). -/
def execFencer (h : Hdr) (o c : BitVec 2) (a b : BitVec 6) (s : State) : Host.Outcome State Fault Refusal :=
  issue (.fencer h o c a b) h 7 (fun x s =>
    let len := ((x.G.sreg b.toNat).extractLsb' 0 64).toNat
    if len = 0 then .done s
    else fenceBody o.toNat c.toNat x (fun s => s.releaseRange x c.toNat (x.G.sreg a.toNat).toNat len) (fun s => s) s) s

end Sys2Proof.Machine
end

