-- ==== Sys2Proof/Machine/Atomics.lean ====
section
/-! DEFINITION. Atomics and reductions (R213-R217) and deterministic reductions (R218-R223, R7, R8). -/

namespace Sys2Proof.Machine

/-- The new value of an atomic (R214). -/
def atomicValue (f : Nat) (w64 : Bool) (m x k : Dword) : Dword :=
  let w := if w64 then 64 else 32
  let s (v : Dword) : Int := if w64 then v.toInt else (v.setWidth 32).toInt
  let cut (v : Dword) : Dword := if w64 then v else (v.setWidth 32).setWidth 64
  match f with
  | 0 => cut (m + x)
  | 1 => m &&& x
  | 2 => m ||| x
  | 3 => m ^^^ x
  | 4 => if s m ≤ s x then m else x
  | 5 => if s x ≤ s m then m else x
  | 6 => if m.toNat ≤ x.toNat then m else x
  | 7 => if x.toNat ≤ m.toNat then m else x
  | 8 => x
  | 9 => if m = k then x else m
  | _ =>
    let fmt := if w = 64 then Fmt.f64 else Fmt.f32
    BitVec.ofNat 64 (roundFmt (fAdd 0 (fmt.value m.toNat) (fmt.value x.toNat)).1 fmt 0 false false).1

/-- Bytes of an atomic's operand. -/
def atomicBytes (w64 : Bool) : Nat := if w64 then 8 else 4

/-- A lane's atomic operand from a register, or a pair with W64. -/
def atomicOperand (w64 : Bool) (t : Lane) (r : Nat) : Dword := if w64 then t.pair r else (t.reg r).setWidth 64

/-- A lane's compare value: a vector register or pair, or a broadcast (R64). -/
def atomicCompare (w64 : Bool) (G : Gang) (c : BitVec 7) (l : Nat) : Dword :=
  if w64 then G.src64 c l else (G.src c l).setWidth 64

/-- The register writes of an atomic's old value. -/
def atomicWrites (w64 : Bool) (l r : Nat) (m : Dword) : List (Nat × Nat × Word) :=
  if w64 then [(l, r, m.setWidth 32), (l, r + 1, m.extractLsb' 32 32)] else [(l, r, m.setWidth 32)]

/-- The MAU of this device performs an atomic (R129): the line's dirty bytes are recalled first. The new state and the old
value, none where the piece is poisoned and nothing is written (R372). -/
def State.mauPerform (s : State) (f : BitVec 4) (w64 : Bool) (pa key : Nat) (x k : Dword) : State × Option Dword :=
  let n := atomicBytes w64
  let s := s.recallLine (lineOf pa) key
  let m : Dword := BitVec.ofNat 64 (ofBytes (s.bytesAt key pa n))
  if s.poisoned key pa n then (s, none)
  else (s.physWrite key pa (bytesOf n (atomicValue f.toNat w64 m x k).toNat), some m)

/-- An atomic message (R408, R410). The operand stands first in DATA and the compare value 8 bytes on (log 15). -/
def atomicMessage (op : MauOp) : FabMsg :=
  { FabMsg.plain 3 (devOf op.pa) op.key (op.pa / 128 * 128) with
    aop := BitVec.ofNat 32 (op.f.toNat + (if op.w64 then 16 else 0) + op.pa % 128 * 128),
    data := op.operand.setWidth 1024 ||| (op.compare.setWidth 1024 <<< 64) }

/-- An atomic leaves for another device: the proxy copy's dirty bytes go before it, and the copies here are dropped
(R129, R410). -/
def State.sendAtomic (s : State) (c : Ctx) (op : MauOp) : State × MauOp :=
  let line := lineOf op.pa
  let s := s.writeBack (clusterOf c.B.core) line op.key
  let r := s.remoteLine line op.key
  let s := if r.dirty = 0 then s else s.gangRequest c.u c.g (writeRequest r)
  let s := (s.setRemote { r with valid := 0, dirty := 0 }).dropL1 (fun k => decide (k = clusterOf c.B.core)) op.key (line * 128) 128
  let op := { op with tag := some s.nextTag }
  ((s.gangRequest c.u c.g (atomicMessage op)).sentFor op.lane op.pc op.va, op)

/-- The operations of an instruction's lanes. -/
def mauOps (c : Ctx) (t : BitVec 7) (f : BitVec 4) (dest : Bool) (acq : Nat) (xs : List Spot) : List MauOp :=
  let w64 := c.h.w64
  xs.map fun x =>
    { lane := x.lane, pa := x.pa, key := x.key, f := f, w64 := w64, operand := atomicOperand w64 (c.G.lane x.lane) t.toNat,
      compare := match c.h.ext with | some (.vec k) => atomicCompare w64 c.G k x.lane | _ => 0,
      dest := if dest then some t.toNat else none, va := BitVec.ofNat 72 x.va, acq := acq, pc := c.pc, tag := none, answer := none }

/-- An atomic of a gang joins its store digest with the value that it writes (R384). -/
def State.digestAtomic (s : State) (u g : Nat) (op : MauOp) (m : Dword) : State :=
  s.digestWrite u g (op.va.toNat % 2 ^ 64) (atomicValue op.f.toNat op.w64 m op.operand op.compare).toNat

/-- An operation of a gang is performed at its MAU (R129, R215): the cluster's own dirty bytes of the line reach its home
first; the old value goes back to the gang. One that meets poison writes nothing (R372); an atomg has been checked for it at
its issue, and no poison comes about while it is on its way (log 53). -/
def State.mauStep (s : State) (u g : Nat) (op : MauOp) (rest : List MauOp) : State :=
  match s.block? u with
  | none => s
  | some b =>
    let cl := clusterOf b.core
    let s := s.modGang u g fun G => { G with mau := rest }
    let s := s.writeBack cl (lineOf op.pa) op.key
    match s.mauPerform op.f op.w64 op.pa op.key op.operand op.compare with
    | (s, none) => s
    | (s, some m) =>
      let s := (s.dropL1 (fun k => decide (k = cl)) op.key op.pa (atomicBytes op.w64)).digestAtomic u g op m
      let s := match op.dest with
        | some d => s.modGang u g fun G => { G with resp := G.resp ++ [({ writes := atomicWrites op.w64 op.lane d m, far := true } : Resp)] }
        | none => s
      s.acquire cl op.acq

/-- The operations of an instruction on this device's memory go to their MAUs (R129). In record mode the gang's accesses keep
its order (R379): all are tested, and then performed, and the writes of every lane join the digest in lane order, those that
another device has answered with them (R384). -/
def State.toMau (s : State) (u g : Nat) (ops : List MauOp) : State :=
  let here := ops.filter fun op => op.tag.isNone
  if ((s.gang? u g).bind (·.chunk)).isSome then
    ops.foldl (fun s op => if op.tag.isNone then s.mauStep u g op []
      else match op.answer with
        | some (some m) => s.digestAtomic u g op m
        | _ => s) (s.gangAccess u g (here.map fun op => Item.line op.key (lineOf op.pa)).eraseDups true)
  else s.modGang u g fun G => { G with mau := G.mau ++ here }

/-- The registers that answered remote atomics write. -/
def awayWrites (ops : List MauOp) : List (Nat × Nat × Word) :=
  ops.flatMap fun op => match op.answer, op.dest with
    | some (some m), some r => atomicWrites op.w64 op.lane r m
    | _, _ => []

/-- An atomic whose remote lanes have been answered goes on (R410). -/
def finishAway (c : Ctx) (s : State) : Eff :=
  let ops := c.G.away
  let out := ops.filter fun op => op.tag.isSome
  if out.any fun op => op.answer.isNone then .stall s
  else
    let bad := out.filter fun op => decide (op.answer = some none)
    let s := (s.unpark c.u c.g).modGang c.u c.g fun G => { G with away := [] }
    match bad with
    | op :: _ => permission 6 op.va.toNat (maskOf fun l => bad.any fun o => decide (o.lane = l)) s
    | [] =>
      let s := (s.toMau c.u c.g ops).respond c true (awayWrites out)
      .done (s.acquire (clusterOf c.B.core) ((ops.map (·.acq)).foldl max 0))

/-- A global atomic or reduction (R215, R216): after its checks and its release, each lane's operation goes to its MAU. One that
returns values waits for other devices' answers, and so does every one in record mode, whose digest needs them (R384). -/
def globalAtomic (t o : BitVec 7) (b : BitVec 3) (f : BitVec 4) (returns : Bool) (order scope : Nat) (c : Ctx) (s : State) : Eff :=
  if !c.G.away.isEmpty then finishAway c s
  else
    match globalCheck c (Access.atomic (atomicBytes c.h.w64) returns) (globalAddrs c b.toNat o) s with
    | .error e => e
    | .ok (s, xs) =>
      if xs.isEmpty then .done s
      else
        let rel := order = 2 ∨ order = 3
        let s := if rel then s.release (clusterOf c.B.core) scope else s
        match (if rel then systemRelease c scope (xs.head?.map (·.va)) c.act s else .ok s) with
        | .error e => e
        | .ok s =>
          let ops := mauOps c t f returns (if order = 1 ∨ order = 3 then (if scope < 2 then 0 else scope) else 0) xs
          let r := ops.foldl (fun (r : State × List MauOp) op =>
            if r.1.local op.pa then (r.1, r.2 ++ [op])
            else let y := r.1.sendAtomic c op; (y.1, r.2 ++ [y.2])) (s, [])
          if r.2.all fun op => op.tag.isNone then .done (r.1.toMau c.u c.g r.2)
          else if returns || c.G.chunk.isSome then
            .stall ((r.1.modGang c.u c.g fun G => { G with away := r.2 }).parkRemote c.u c.g c.L.part (firstAddr (xs.map fun x => (x.lane, x.pa))))
          else .done (r.1.toMau c.u c.g r.2)

/-- ATOMG (R215). -/
def execAtomg (h : Hdr) (g : BitVec 3) (t o : BitVec 7) (b : BitVec 3) (f : BitVec 4) (s : State) : Host.Outcome State Fault Refusal :=
  issue (.atomg h g t o b f) h g (globalAtomic t o b f true h.order h.scope) s

/-- REDG (R215). -/
def execRedg (h : Hdr) (g : BitVec 3) (t o : BitVec 7) (b : BitVec 3) (f : BitVec 4) (s : State) : Host.Outcome State Fault Refusal :=
  issue (.redg h g t o b f) h g (globalAtomic t o b f false 0 2) s

/-- The issuer index of an update (R7). -/
def issuerIndex (lin gang lane seq : Nat) : Nat := vcoreOf lin * 2 ^ 54 + gang * 2 ^ 42 + lane * 2 ^ 37 + seq

/-- A Determinism-Capacity stop joins the chunk of the gang that formed the update, at the words executed so far (R244). -/
def State.logDet (s : State) (a : Nat) (x : DetUpdate) : State :=
  match s.blocks.find? fun b => decide (b.launch = a ∧ b.lin = x.lin) with
  | some b => s.logTrap b.uid x.gang 0x16
  | none => s.modLaunch a fun L => { L with saved := L.saved.map fun y =>
      if y.1.lin = x.lin then
        ({ y.1 with gangs := y.1.gangs.map fun G => if G.idx = x.gang then
            { G with chunk := G.chunk.map fun c => { c with traps := c.traps ++ [(c.count, 0x16)] } } else G }, y.2)
      else y }

/-- Determinism-Capacity (R220, R8): every pending update is discarded, the refused one counted with them. -/
def State.detStop (s : State) (a : Nat) (x : DetUpdate) : State :=
  ((s.logDet a x).modLaunch a fun L => { L with
    detLine := x.va.toNat / 128 * 128, detLost := L.inflight.length + L.held.length + 1,
    fault := match L.fault with
      | some f => some f
      | none => some { cause := 0x16, lin := x.lin, gang := x.gang, lane := x.lane, tpc := x.tpc.setWidth 64,
                       taddr := x.va.setWidth 64, tinfo := BitVec.ofNat 64 (x.va.toNat / 2 ^ 64 * 2 ^ 32) } }).endLaunch a 5

/-- A lane forms its update (R218), or its SEQ would pass 2^37 - 1 and the launch stops (R8). -/
def State.formUpdate (s : State) (c : Ctx) (t : BitVec 7) (f : BitVec 4) (x : Spot) : State :=
  match s.gang? c.u c.g, s.launch? c.L.id with
  | some G, some L =>
    let T := G.lane x.lane
    let up : DetUpdate :=
      { issuer := issuerIndex c.B.lin c.g x.lane T.seq, lin := c.B.lin, pa := x.pa, key := x.key, f := f, w64 := c.h.w64,
        operand := atomicOperand c.h.w64 (c.G.lane x.lane) t.toNat, gang := c.g, lane := x.lane, epoch := T.epoch,
        va := BitVec.ofNat 72 x.va, tpc := c.wpc, chained := false }
    if L.status ≠ 0 then s
    else if 2 ^ 37 ≤ T.seq then s.detStop c.L.id up
    else (s.modGang c.u c.g fun G => G.modLane x.lane fun t => { t with seq := t.seq + 1 }).modLaunch c.L.id fun L =>
      { L with inflight := L.inflight ++ [up] }
  | _, _ => s

/-- REDG_DET (R218, R223): its checks are those of an atomic; watch descriptors see a write (R333). -/
def execRedgDet (h : Hdr) (g : BitVec 3) (t o : BitVec 7) (b : BitVec 3) (f : BitVec 4) (s : State) : Host.Outcome State Fault Refusal :=
  issue (.redgDet h g t o b f) h g (fun c s =>
    match globalCheck c { (Access.atomic (atomicBytes h.w64) false : Access) with rd := false, det := true } (globalAddrs c b.toNat o) s with
    | .error e => e
    | .ok (s, xs) => .done (xs.foldl (fun s x => s.formUpdate c t f x) s)) s

/-- A scratchpad atomic or reduction (R215, R129): lanes in ascending order, each seeing the lower ones. -/
def spadAtomic (t o : BitVec 7) (f : BitVec 4) (returns : Bool) (c : Ctx) (s : State) : Eff :=
  let w64 := c.h.w64
  let n := atomicBytes w64
  match spadCheck c (Access.atomic n returns) n (spadAddrs c o c.h.disp) s with
  | .error e => e
  | .ok (s, xs) =>
    let s := s.spadAccess c xs n true
    let r := xs.foldl (fun (r : State × List (Nat × Nat × Word)) x =>
      let m : Dword := BitVec.ofNat 64 (readLE (r.1.spad c.u) x.2 n)
      let T := c.G.lane x.1
      let k := match c.h.ext with | some (.vec k) => atomicCompare w64 c.G k x.1 | _ => 0
      let v := atomicValue f.toNat w64 m (atomicOperand w64 T t.toNat) k
      ((r.1.spadWrite c.u x.2 (bytesOf n v.toNat)).digestWrite c.u c.g x.2 v.toNat,
       if returns then r.2 ++ atomicWrites w64 x.1 t.toNat m else r.2)) (s, [])
    .done (r.1.respond c false r.2)

/-- ATOMS (R215): always at block scope (R216), where its order needs no cache action (R113). -/
def execAtoms (h : Hdr) (g : BitVec 3) (t o : BitVec 7) (f : BitVec 4) (s : State) : Host.Outcome State Fault Refusal :=
  issue (.atoms h g t o f) h g (spadAtomic t o f true) s

/-- REDS (R215). -/
def execReds (h : Hdr) (g : BitVec 3) (t o : BitVec 7) (f : BitVec 4) (s : State) : Host.Outcome State Fault Refusal :=
  issue (.reds h g t o f) h g (spadAtomic t o f false) s

/-- What an MAU operation does to a piece: the same aligned 8 bytes (R129). -/
def MauOp.samePiece (x y : MauOp) : Bool := decide (x.pa / 8 = y.pa / 8)

/-- An operation of a gang waits for an earlier one of it on the same piece (R121); reductions of different lanes do not (R216,
R223). -/
def MauOp.after (x y : MauOp) : Bool := x.samePiece y && !(x.relaxed && y.relaxed && decide (x.lane ≠ y.lane))

/-- Every operation on its way reaches its MAU: what happens before an event that poisons memory (log 53). -/
def State.drainMaus (s : State) : State :=
  s.blocks.foldl (fun s b => b.gangs.foldl (fun s G => G.mau.foldl (fun s op =>
    s.mauStep b.uid G.idx op (((s.gang? b.uid G.idx).map (·.mau)).getD []).tail) s) s) s

/-- MAU_ATOMIC (R129): operation k of a gang reaches its MAU, unless an earlier operation of the gang is to come before it. -/
def execMauAtomic (u g k : Nat) (s : State) : Host.Outcome State Fault Refusal :=
  match s.gang? u g with
  | some G => match G.mau[k]? with
    | some op =>
      if (G.mau.take k).any (MauOp.after op) then .next s
      else .next (s.mauStep u g op (G.mau.take k ++ G.mau.drop (k + 1)))
    | none => .next s
  | none => .next s

end Sys2Proof.Machine
end

