-- ==== Sys2Proof/Machine/Control.lean ====
section
/-! DEFINITION. Control transfers, exits, yield, breakpoints and traps (R180-R188). -/

namespace Sys2Proof.Machine

/-- The target of a B-format transfer (R160): the word's address plus four times the signed offset. -/
def Ctx.target (c : Ctx) (o : BitVec 21) : Word := c.wpc + (o.signExtend 32) * 4

/-- Bits 1:0 of a register target are cleared (R181). -/
def wordAligned (x : Word) : Word := x &&& ~~~3#32

/-- The active threads go to their targets; the others go on at the next word (R181). -/
def transfer (link : Bool) (target : Ctx → Lane → Word) (c : Ctx) (s : State) : Eff :=
  .done (s.modGang c.u c.g fun G =>
    (G.modLanes c.act fun _ t => { t with pc := target c t, lnk := if link then c.after else t.lnk }).settle c.act)

/-- BRA (R181). -/
def execBra (h : Hdr) (g : BitVec 3) (o : BitVec 21) (s : State) : Host.Outcome State Fault Refusal :=
  issue (.bra h g o) h g (transfer false fun c _ => c.target o) s

/-- CALL (R181). -/
def execCall (h : Hdr) (g : BitVec 3) (o : BitVec 21) (s : State) : Host.Outcome State Fault Refusal :=
  issue (.call h g o) h g (transfer true fun c _ => c.target o) s

/-- RET (R181). -/
def execRet (h : Hdr) (g : BitVec 3) (s : State) : Host.Outcome State Fault Refusal :=
  issue (.ret h g) h g (transfer false fun _ t => t.lnk) s

/-- BRX (R181). -/
def execBrx (h : Hdr) (g : BitVec 3) (t : BitVec 7) (s : State) : Host.Outcome State Fault Refusal :=
  issue (.brx h g t) h g (transfer false fun _ x => wordAligned (x.reg t.toNat)) s

/-- CALLX (R181). -/
def execCallx (h : Hdr) (g : BitVec 3) (t : BitVec 7) (s : State) : Host.Outcome State Fault Refusal :=
  issue (.callx h g t) h g (transfer true fun _ x => wordAligned (x.reg t.toNat)) s

/-- NOP (R184). -/
def execNop (h : Hdr) (g : BitVec 3) (s : State) : Host.Outcome State Fault Refusal :=
  issue (.nop h g) h g (fun _ s => .done s) s

/-- The active threads exit (R184). -/
def exitBody (c : Ctx) (s : State) : State :=
  (s.modGang c.u c.g fun G => G.exitLanes c.act).afterExit c.u c.g c.act

/-- The active lanes that are members of a set, and the sets (R52). -/
def orphans (c : Ctx) : BitVec 32 × Nat :=
  ((List.range 16).foldl (fun m j => m ||| (c.G.m j &&& c.act)) 0,
   (List.range 16).foldl (fun x j => if c.G.m j &&& c.act ≠ 0 then x + 2 ^ j else x) 0)

/-- EXIT (R184, R52): Orphaned-Set when an active thread is a member of a set. Its TINFO is open (log 5). -/
def execExit (h : Hdr) (g : BitVec 3) (s : State) : Host.Outcome State Fault Refusal :=
  issue (.exit h g) h g (fun c s =>
    let o := orphans c
    if o.1 ≠ 0 then trapAll 0x0B (o.1 ++ BitVec.ofNat 32 o.2) s.freeVal s.takeFree else .done (exitBody c s)) s

/-- EXIT_Q (R53, R184). -/
def execExitQ (h : Hdr) (g : BitVec 3) (s : State) : Host.Outcome State Fault Refusal :=
  issue (.exitQ h g) h g (fun c s => .done (exitBody c (s.modGang c.u c.g fun G => G.quitAll c.act))) s

/-- YIELD (R43, R184): the passing of a deterministic quadrant is at the run's end. -/
def execYield (h : Hdr) (g : BitVec 3) (s : State) : Host.Outcome State Fault Refusal :=
  issue (.yield h g) h g (fun c s =>
    if c.L.r.det ∨ c.act = 0 then .done s
    else .done (s.modGang c.u c.g fun G => { G.modLanes c.act fun _ t => { t with ymark := true } with ymark := true })) s

/-- The active lanes in handler state. -/
def Ctx.handlers (c : Ctx) : BitVec 32 := maskOf fun l => c.act.getLsbD l && (c.G.lane l).handler

/-- TRET (R187, R188). -/
def execTret (h : Hdr) (g : BitVec 3) (s : State) : Host.Outcome State Fault Refusal :=
  issue (.tret h g) h g (fun c s =>
    let s := s.tret c.u c.g c.handlers
    let rest := c.act &&& ~~~ c.handlers
    if rest = 0 then .done s
    else .trap { cause := 0x15, addr := 0, info := 1, lanes := some rest, again := false, detail := 0x15 } s) s

/-- A trap on each active thread with a code (R186). -/
def codeTrap (cause : Nat) (code : BitVec 9) (c : Ctx) (s : State) : Eff :=
  if c.act = 0 then .done s
  else .trap { cause := cause, addr := code.setWidth 64, info := 0, lanes := some c.act, again := false, detail := cause } s

/-- BKPT (R186). -/
def execBkpt (h : Hdr) (g : BitVec 3) (k : BitVec 9) (s : State) : Host.Outcome State Fault Refusal :=
  issue (.bkpt h g k) h g (codeTrap 0x14 k) s

/-- TRAP (R186). -/
def execTrap (h : Hdr) (g : BitVec 3) (k : BitVec 9) (s : State) : Host.Outcome State Fault Refusal :=
  issue (.trap h g k) h g (codeTrap 0x15 k) s

end Sys2Proof.Machine
end

