-- ==== Sys2Proof/Machine/Virtual.lean ====
section
/-! DEFINITION. Memory as the command processor, the context engine and the trace writer use it, through a partition's
translation (R309, R313, R315, R338, R350). -/

namespace Sys2Proof.Machine

/-- What stops an access of these units: an address that does not translate, or another device's bytes under way. -/
inductive VirtStop where
  | at (va : Nat) (x : Place)
  | away

/-- The lines of other devices under n bytes that have no filled proxy copy (R373). -/
def State.virtMissing (s : State) (p va n : Nat) (need : Needs) : List (Nat × Nat) :=
  ((List.range ((va % 128 + n + 127) / 128)).filterMap fun i =>
    match s.place .device p (((va / 128 + i) * 128) % 2 ^ 72) need with
    | .ok pa key =>
      if s.local pa || decide ((s.remoteLine (lineOf pa) key).valid = BitVec.allOnes 128) then none else some (lineOf pa, key)
    | _ => none).eraseDups

/-- Read messages for lines that no message asks for yet (R410). -/
def State.askFor (s : State) (ls : List (Nat × Nat)) : State :=
  ls.foldl (fun s x => if s.outstanding 1 x.1 x.2 then s else s.sendRequest (readRequest x.1 x.2) none none) s

/-- Reading n bytes: the state after the messages that it sends, and the bytes or what stops it. -/
def State.virtRead (s : State) (p va n : Nat) (need : Needs) : State × Except VirtStop (List Byte) :=
  match s.virtCheck p va n need with
  | some (a, x) => (s, .error (.at a x))
  | none =>
    match s.virtMissing p va n need with
    | x :: t =>
      if (x :: t).any fun y => decide (y ∈ s.deadLines) then
        ({ s with deadLines := s.deadLines.filter fun y => !decide (y ∈ x :: t) }, .error (.at va (.perm 6)))
      else (s.askFor (x :: t), .error .away)
    | [] => match s.virtBytes p va n need with
      | .ok bs => (s, .ok bs)
      | .error (a, x) => (s, .error (.at a x))

/-- A release at .s of what these units have written to other devices' memory (R374). -/
def State.virtRelease (s : State) : State :=
  s.remoteDirty.foldl (fun s x => if s.outstanding 2 x.line x.key then s else s.sendRequest (writeRequest x) none none) s

/-- The record of a translation fault, or of a malformed entry, that such an access meets (R347, R350). -/
def State.virtFault (s : State) (p a : Nat) (x : Place) (f : FaultSrc) : State :=
  match x with
  | .fault l e v => s.faultRecord p a l e v 1 f
  | .perm 4 => s.recordWalk .device p a f
  | _ => s

/-- Whether what stopped an access parks it until FRESUME (R350, R351). -/
def Place.parks : Place → Bool
  | .fault _ _ _ => true
  | _ => false

end Sys2Proof.Machine
end

