-- ==== Sys2Proof/Machine/LaunchRecord.lean ====
section
/-! DEFINITION. The launch record: its fields (R313), watch descriptors (R332), slot descriptors (R90, R91), and the rules
that a launch must keep (R314). -/

namespace Sys2Proof.Machine

/-- A format code that R76 lists. -/
def listedFormat (f : Nat) : Bool :=
  decide (f ∈ [0x01, 0x02, 0x03, 0x04, 0x05, 0x06, 0x08, 0x09, 0x0A, 0x0B, 0x0C, 0x10, 0x11])

/-- A slot descriptor (R90). -/
def readSlot (d : Nat) : Option SlotDesc :=
  if d % 32 = 0 then none
  else some { fmt := d % 32, planes := d / 2 ^ 8 % 16, centre := d.testBit 12, scale := d / 2 ^ 13 % 4, ftz := d.testBit 15,
              rnd := d / 2 ^ 16 % 8 }

/-- A slot descriptor keeps R91. -/
def slotOk (d : Nat) : Bool :=
  let f := d % 32
  let bp := decide (f = 0x10 ∨ f = 0x11)
  let planes := d / 2 ^ 8 % 16
  decide (d / 2 ^ 19 = 0) && decide (d / 2 ^ 5 % 8 = 0) && (decide (f = 0) || listedFormat f)
    && (if bp then decide (2 ≤ planes ∧ planes ≤ 8) else decide (planes = 0)) && (bp || !d.testBit 12)
    && decide (d / 2 ^ 16 % 8 ≤ 4) && (decide (f ≠ 0) || decide (d = 0))

/-- A watch descriptor from its 96 bytes (R332). -/
def readWatch (bs : List Byte) : WatchDesc :=
  let ctl := BitVec.ofNat 32 (fieldAt bs 0x10 4)
  { base := if ctl.getLsbD 9 then fieldAt bs 0 4 else fieldAt bs 0 9, spad := ctl.getLsbD 9,
    esize := 2 ^ (ctl.extractLsb' 6 3).toNat, ndim := (ctl.extractLsb' 4 2).toNat + 1, kinds := ctl.extractLsb' 0 4,
    ext := (List.range 4).map fun i => fieldAt bs (0x18 + 4 * i) 4,
    str := (List.range 4).map fun i => (BitVec.ofNat 64 (fieldAt bs (0x28 + 8 * i) 8)).toInt }

/-- A watch descriptor that the device rejects (R332). -/
def badWatch (bs : List Byte) : Bool :=
  let ctl := BitVec.ofNat 32 (fieldAt bs 0x10 4)
  let d := readWatch bs
  decide (ctl.extractLsb' 10 22 ≠ 0) || !zeroAt bs 0x14 4 || !zeroAt bs 0x48 24 || decide (d.kinds = 0)
    || decide (4 < (ctl.extractLsb' 6 3).toNat) || (d.ext.take d.ndim).any (· = 0)
    || (d.ext.drop d.ndim).any (· ≠ 0) || (d.str.drop d.ndim).any (· ≠ 0)
    || (if d.spad then !zeroAt bs 4 5 else !zeroAt bs 9 7)

/-- The role of a gang logical index. -/
def roleAt (bs : List Byte) (g : Nat) : Nat := fieldAt bs (0x160 + g) 1 % 4

/-- A declared buffer: offset and size (R105). -/
def bufferAt (bs : List Byte) (n : Nat) : Nat × Nat := (fieldAt bs (0xE0 + 8 * n) 4, fieldAt bs (0xE4 + 8 * n) 4)

/-- A buffer declaration that breaks R105. -/
def badBuffer (bs : List Byte) (n : Nat) : Bool :=
  let b := bufferAt bs n
  decide (b.2 ≠ 0) && (decide (b.1 % 128 ≠ 0) || decide (b.2 % 128 ≠ 0) || decide (fieldAt bs 0x30 4 < b.1 + b.2)
    || (List.range 16).any fun m =>
      let c := bufferAt bs m
      decide (m ≠ n ∧ c.2 ≠ 0 ∧ b.1 < c.1 + c.2 ∧ c.1 < b.1 + b.2))

/-- The pointer fields of the record. -/
def recordPointers : List Nat := [0x008, 0x038, 0x048, 0x058, 0x070, 0x090, 0x188]

/-- The first of a list of offsets with a fault, at the reason. -/
def firstBad (reason : Nat) (xs : List (Nat × Bool)) : Option (Nat × Nat) :=
  (xs.find? fun x => x.2).map fun x => (reason, x.1)

/-- The offsets of reserved bytes and of fields with reserved bits, ascending (R313). -/
def reservedBad (bs : List Byte) : List (Nat × Bool) :=
  let byte (o : Nat) : Nat × Nat × Bool := (o, o, !zeroAt bs o 1)
  let ptr := recordPointers.flatMap fun p => (List.range 7).map fun i => byte (p + 9 + i)
  let res := ([0x2E, 0x2F, 0x6A, 0x6B] ++ (List.range 100).map (0x19C + ·)).map byte
  (sortedBy ((4, 4, decide (2 ^ 8 ≤ fieldAt bs 4 4)) :: ptr ++ res)).map (·.2)

/-- A role that breaks R313: bits 7:2 are zero, and so is the role of a gang that the block does not have. -/
def badRole (bs : List Byte) (k : Nat) : Bool :=
  decide (4 ≤ fieldAt bs (0x160 + k) 1) || (decide (fieldAt bs 0x2C 1 ≤ k) && !zeroAt bs (0x160 + k) 1)

/-- What a launch names beside its record, as far as it can be read at dispatch (R313, R351). -/
structure LaunchData where
  watch : Option (List Byte)
  table : Option (List Byte)
  param : Option (List Byte)

/-- x lies in lo to hi. -/
def within (lo hi x : Nat) : Bool := decide (lo ≤ x) && decide (x ≤ hi)

/-- The budgets of a role break R69. -/
def badBudget (bs : List Byte) (r : Nat) : Bool :=
  decide (fieldAt bs (0x180 + 2 * r) 1 % 8 ≠ 0) || !within 16 112 (fieldAt bs (0x180 + 2 * r) 1)
    || !([16, 32, 48, 64].contains (fieldAt bs (0x181 + 2 * r) 1))

/-- The watch descriptors break reason 11. -/
def badWatches (bs : List Byte) : Option (List Byte) → Bool
  | none => true
  | some ws => (List.range (fieldAt bs 0x68 1)).any fun i => badWatch ((ws.drop (96 * i)).take 96)

/-- What breaks reasons 1 to 8 of R314, in ascending reason: offsets with whether the field there offends. At most eight gangs
of a block share a quadrant, and no budget exceeds 14 granules, so 192 granules are never passed. -/
def lowReasons (bs : List Byte) : List (List (Nat × Bool)) :=
  [ [(0x000, decide (fieldAt bs 0 4 ≠ 1))],
    reservedBad bs,
    (List.range 3).map fun i => (0x20 + 4 * i, !within 1 (2 ^ 20) (fieldAt bs (0x20 + 4 * i) 4)),
    [(0x2C, !within 1 32 (fieldAt bs 0x2C 1)), (0x2D, decide (8 < fieldAt bs 0x2D 1))],
    [(0x30, decide (fieldAt bs 0x30 4 % 1536 ≠ 0) || decide (786432 < fieldAt bs 0x30 4))],
    (List.range 16).map fun n => (0xE0 + 8 * n, badBuffer bs n),
    (List.range 8).map fun i => (0xA0 + 8 * i, !slotOk (fieldAt bs (0xA0 + 8 * i) 8)),
    ((List.range 32).map fun k => (0x160 + k, badRole bs k)) ++ (List.range 4).map fun r =>
      (0x180 + 2 * r, (List.range (min (fieldAt bs 0x2C 1) 32)).any (fun k => decide (roleAt bs k = r)) && badBudget bs r) ]

/-- What breaks reasons 9 to 16 of R314. ring: the partition has a spill ring, or replays the launch. -/
def highReasons (bs : List Byte) (d : LaunchData) (ring : Bool) : List (List (Nat × Bool)) :=
  [ [(0x34, decide (fieldAt bs 0x34 4 % 16 ≠ 0) || !within 16 (2 ^ 25) (fieldAt bs 0x34 4)),
     (0x38, decide (fieldAt bs 0x38 9 % 16 ≠ 0))],
    [(0x08, decide (fieldAt bs 0x08 9 % 128 ≠ 0)), (0x18, decide (fieldAt bs 0x18 4 % 4 ≠ 0)),
     (0x1C, decide (fieldAt bs 0x1C 4 % 4 ≠ 0) && decide (fieldAt bs 0x1C 4 ≠ 0xFFFFFFFF))],
    [(0x58, decide (fieldAt bs 0x68 1 ≠ 0) && (decide (fieldAt bs 0x58 9 % 16 ≠ 0)
        || (decide (fieldAt bs 0x68 1 ≤ 8) && badWatches bs d.watch))),
     (0x68, decide (8 < fieldAt bs 0x68 1))],
    [(0x69, decide (2 < fieldAt bs 0x69 1)),
     (0x70, decide (fieldAt bs 0x69 1 = 2) && within 1 (2 ^ 24) (fieldAt bs 0x80 4) && d.table.isNone),
     (0x80, decide (fieldAt bs 0x69 1 = 2) && !within 1 (2 ^ 24) (fieldAt bs 0x80 4))],
    [(0x48, d.param.isNone)],
    [(0x84, decide (fieldAt bs 0x84 4 ≠ 0) && !within 1024 65536 (fieldAt bs 0x84 4))],
    [(0x04, (fieldAt bs 4 4).testBit 1 && !ring)],
    [(0x188, decide (fieldAt bs 0x188 9 % 128 ≠ 0)),
     (0x198, decide (fieldAt bs 0x188 9 ≠ 0) && decide (fieldAt bs 0x198 4 % 512 ≠ 0))] ]

/-- The first broken rule of R314, with the offset of its first offending field. -/
def rejection (bs : List Byte) (d : LaunchData) (ring : Bool) : Option (Nat × Nat) :=
  let all := lowReasons bs ++ highReasons bs d ring
  (List.range 16).findSome? fun i => firstBad (i + 1) (all.getD i [])

/-- The record that a launch holds (R313). -/
def readRecord (addr : Wide) (bs : List Byte) (d : LaunchData) : LaunchRec :=
  let f := fieldAt bs
  let flags := f 4 4
  { addr := addr, det := flags.testBit 0, record := flags.testBit 1, debug := flags.testBit 2,
    fpEnables := BitVec.ofNat 5 (flags / 8), codeBase := BitVec.ofNat 72 (f 0x08 9), entry := BitVec.ofNat 32 (f 0x18 4),
    handler := BitVec.ofNat 32 (f 0x1C 4), gridX := f 0x20 4, gridY := f 0x24 4, gridZ := f 0x28 4, gangs := f 0x2C 1,
    accn := f 0x2D 1, scratch := f 0x30 4, stackStride := f 0x34 4, stackBase := BitVec.ofNat 72 (f 0x38 9),
    affsel := f 0x69 1, affmul := f 0x6C 4, affTable := d.table.getD [], chunk := if f 0x84 4 = 0 then 8192 else f 0x84 4,
    seed := BitVec.ofNat 64 (f 0x88 8), completion := BitVec.ofNat 72 (f 0x90 9),
    slots := (List.range 8).map fun i => readSlot (f (0xA0 + 8 * i) 8), bufs := (List.range 16).map (bufferAt bs),
    roles := (List.range 32).map (roleAt bs), budgets := (List.range 4).map fun r => (f (0x180 + 2 * r) 1, f (0x181 + 2 * r) 1),
    watch := (List.range (f 0x68 1)).map fun i => readWatch (((d.watch.getD []).drop (96 * i)).take 96),
    trace := BitVec.ofNat 72 (f 0x188 9), traceLen := f 0x198 4, param := d.param.getD [] }

/-- A read at dispatch that never parks (R351). -/
def State.tryRead (s : State) (p va n : Nat) : Option (List Byte) :=
  match s.virtCheck p va n ⟨true, false, false⟩ with
  | some _ => none
  | none => match s.virtBytes p va n ⟨true, false, false⟩ with | .ok bs => some bs | .error _ => none

/-- Bytes that a launch record names, read at dispatch without parking (R351): none of them where they cannot be read, no answer
while another device's are under way (R410). -/
def State.namedRead (s : State) (p va n : Nat) : State × Option (Option (List Byte)) :=
  match s.virtRead p va n ⟨true, false, false⟩ with
  | (s, .ok bs) => (s, some (some bs))
  | (s, .error .away) => (s, none)
  | (s, .error (.at _ _)) => (s, some none)

/-- What the record names, read at dispatch (R110, R313, R318, R332), once all of it is here. -/
def State.launchData (s : State) (p : Nat) (bs : List Byte) : State × Option LaunchData :=
  let nw := fieldAt bs 0x68 1
  let len := fieldAt bs 0x80 4
  let w := if nw = 0 ∨ 8 < nw then (s, some (some [])) else s.namedRead p (fieldAt bs 0x58 9) (96 * nw)
  let t := if fieldAt bs 0x69 1 = 2 ∧ 1 ≤ len ∧ len ≤ 2 ^ 24 then w.1.namedRead p (fieldAt bs 0x70 9) len else (w.1, some none)
  let r := t.1.namedRead p (fieldAt bs 0x48 9) 4096
  (r.1, match w.2, t.2, r.2 with
    | some w, some t, some x => some { watch := w, table := t, param := x }
    | _, _, _ => none)

end Sys2Proof.Machine
end

