-- ==== Sys2Proof/Machine/Jobs.lean ====
section
/-! DEFINITION. Engine jobs: their order (R133, R136, R138, R321), their acceptance and events (R329), their clocks in
record mode (R379, R381), and the token (R116). -/

namespace Sys2Proof.Machine

/-- Kinds of jobs. -/
def Job.isCopy (j : Job) : Bool := match j.kind with | .copy _ => true | _ => false
def Job.isMma (j : Job) : Bool := match j.kind with | .mma _ => true | _ => false
def Job.isAcc (j : Job) : Bool := match j.kind with | .acc _ _ => true | _ => false

/-- Regions that share a space and a byte, an offset or a tile (R136). -/
def JRegion.overlaps (x y : JRegion) : Bool :=
  decide (x.space = y.space) && decide (x.base < y.base + y.len) && decide (y.base < x.base + x.len)

/-- A later job waits for an earlier one (R136): a write region of either overlaps a region of the other, both are of one
instruction, whose token they share (R234, R279), or the later one is an accumulator action on a tile of the earlier one
(R138, R284). -/
def Job.before (i j : Job) : Bool :=
  (decide (i.gang = j.gang) && i.token.isSome && decide (i.token = j.token))
    || i.regions.any fun x => j.regions.any fun y =>
      (x.write || y.write || (j.isAcc && decide (x.space = .acc))) && x.overlaps y

/-- No earlier job holds a job back (R136, R138); a handler's action on a frozen tile waits only for the jobs before the
frozen one and for its own earlier actions (R291). -/
def Block.allows (b : Block) (j : Job) : Bool :=
  ((b.jobs.takeWhile fun i => decide (i.id ≠ j.id)).filter fun i =>
    match j.past with | none => true | some k => decide (i.id < k ∨ i.past = some k)).all fun i => !i.before j

/-- A job of a block. -/
def Block.job? (b : Block) (j : Nat) : Option Job := b.jobs.find? fun x => decide (x.id = j)

/-- The state with a job changed. -/
def State.modJob (s : State) (u j : Nat) (f : Job → Job) : State :=
  s.modBlock u fun b => { b with jobs := b.jobs.map fun x => if x.id = j then f x else x }

/-- The jobs of the blocks on a core. -/
def State.coreJobs (s : State) (core : Nat) : List Job :=
  (s.blocks.filter fun b => decide (b.core = core)).flatMap (·.jobs)

/-- The next job number of a block: the next value modulo 1,024 that no uncompleted job holds (R376). -/
def Block.freeJobNo (b : Block) : Nat :=
  ((List.range 1024).find? fun k => !b.jobs.any fun j => !j.isAcc && decide (j.jobNo = (b.nextJob + k) % 1024)).getD 0 + b.nextJob

/-- A job as it is accepted, before its number and its clock. -/
def Job.fresh (gang lane : Nat) (kind : JobKind) (token : Option Nat) (last : Bool) (pc : Word) (regions : List JRegion) : Job :=
  { id := 0, gang := gang, lane := lane, kind := kind, token := token, lastOfInstr := last, seq := 0, pc := pc,
    regions := regions, started := false, pos := 0, frozen := false, watchPos := none, parked := false, failed := false,
    clock := 0, prevClock := 0, firstClock := none, jobNo := 0, held := false, step := 0, past := none, want := none }

/-- The launch of a block is recorded. -/
def State.recorded (s : State) (u : Nat) : Bool :=
  match s.launchOf u with | some L => L.number.isSome | none => false

/-- A record of a logged job: its position for a step, its clock, and its first clock (R386). -/
def LogRec.ofJob (n b g l q : Nat) : LogRec → Option (Option Nat × Nat × Option Nat)
  | .jobStep ln bl ga la sq pos clock first =>
    if ln = n ∧ bl = b ∧ ga = g ∧ la = l ∧ sq = q then some (some pos, clock, first) else none
  | .jobEnd ln bl ga la sq clock first =>
    if ln = n ∧ bl = b ∧ ga = g ∧ la = l ∧ sq = q then some (none, clock, first) else none
  | _ => none

/-- The logged records of a job that is replayed, each with its place in the log. -/
def State.jobLog (s : State) (u : Nat) (j : Job) : List (Nat × Option Nat × Nat × Option Nat) :=
  match s.replayOf u, s.block? u, s.launchOf u with
  | some P, some b, some L => (List.range P.rpLog.length).filterMap fun i =>
      (P.rpLog[i]?.bind (LogRec.ofJob (L.number.getD 0) b.lin j.gang j.lane j.seq.toNat)).map fun x => (i, x)
  | _, _, _ => []

/-- The logged steps among them: place, position, clock. -/
def jobSteps (l : List (Nat × Option Nat × Nat × Option Nat)) : List (Nat × Nat × Nat) :=
  l.filterMap fun x => x.2.1.map fun p => (x.1, p, x.2.2.1)

/-- The segment that a job runs has completed (R392). -/
def State.segmentDone (s : State) (u : Nat) (j : Job) : State :=
  match s.launchOf u with
  | none => s
  | some L =>
    let l := s.jobLog u j
    if j.step = 0 then s
    else if j.step = 1 then match l.head? with | some x => s.logDone L.part (x.1, true) | none => s
    else match (jobSteps l)[j.step - 2]? with | some x => s.logDone L.part (x.1, false) | none => s

/-- In replay, a job that stands at its next logged step waits there (R392). -/
def State.jobSettle (s : State) (u j : Nat) : State :=
  match (s.block? u).bind (·.job? j) with
  | none => s
  | some x =>
    if x.step = 0 then s
    else match (jobSteps (s.jobLog u x))[x.step - 1]? with
      | some y => if y.2.1 = x.pos then (s.segmentDone u x).modJob u j fun x => { x with held := true } else s
      | none => s

/-- In replay, the clock for which a held job waits. -/
def State.jobClock (s : State) (u : Nat) (j : Job) : Option Nat :=
  let l := s.jobLog u j
  if j.step = 0 then l.head?.bind fun x => x.2.2.2 else (jobSteps l)[j.step - 1]?.map fun x => x.2.2

/-- A job is accepted (R136): it takes the next number of its thread, its number in the block, and its first clock
(R379); in replay its clocks are the logged ones (R392). A job of a launch that has ended is discarded at once, and nothing
waits for it (R327). -/
def State.accept (s : State) (u : Nat) (j : Job) : State :=
  match s.block? u, s.launchOf u, s.gang? u j.gang with
  | some b, some L, some G =>
    if L.status ≠ 0 then s.modGang u j.gang fun G => { G with tokens := [], accRegs := [] } else
    let new := (s.part L.part).hwm + 1
    let logged := L.number.isSome && !j.isAcc && (s.replayOf u).isNone
    let past := logged && decide (clockLimit < new)
    let s := if past then s.endSession L.part true else s
    let rec_ := logged && !past
    let clk := if rec_ then new else 0
    let s := if rec_ then s.raiseHwm L.part clk else s
    let no := if j.isAcc then 0 else b.freeJobNo
    let j := { j with
      id := s.nextId, seq := (G.lane j.lane).jobSeq, jobNo := no % 1024, clock := clk, prevClock := clk,
      firstClock := if rec_ then some clk else none, held := (s.replayOf u).isSome && !j.isAcc }
    let s := { s with nextId := s.nextId + 1 }
    let s := s.modBlock u fun b => { b with jobs := b.jobs ++ [j], nextJob := if j.isAcc then b.nextJob else (no + 1) % 1024 }
    if j.isAcc then s else s.modGang u j.gang fun G => G.modLane j.lane fun t => { t with jobSeq := t.jobSeq + 1 }
  | _, _, _ => s

/-- The fields that begin a job's records (R386): FIRST stands with the first record of the job. -/
def Job.recordHead (j : Job) (kind lnum lin : Nat) (pos : Option Nat) (lbase : Nat) : List Byte :=
  bytesOf 1 kind ++ vField lnum ++ vField lin ++ bytesOf 1 j.gang
    ++ bytesOf 1 (j.lane + (if j.firstClock.isSome then 128 else 0)) ++ vField j.seq.toNat
    ++ (match pos with | some x => vField x | none => [])
    ++ vField (j.clock - j.prevClock)
    ++ (match j.firstClock with | some c => vField (c - lbase) | none => [])

/-- A job step or job end of a recorded job joins the log (R386). -/
def State.jobRecord (s : State) (u j kind : Nat) (pos : Option Nat) : State :=
  match s.block? u, s.launchOf u with
  | some b, some L => match b.job? j with
    | some x =>
      if L.number.isNone then s else
      (s.logRecord L.part (clusterOf b.core) (x.recordHead kind (L.number.getD 0) b.lin pos L.lbase)).modJob u j fun x =>
        { x with prevClock := x.clock, firstClock := none }
    | none => s
  | _, _ => s

/-- One access of a job to a clocked item, at its own clock (R381): a failed test raises it and writes a job step. -/
def State.jobTest (s : State) (u j : Nat) (write : Bool) (it : Item) : State :=
  match s.block? u, s.launchOf u with
  | some b, some L => match b.job? j with
    | some x =>
      if L.number.isNone || (s.replayOf u).isSome then s
      else
        let a := jobAgent b.recNo x.jobNo
        let bad := (s.clocks u it).failures x.clock a write
        let C := bad.foldl (fun m d => max m (d.2 + 1)) x.clock
        if clockLimit < C then s.endSession L.part true else
        let s := if bad.isEmpty then s
          else ((s.modJob u j fun x => { x with clock := C }).raiseHwm L.part C).jobRecord u j 2 (some x.pos)
        s.setClocks u it ((s.clocks u it).record C a write)
    | none => s
  | _, _ => s

/-- The accesses of a job at a position, each tested and recorded in turn (R378, R381). -/
def State.jobAccess (s : State) (u j : Nat) (reads writes : List Item) : State :=
  writes.foldl (fun s it => s.jobTest u j true it) (reads.foldl (fun s it => s.jobTest u j false it) s)

/-- TINFO of an engine event (R329). -/
def Job.info (j : Job) (hi group idx : Nat) (spad : Bool) : Dword :=
  BitVec.ofNat 64 (hi * 2 ^ 56 + group * 2 ^ 48 + idx * 2 ^ 45 + j.lane * 2 ^ 40 + (if j.isMma then 1 else 0) * 2 ^ 38
    + (if spad then 1 else 0) * 2 ^ 37 + j.seq.toNat)

/-- A gang's event queue is full for an event that it could deliver (R329). -/
def State.queueFull (s : State) (u g lane : Nat) : Bool :=
  match s.gang? u g, s.launchOf u with
  | some G, some L => decide (L.r.handler ≠ noHandler) && (G.lane lane).live && decide (8 ≤ G.events.length)
  | _, _ => false

/-- An engine has an event of a job for its gang (R329): it is queued, or the job is held with it until an entry frees. -/
def State.raiseEvent (s : State) (u : Nat) (j : Job) (e : EngEvent) : State :=
  if s.queueFull u j.gang j.lane then s.modJob u j.id fun x => { x with want := some e, started := false }
  else
    let s := s.modJob u j.id fun x => { x with want := none, started := false, frozen := decide (e.cause = 0x10) }
    s.queueEvent u j.gang e

/-- An event of a job. -/
def Job.event (j : Job) (cause addr : Nat) (info : Dword) : EngEvent :=
  { lane := j.lane, cause := cause, tpc := j.pc, taddr := BitVec.ofNat 64 addr, tinfo := info,
    job := if cause = 0x10 then some j.id else none }

/-- The token of a job receives its value (R116): the register, and the scoreboard after the last job. -/
def State.writeToken (s : State) (u : Nat) (j : Job) (v : Nat) : State :=
  match j.token with
  | none => s
  | some r => s.modGang u j.gang fun G =>
      { G.setSreg r (BitVec.ofNat 72 (v % 2 ^ 32)) with tokens := if j.lastOfInstr then G.tokens.filter (fun t => decide (t ≠ r)) else G.tokens }

/-- A job leaves its block (R22); in replay its last segment has completed (R392). -/
def State.dropJob (s : State) (u j : Nat) : State :=
  let s := match (s.block? u).bind (·.job? j) with | some x => s.segmentDone u x | none => s
  s.modBlock u fun b => { b with jobs := b.jobs.filter fun x => decide (x.id ≠ j) }

end Sys2Proof.Machine
end

