-- ==== Sys2Proof/Machine/Sync.lean ====
section
/-! DEFINITION. Barrier objects (R108, R109, R227-R230) and buffer states (R105-R107, R232, R233). -/

namespace Sys2Proof.Machine

/-- A phase of an object has completed: the threads that wait on another phase value than the new one go on (R109,
R228); where their gang waits in reggrow they wait with it (R25). -/
def Lane.release (t : Lane) (off : Nat) (phase : BitVec 32) (recorded growing : Bool) : Lane :=
  match t.st with
  | .blocked (.bar o ph _ _) =>
    if o = off ∧ ph ≠ phase then
      { t with st := if growing then .blocked .reggrow else .eligible, woken := if recorded then some off else none }
    else t
  | _ => t

/-- The block after the test that follows an arrival (R109): at QUOTA the phase completes. -/
def Block.gather (b : Block) (off gathered : Nat) : Block :=
  if gathered = readLE b.spad off 4 then
    let phase := b.phase off + 1
    { b with
      spad := writeLE (writeLE b.spad (off + 4) 4 0) (off + 12) 4 phase.toNat,
      gangs := b.gangs.map fun G => { G with lanes := G.lanes.map fun t => t.release off phase G.chunk.isSome G.grow.isSome } }
  else { b with spad := writeLE b.spad (off + 4) 4 gathered }

/-- Arrive (R109): an arrival of a weight on an object, or none when GATHERED would exceed QUOTA. -/
def Block.arrive (b : Block) (off w : Nat) : Option Block :=
  let gathered := readLE b.spad (off + 4) 4 + w
  if readLE b.spad off 4 < gathered then none else some (b.gather off gathered)

/-- Arrivals of lanes in order, each with the phase that it saw; the lanes that an overflow leaves out (R109, R230). -/
def Block.arrivals (b : Block) (off w : Nat) : List Nat → Block × List (Nat × BitVec 32) × List Nat
  | [] => (b, [], [])
  | l :: t =>
    match b.arrive off w with
    | none => (b, [], l :: t)
    | some b' => let r := b'.arrivals off w t; (r.1, (l, b.phase off) :: r.2.1, r.2.2)

/-- The buffer that an object overlaps (R230). -/
def LaunchRec.bufOf (r : LaunchRec) (off n : Nat) : Option Nat := (List.range n).findSome? fun i => r.bufAt (off + i)

/-- The checks of a barrier instruction with an active lane (R230): Misaligned, Scratchpad-Buffer, and an object beyond
the scratchpad, which terminates every active lane. -/
def barCheckObject (c : Ctx) (o : Nat) (k : State → Eff) (s : State) : Eff :=
  if c.act = 0 then .done s
  else if o % 16 ≠ 0 then misaligned true o c.act s
  else match c.L.r.bufOf o 16 with
    | some b => bufferTrap o (c.B.buf b) b c.act s
    | none => if c.L.r.scratch ≤ o + 15 then .done (s.terminate c c.act) else k s

/-- The object that a barrier instruction names (R228). -/
def Ctx.object (c : Ctx) (x : BitVec 6) : Nat := (c.G.sreg x.toNat).toNat % 2 ^ 32

/-- Barrier-Overflow (R109, R230): lanes that were not applied. -/
def overflow (o : Nat) (lanes : List Nat) (s : State) : Eff :=
  memTrap 0x17 o (BitVec.ofNat 64 (maskOf fun l => decide (l ∈ lanes)).toNat) s

/-- The arrivals of an instruction (R228): weight w for each active lane, the barrier checker's look at them where the
instruction is one that it watches (R400), and then a block of the lanes whose phase has not completed. -/
def arriveBody (w : Nat) (watched block : Bool) (o : Nat) (c : Ctx) (s : State) : Eff :=
  let s := s.gangAccess c.u c.g (spadItems o 16) true
  match s.block? c.u with
  | none => .done s
  | some b =>
    let waiting := decide (0 < b.waiters o)
    let r := b.arrivals o w (lanesOf c.act)
    let s := s.modBlock c.u fun _ => r.1
    if !r.2.2.isEmpty then overflow o r.2.2 s
    else
      let s := if watched && waiting && decide (c.act ≠ c.G.live) then s.barCheck c.u c.g 2 o c.act else s
      let stay := maskOf fun l => r.2.1.any fun x => decide (x.1 = l ∧ x.2 = r.1.phase o)
      if block then
        .done (s.modGang c.u c.g fun G => G.modLanes stay fun _ t =>
          { t with st := .blocked (.bar o (r.1.phase o) c.wpc true), waitCount := 0 })
      else .done s

/-- BAR_ARRIVE (R228). -/
def execBarArrive (h : Hdr) (g : BitVec 3) (x : BitVec 6) (s : State) : Host.Outcome State Fault Refusal :=
  issue (.barArrive h g x) h g (fun c s => barCheckObject c (c.object x) (arriveBody 1 true false (c.object x) c) s) s

/-- BAR_WAIT (R228): each active thread blocks while PHASE is the awaited one. -/
def execBarWait (h : Hdr) (g : BitVec 3) (x : BitVec 6) (s : State) : Host.Outcome State Fault Refusal :=
  issue (.barWait h g x) h g (fun c s =>
    let o := c.object x
    barCheckObject c o (fun s =>
      let s := s.gangAccess c.u c.g (spadItems o 16) false
      let awaited : BitVec 32 := (c.G.sreg x.toNat).extractLsb' 32 32
      if c.B.phase o = awaited then
        .done (s.modGang c.u c.g fun G => G.modLanes c.act fun _ t =>
          { t with st := .blocked (.bar o awaited c.wpc false), waitCount := 0 })
      else .done s) s) s

/-- BAR_ARRWAIT (R228). -/
def execBarArrwait (h : Hdr) (g : BitVec 3) (x : BitVec 6) (s : State) : Host.Outcome State Fault Refusal :=
  issue (.barArrwait h g x) h g (fun c s => barCheckObject c (c.object x) (arriveBody 1 true true (c.object x) c) s) s

/-- BAR_CREDIT (R228): an arrival of weight w for each active lane. -/
def execBarCredit (h : Hdr) (g : BitVec 3) (x : BitVec 6) (w : BitVec 9) (s : State) : Host.Outcome State Fault Refusal :=
  issue (.barCredit h g x w) h g (fun c s =>
    barCheckObject c (c.object x) (arriveBody (h.immOf w false).toNat false false (c.object x) c) s) s

/-- A buffer's transition by an instruction (R106, R233), at once for the instruction. -/
def bufStep (n : BitVec 4) (old new : BitVec 2) (c : Ctx) (s : State) : Eff :=
  let d := c.L.r.bufs.getD n.toNat (0, 0)
  if c.act = 0 then .done s
  else if d.2 = 0 then bufferTrap 0 0 n.toNat c.act s
  else
    let s := s.gangAccess c.u c.g [.buf n.toNat] true
    if vget c.B.bufs n.toNat 0 ≠ old then bufferTrap d.1 (c.B.buf n.toNat) n.toNat c.act s
    else .done (s.modBlock c.u fun b => { b with bufs := vset b.bufs n.toNat new })

/-- BUF_FILL (R233): empty to full. -/
def execBufFill (h : Hdr) (g : BitVec 3) (n : BitVec 4) (s : State) : Host.Outcome State Fault Refusal :=
  issue (.bufFill h g n) h g (bufStep n 0 2) s

/-- BUF_TAKE (R233): full to draining. -/
def execBufTake (h : Hdr) (g : BitVec 3) (n : BitVec 4) (s : State) : Host.Outcome State Fault Refusal :=
  issue (.bufTake h g n) h g (bufStep n 2 3) s

/-- BUF_FREE (R233): draining to empty. -/
def execBufFree (h : Hdr) (g : BitVec 3) (n : BitVec 4) (s : State) : Host.Outcome State Fault Refusal :=
  issue (.bufFree h g n) h g (bufStep n 3 0) s

end Sys2Proof.Machine
end

