-- ==== Sys2Proof/Machine/Copy.lean ====
section
/-! DEFINITION. Copies: the card and its checks (R234-R238, R134), beats (R237, R240, R334), completion (R239). -/

namespace Sys2Proof.Machine

/-! ### The card (R235, R236) -/

/-- Elements of a copy. -/
def CopyCard.total (k : CopyCard) : Nat := k.ext.foldl (· * ·) 1

/-- The place of element n along the dimensions (R237): the offset from the base. -/
def strideSum : List Nat → List Int → Nat → Int
  | e :: es, s :: ss, n => (n % e : Nat) * s + strideSum es ss (n / e)
  | _, _, _ => 0

/-- The source and the destination address of element n (R237). -/
def CopyCard.srcAt (k : CopyCard) (n : Nat) : Nat := wrapTo (if k.srcSpad then 32 else 72) (k.src + strideSum k.ext k.sstr n)
def CopyCard.dstAt (k : CopyCard) (n : Nat) : Nat := wrapTo (if k.dstSpad then 32 else 72) (k.dst + strideSum k.ext k.dstr n)

/-- A card as its bytes give it. -/
structure Card where
  ctl : BitVec 32
  k : CopyCard
  regs : List (List Byte)
  bytes : List Byte

/-- A signed 64-bit field. -/
def fieldInt (bs : List Byte) (i : Nat) : Int := (BitVec.ofNat 64 (fieldAt bs i 8)).toInt

/-- Reading a card (R235, R236). -/
def readCard (bs : List Byte) : Card :=
  let ctl := BitVec.ofNat 32 (fieldAt bs 0 4)
  let es := 2 ^ (ctl.extractLsb' 4 3).toNat
  { ctl := ctl, bytes := bs,
    regs := (List.range 4).map fun i => (bs.drop (0x70 + 32 * i)).take 32,
    k :=
      { es := es, srcSpad := decide (ctl.extractLsb' 0 2 = 1), dstSpad := decide (ctl.extractLsb' 2 2 = 1),
        src := fieldAt bs 0x18 9, dst := fieldAt bs 0x28 9, ext := (List.range 4).map fun i => fieldAt bs (8 + 4 * i) 4,
        sstr := (es : Int) :: (List.range 3).map fun i => fieldInt bs (0x38 + 8 * i),
        dstr := (es : Int) :: (List.range 3).map fun i => fieldInt bs (0x50 + 8 * i),
        bar := ctl.getLsbD 7, baroff := fieldAt bs 4 4, arrw := (ctl.extractLsb' 12 12).toNat, dstBuf := none } }

/-- NREG. -/
def Card.nreg (c : Card) : Nat := (c.ctl.extractLsb' 8 4).toNat

/-- A region entry's base. -/
def regBase (r : List Byte) : Nat := fieldAt r 8 9

/-- A region entry with a reserved code or byte (R236). -/
def badRegion (r : List Byte) : Bool :=
  decide (1 < fieldAt r 0 1) || decide (1 < fieldAt r 1 1) || !zeroAt r 2 6 || !zeroAt r 17 7
    || (decide (fieldAt r 0 1 = 1) && !zeroAt r 12 5)

/-- A pointer field of a space: its unused bytes must be zero (R98, R235). -/
def badPointer (bs : List Byte) (i : Nat) (spad : Bool) : Bool := !zeroAt bs (i + 9) 7 || (spad && !zeroAt bs (i + 4) 5)

/-- A reason-1 failure of the card as a whole (R134, R238). -/
def Card.badWhole (c : Card) : Bool :=
  decide (c.ctl.extractLsb' 24 8 ≠ 0) || !zeroAt c.bytes 0x68 8 || !zeroAt c.bytes 0xF0 16
    || badPointer c.bytes 0x18 c.k.srcSpad || badPointer c.bytes 0x28 c.k.dstSpad
    || decide (4 < (c.ctl.extractLsb' 4 3).toNat) || decide (1 < (c.ctl.extractLsb' 0 2).toNat)
    || decide (1 < (c.ctl.extractLsb' 2 2).toNat) || decide (c.nreg = 0) || decide (4 < c.nreg)
    || (c.k.bar && decide (c.k.arrw = 0)) || (!c.k.bar && decide (c.k.arrw ≠ 0)) || decide (2 ^ 32 ≤ c.k.es * c.k.total)

/-- The regions of a card. -/
def Card.regions (c : Card) : List JRegion :=
  (c.regs.take c.nreg).map fun r =>
    { space := if fieldAt r 0 1 = 1 then .spad else .global, write := decide (fieldAt r 1 1 = 1), base := regBase r,
      len := fieldAt r 24 8 }

/-! ### Engine-Footprint (R134) -/

/-- An Engine-Footprint failure: reason, first failing address, scratchpad, region or none. -/
structure FootFail where
  reason : Nat
  addr : Nat
  spad : Bool
  region : Option Nat

/-- The trap registers of Engine-Footprint (R134). -/
def FootFail.trap (f : FootFail) (s : State) : Eff :=
  memTrap 0x12 f.addr (BitVec.ofNat 64
    (f.reason * 2 ^ 40 + (if f.spad then 0 else f.addr / 2 ^ 64) * 2 ^ 32 + (if f.spad then 256 else 0)
      + (match f.region with | some i => i | none => 4))) s

/-- Reasons 2 and 3 of a footprint: an empty region or one past the address space, a byte at S or above (R134). -/
def footSizes (S : Nat) (rs : List JRegion) : Option FootFail :=
  let idx := (List.range rs.length).filterMap fun i => rs[i]?.map fun r => (i, r)
  let two := idx.findSome? fun x =>
    if x.2.space ≠ .acc ∧ (x.2.len = 0 ∨ (x.2.space = .global ∧ 2 ^ 72 < x.2.base + x.2.len)) then
      some { reason := 2, addr := x.2.base, spad := decide (x.2.space = .spad), region := some x.1 } else none
  let three := idx.findSome? fun x =>
    if x.2.space = .spad ∧ S < x.2.base + x.2.len then
      some { reason := 3, addr := max x.2.base S, spad := true, region := some x.1 : FootFail } else none
  two.orElse fun _ => three

/-- A byte lies in a region of a space and kind. -/
def inRegions (rs : List JRegion) (sp : JSpace) (write : Bool) (a : Nat) : Bool :=
  rs.any fun r => decide (r.space = sp) && (r.write == write) && decide (r.base ≤ a) && decide (a < r.base + r.len)

/-- The first byte of an element outside every region. -/
def outside (rs : List JRegion) (spad write : Bool) (a es : Nat) : Option FootFail :=
  ((List.range es).find? fun i => !inRegions rs (if spad then .spad else .global) write ((a + i) % 2 ^ (if spad then 32 else 72))).map
    fun i => { reason := 4, addr := (a + i) % 2 ^ (if spad then 32 else 72), spad := spad, region := none }

/-- Reason 4: the first byte, in the order of the copy, that lies outside the regions (R134). -/
def CopyCard.uncovered (k : CopyCard) (rs : List JRegion) : Nat → Nat → Option FootFail
  | _, 0 => none
  | n, left + 1 =>
    match (outside rs k.srcSpad false (k.srcAt n) k.es).orElse fun _ => outside rs k.dstSpad true (k.dstAt n) k.es with
    | some f => some f
    | none => k.uncovered rs (n + 1) left

/-- Reason 5: the first write region that overlaps a read region of the copy, at its lowest byte that does (R134). -/
def selfOverlap (rs : List JRegion) : Option FootFail :=
  ((List.range rs.length).filterMap fun i => rs[i]?.map fun r => (i, r)).findSome? fun x =>
    if !x.2.write then none
    else match (rs.filter fun r => !r.write && x.2.overlaps r).map fun r => max x.2.base r.base with
      | [] => none
      | a :: t => some { reason := 5, addr := t.foldl min a, spad := decide (x.2.space = .spad), region := some x.1 }

/-! ### The checks of one lane's job (R238) -/

/-- What the checks of a lane give: its job, its termination, or a cause for every member. -/
inductive JobCheck where
  | accept (j : Job) (b : Block)
  | terminated
  | fail (e : State → Eff)

/-- The first value of a list that is no multiple of n. -/
def firstUneven (n : Nat) (l : List (Nat × Bool)) : Option (Nat × Bool) := l.find? fun x => decide (x.1 % n ≠ 0)

/-- The first byte of a copy's source that a buffer forbids, with its buffer. -/
def CopyCard.badSource (k : CopyCard) (b : Block) (r : LaunchRec) : Option (Nat × Nat) :=
  if !k.srcSpad then none
  else
    let bad := (List.range k.total).filterMap fun n => b.badByte r true false (k.srcAt n) k.es
    bad.foldl (fun (m : Option (Nat × Nat)) x => match m with
      | none => some x
      | some y => if x.1 < y.1 then some x else some y) none

/-- The buffers that the destination touches, none standing for a byte outside every buffer. -/
def CopyCard.dstBufs (k : CopyCard) (r : LaunchRec) : List (Option Nat) :=
  if !k.dstSpad then [none]
  else ((List.range k.total).flatMap fun n => (List.range k.es).map fun i => r.bufAt ((k.dstAt n + i) % 2 ^ 32)).eraseDups

/-- The lowest destination byte in a buffer. -/
def CopyCard.lowBufByte (k : CopyCard) (r : LaunchRec) : Nat :=
  let xs := (List.range k.total).flatMap fun n =>
    ((List.range k.es).map fun i => (k.dstAt n + i) % 2 ^ 32).filter fun a => (r.bufAt a).isSome
  xs.foldl min (xs.headD 0)

/-- A region entry with a reserved byte, in use or not (R98, R236). -/
def badEntry (r : List Byte) : Bool := !zeroAt r 2 6 || !zeroAt r 17 7

/-- Engine-Footprint of a card, reasons 1 to 5 in their order (R134, R238 steps 2 and 4): the reserved bytes of all four entries
count, the codes of those in use. -/
def Card.foot1 (c : Card) (off : Nat) : Option FootFail :=
  if c.badWhole then some { reason := 1, addr := off, spad := true, region := none }
  else ((List.range 4).filterMap fun i => c.regs[i]?.map fun r => (i, r)).findSome? fun x =>
    if badEntry x.2 || (decide (x.1 < c.nreg) && badRegion x.2) then some { reason := 1, addr := regBase x.2, spad := decide (fieldAt x.2 0 1 = 1), region := some x.1 } else none

def Card.foot2 (c : Card) (S : Nat) : Option FootFail :=
  (footSizes S c.regions).orElse fun _ =>
    (if c.k.bar ∧ S < c.k.baroff + 16 then
      some { reason := 3, addr := max c.k.baroff S, spad := true, region := none : FootFail } else none).orElse fun _ =>
    (c.k.uncovered c.regions 0 c.k.total).orElse fun _ => selfOverlap c.regions

/-- R238 step 3: what must be a multiple of the element size, and the barrier's offset. -/
def Card.uneven (c : Card) : Option (Nat × Bool) :=
  let bases := [(c.k.src, c.k.srcSpad), (c.k.dst, c.k.dstSpad)]
  let strides := (c.k.sstr.drop 1 ++ c.k.dstr.drop 1).map fun x => (wrapTo 64 x, false)
  (firstUneven c.k.es (bases ++ strides)).orElse fun _ =>
    if c.k.bar then firstUneven 16 [(c.k.baroff, true)] else none

/-- Card or parameter-block offsets of the active lanes (R234, R279). -/
def cardOffsets (c : Ctx) (card : BitVec 6) : List (Nat × Nat) :=
  (lanesOf c.act).map fun l =>
    (l, (((c.G.sreg card.toNat).extractLsb' 0 32) + (match c.h.ext with | some (.vec o) => (c.G.lane l).reg o.toNat | _ => 0)).toNat)

/-- The lanes whose card or block stands at a misaligned offset (R99). -/
def unevenOffsets (las : List (Nat × Nat)) : BitVec 32 := laneMask (las.filter fun x => decide (x.2 % 16 ≠ 0))

/-- The lanes whose cards hold a misaligned value (R99, R238 step 3). -/
def unevenCards (b : Block) (S : Nat) (las : List (Nat × Nat)) : BitVec 32 :=
  laneMask (las.filter fun x =>
    decide (x.2 % 16 = 0 ∧ x.2 + 256 ≤ S) && (readCard (readBytes b.spad x.2 256)).uneven.isSome)

/-- The checks of a lane's copy against the block as the lower lanes' acceptances leave it (R238). -/
def checkCopy (c : Ctx) (card : BitVec 6) (b : Block) (tok : BitVec 6) (l off : Nat) : JobCheck :=
  let r := c.L.r
  let las := cardOffsets c card
  if off % 16 ≠ 0 then .fail (misaligned true off (unevenOffsets las))
  else if r.scratch < off + 256 then .terminated
  else match b.badByte r true false off 256 with
    | some (a, n) => .fail (bufferTrap a (b.buf n) n c.act)
    | none =>
        let k := readCard (readBytes b.spad off 256)
        match k.foot1 off with
        | some f => .fail f.trap
        | none => match k.uneven with
          | some (v, sp) => .fail (misaligned sp v (unevenCards b r.scratch las))
          | none => match k.foot2 r.scratch with
            | some f => .fail f.trap
            | none => match k.k.badSource b r with
              | some (a, n) => .fail (bufferTrap a (b.buf n) n c.act)
              | none =>
                let job (d : Option Nat) := Job.fresh c.g l (.copy { k.k with dstBuf := d }) (some tok.toNat) false c.pc k.regions
                let objBuf := if k.k.bar then r.bufOf k.k.baroff 16 else none
                let fill (d : Option Nat) (b : Block) : JobCheck := match objBuf with
                  | some n => .fail (bufferTrap k.k.baroff (b.buf n) n c.act)
                  | none => .accept (job d) b
                match k.k.dstBufs r with
                | [] => fill none b
                | [none] => fill none b
                | [some n] =>
                  if b.buf n = 0 then
                    match objBuf with
                    | some m => .fail (bufferTrap k.k.baroff (b.buf m) m c.act)
                    | none => .accept (job (some n)) { b with bufs := vset b.bufs n 1 }
                  else .fail (bufferTrap (k.k.lowBufByte r) (b.buf n) n c.act)
                | _ =>
                  let a := k.k.lowBufByte r
                  let n := (r.bufAt a).getD 0
                  .fail (bufferTrap a (b.buf n) n c.act)

/-- The checks of the active lanes in ascending order: the jobs, the lanes terminated, and the first failure. -/
def checkJobs (check : Block → Nat → Nat → JobCheck) : Block → List (Nat × Nat) → List Job × List Nat × Option (State → Eff)
  | _, [] => ([], [], none)
  | b, (l, off) :: t =>
    match check b l off with
    | .fail e => ([], [], some e)
    | .terminated => let r := checkJobs check b t; (r.1, l :: r.2.1, r.2.2)
    | .accept j b' => let r := checkJobs check b' t; (j :: r.1, r.2.1, r.2.2)

/-- The last of an instruction's jobs frees their token (R116). -/
def markLast (js : List Job) : List Job := js.mapIdx fun i j => { j with lastOfInstr := decide (i + 1 = js.length) }

/-- An instruction that issues jobs (R234, R279): the lanes' blocks are read as thread loads of n bytes, and every job is
accepted or none. -/
def issueJobs (n : Nat) (room : Nat → Bool) (check : Block → Nat → Nat → JobCheck) (start : State → Job → State)
    (card tok : BitVec 6) (c : Ctx) (s : State) : Eff :=
  if c.act = 0 then .done s
  else
    let las := cardOffsets c card
    let r := checkJobs check c.B las
    let out := maskOf fun l => decide (l ∈ r.2.1)
    match r.2.2 with
    | some e => e (s.terminate c out)
    | none =>
      if !room r.1.length then .stall s
      else
        let read := las.filter fun x => !decide (x.1 ∈ r.2.1)
        let s := (s.gangAccess c.u c.g (read.flatMap fun x => spadItems x.2 n).eraseDups false).terminate c out
        let s := if r.1.isEmpty then s
          else s.modGang c.u c.g fun G => { G with tokens := tok.toNat :: G.tokens }
        .done ((markLast r.1).foldl (fun s j => start (s.accept c.u j) j) s)

/-- COPY (R234, R238, R239): a destination buffer becomes filling at acceptance. -/
def execCopy (h : Hdr) (g : BitVec 3) (k t : BitVec 6) (s : State) : Host.Outcome State Fault Refusal :=
  issue (.copy h g k t) h g (fun c s =>
    issueJobs 256 (fun n => decide (((s.coreJobs c.B.core).filter Job.isCopy).length + n ≤ 64)) (fun b => checkCopy c k b t)
      (fun s j => match j.kind with
        | .copy k => match k.dstBuf with
          | some n => (s.gangAccess c.u c.g [.buf n] true).modBlock c.u fun b => { b with bufs := vset b.bufs n 1 }
          | none => s
        | _ => s) k t c s) s

/-! ### Running a copy -/

/-- Beats are 64 bytes of elements (R237). -/
def CopyCard.perBeat (k : CopyCard) : Nat := 64 / k.es

/-- A copy job that is allowed and not yet performing accesses may start (R321). -/
def Block.copyReady (b : Block) (j : Job) : Bool :=
  j.isCopy && !j.started && !j.frozen && !j.held && j.want.isNone && b.allows j

/-- The copy jobs of a core that may start, earliest accepted first. -/
def State.copyQueue (s : State) (core : Nat) : List (Nat × Nat × Nat) :=
  sortedBy (((s.blocks.filter fun b => decide (b.core = core)).flatMap fun b =>
    (b.jobs.filter b.copyReady).map fun j => (j.id, b.uid, j.id)))

/-- A copy has performed its last element, or has failed, and nothing of it is under way (R239, R240). -/
def State.copyDone (s : State) (u : Nat) (j : Job) (k : CopyCard) : Bool :=
  j.want.isNone && !j.held && !j.frozen && ((j.started && decide (k.total ≤ j.pos)) || j.failed)
    && !s.requests.any fun r => decide (r.job = some (u, j.id))

/-- The copies of a core that perform accesses: those started, but for one that is only held at its completion (R321, R329). -/
def State.activeCopies (s : State) (core : Nat) : Nat :=
  ((s.blocks.filter fun b => decide (b.core = core)).map fun b => (b.jobs.filter fun x => x.started && match x.kind with
    | .copy k => !s.copyDone b.uid x k
    | _ => false).length).sum

/-- COPY_JOB_START (R321): the earliest accepted copy job that R136 allows, while fewer than 8 perform accesses. -/
def execCopyJobStart (u j : Nat) (s : State) : Host.Outcome State Fault Refusal :=
  match s.block? u with
  | none => .next s
  | some b =>
    if b.stop.isSome then .next s else
    match s.copyQueue b.core with
    | x :: _ => if x.2 = (u, j) ∧ s.activeCopies b.core < 8 then .next (s.modJob u j fun x => { x with started := true }) else .next s
    | [] => .next s

/-- The elements of a beat: each with its source and destination address. -/
def CopyCard.beat (k : CopyCard) (pos : Nat) : List (Nat × Nat) :=
  (List.range (min k.perBeat (k.total - pos))).map fun i => (k.srcAt (pos + i), k.dstAt (pos + i))

/-- The watch comparison of a beat (R334): the lowest matching descriptor, its lowest covered byte, whether it is
scratchpad. -/
def CopyCard.watch (k : CopyCard) (ws : List WatchDesc) (pos : Nat) : Option (Nat × Nat × Bool) :=
  let bt := k.beat pos
  let rd := (watchMatch ws k.srcSpad true false true k.es (bt.map fun x => (0, x.1))).map fun x => (x.1, x.2.2, k.srcSpad)
  let wr := (watchMatch ws k.dstSpad false true true k.es (bt.map fun x => (0, x.2))).map fun x => (x.1, x.2.2, k.dstSpad)
  match rd, wr with
  | some a, some b => if b.1 < a.1 then some b else if a.1 = b.1 then some (a.1, min a.2.1 b.2.1, a.2.2) else some a
  | some a, none => some a
  | none, x => x

/-- Where a global side of a beat stands: its places, or what stops the beat. -/
inductive Side where
  | ok (xs : List (Nat × Nat))
  | fault (va level entryPa : Nat) (entry : Dword)
  | perm (va reason : Nat)

/-- The places of a beat's global addresses. -/
def State.side (s : State) (core p : Nat) (need : Needs) (as : List Nat) : Side :=
  let ps := as.map fun a => (a, s.place (.job core) p a need)
  match ps.findSome? fun x => match x.2 with | .perm r => some (x.1, r) | _ => none with
  | some (a, r) => .perm a r
  | none => match ps.findSome? fun x => match x.2 with | .fault l e v => some (x.1, l, e, v) | _ => none with
    | some (a, l, e, v) => .fault a l e v
    | none => .ok (ps.filterMap fun x => match x.2 with | .ok pa key => some (pa, key) | _ => none)

/-- A failed copy ends: it performs no more elements (R240). -/
def State.failJob (s : State) (u : Nat) (j : Job) (cause addr : Nat) : State :=
  (s.modJob u j.id fun x => { x with failed := true }).raiseEvent u j (j.event cause addr (j.info (addr / 2 ^ 64) 0 0 false))

/-- A copy's elements are written (R237): scratchpad bytes at once, global bytes through the cluster's L1, another device's
through write messages (R410). -/
def State.putElement (s : State) (u : Nat) (b : Block) (j : Job) (spad : Bool) (off pa key : Nat) (bs : List Byte) : State :=
  if spad then s.spadWrite u off bs
  else
    let cl := clusterOf b.core
    if s.local pa then
      let s := s.l1Store cl key pa bs
      if s.recorded u then (s.writeBack cl (lineOf pa) key).dropLine (lineOf pa) key else s
    else
      let mask := byteMask pa bs.length
      let m := { FabMsg.plain 2 (devOf pa) key (pa / 128 * 128) with mask := mask, data := patchLine (lineOf pa) pa bs 0 }
      let s := s.writeBack cl (lineOf pa) key
      let r := s.remoteLine (lineOf pa) key
      let s := (s.setRemote { r with valid := r.valid &&& ~~~ mask, dirty := r.dirty &&& ~~~ mask }).dropL1 (fun _ => true) key pa bs.length
      (s.sendRequest m none (some (u, j.id))).sentFor j.lane j.pc (BitVec.ofNat 72 off)

/-- Elements to write: the virtual address or offset, the place, the bytes. -/
structure Piece where
  off : Nat
  pa : Nat
  key : Nat
  bs : List Byte

/-- Elements that follow one another in a line of global memory are written together, in the pieces that they make up (R122,
R237, R372). -/
def joinPieces : List Piece → List Piece
  | x :: t => match joinPieces t with
    | y :: r =>
      if y.pa = x.pa + x.bs.length ∧ y.off = x.off + x.bs.length ∧ y.key = x.key ∧ lineOf y.pa = lineOf x.pa then
        { x with bs := x.bs ++ y.bs } :: r
      else x :: y :: r
    | [] => [x]
  | [] => []

/-- A beat whose addresses all translate is performed (R237): its elements are read, and written in their order. -/
def State.doBeat (s : State) (u : Nat) (b : Block) (j : Job) (k : CopyCard) (src dst : List (Nat × Nat)) : State :=
  let cl := clusterOf b.core
  let bt := k.beat j.pos
  let rd := if k.srcSpad then bt.flatMap (fun x => spadItems x.1 k.es) else src.flatMap fun x => lineItems x.2 x.1 k.es
  let wr := if k.dstSpad then bt.flatMap (fun x => spadItems x.2 k.es) else dst.flatMap fun x => lineItems x.2 x.1 k.es
  let s := s.jobAccess u j.id rd.eraseDups wr.eraseDups
  let es := (List.range bt.length).map fun i =>
    let x := bt.getD i (0, 0)
    let a := src.getD i (0, 0)
    let d := dst.getD i (0, 0)
    ({ off := x.2, pa := d.1, key := d.2,
       bs := if k.srcSpad then readBytes (s.spad u) x.1 k.es else s.plainBytes cl a.2 a.1 k.es } : Piece)
  let s := src.foldl (fun s a => s.afterLoad cl a.2 a.1 k.es) s
  let s := (if k.dstSpad then es else joinPieces es).foldl (fun s p => s.putElement u b j k.dstSpad p.off p.pa p.key p.bs) s
  (s.modJob u j.id fun x => { x with pos := x.pos + bt.length, watchPos := none }).jobSettle u j.id

/-- A beat after its watch comparison: translation, other devices' lines, poison, then its elements (R240, R372). -/
def State.tryBeat (s : State) (u : Nat) (b : Block) (L : Launch) (j : Job) (k : CopyCard) : State :=
  let bt := k.beat j.pos
  let src := if k.srcSpad then Side.ok [] else s.side b.core L.part ⟨true, false, false⟩ (bt.map (·.1))
  let dst := if k.dstSpad then Side.ok [] else s.side b.core L.part ⟨false, true, false⟩ (bt.map (·.2))
  let unit := TUnit.job b.core
  let src_ (acc : Nat) : FaultSrc := { source := 2, access := acc, lin := b.lin, gang := j.gang, lane := j.lane, queue := 0 }
  match src, dst with
  | .perm a r, _ => (if r = 4 then s.recordWalk unit L.part a (src_ 0) else s).failJob u j 0x06 a
  | _, .perm a r => (if r = 4 then s.recordWalk unit L.part a (src_ 1) else s).failJob u j 0x06 a
  | .fault a l e v, _ => (s.faultRecord L.part a l e v 1 (src_ 0)).modJob u j.id fun x => { x with parked := true }
  | _, .fault a l e v => (s.faultRecord L.part a l e v 1 (src_ 1)).modJob u j.id fun x => { x with parked := true }
  | .ok xs, .ok ys =>
    let cl := clusterOf b.core
    let s := (if k.srcSpad then [] else bt.map (·.1)).foldl (fun s a => s.cacheTrans unit L.part a) s
    let s := (if k.dstSpad then [] else bt.map (·.2)).foldl (fun s a => s.cacheTrans unit L.part a) s
    match (xs.zip (bt.map (·.1))).filter fun x => !s.local x.1.1 && !s.remoteReady cl x.1.2 x.1.1 k.es with
    | x :: t =>
      let s := (x :: t).foldl (fun s y =>
        if s.requests.any fun r => !r.stale && decide (r.job = some (u, j.id) ∧ lineOf r.msg.pa.toNat = lineOf y.1.1 ∧ r.msg.key.toNat = y.1.2) then s
        else (s.sendRequest (readRequest (lineOf y.1.1) y.1.2) none (some (u, j.id))).sentFor j.lane j.pc (BitVec.ofNat 72 y.2)) s
      s.modJob u j.id fun x => { x with parked := true }
    | [] =>
      let s := xs.foldl (fun s x => s.reach cl x.2 x.1 k.es false) s
      match (List.range xs.length).findSome? fun i =>
          let x := xs.getD i (0, 0)
          (s.readPoison cl x.2 x.1 k.es).map fun pb => (bt.getD i (0, 0)).1 + (pb - x.1) with
      | some va => s.failJob u j 0x13 va
      | none => s.doBeat u b j k xs ys

/-- A job that may take a step, or that stands before a logged step of a replay, where it compares but does not go on (R392). -/
def Job.running (j : Job) : Bool :=
  j.started && !j.frozen && !j.parked && !j.failed && !(j.held && decide (j.step = 0)) && j.want.isNone

/-- A job that stands before a logged step has compared its watch descriptors there. -/
def State.stands (s : State) (u : Nat) (j : Job) : State := s.modJob u j.id fun x => { x with watchPos := some x.pos }

/-- An event that a job holds is queued once there is room (R329). -/
def State.queueHeld (s : State) (u : Nat) (j : Job) : State :=
  match j.want with
  | some e => if s.queueFull u j.gang j.lane then s else s.raiseEvent u j e
  | none => s

/-- COPY_BEAT (R237, R334). -/
def execCopyBeat (u j : Nat) (s : State) : Host.Outcome State Fault Refusal :=
  match s.block? u, s.launchOf u with
  | some b, some L => match b.job? j with
    | some x => match x.kind with
      | .copy k =>
        if x.want.isSome then .next (s.queueHeld u x)
        else if b.stop.isSome || !x.running || decide (k.total ≤ x.pos) then .next s
        else
          match (if x.watchPos = some x.pos then none else k.watch L.r.watch x.pos) with
          | some (i, a, sp) => .next (s.raiseEvent u x (x.event 0x10 a (x.info (if sp then 0 else a / 2 ^ 64) 0 i sp)))
          | none => .next (if x.held then s.stands u x else s.tryBeat u b L x k)
      | _ => .next s
    | none => .next s
  | _, _ => .next s

/-- A copy's arrival on its barrier (R109, R239): DELIVERED takes the bytes in any case; an overflow is an engine event. -/
def State.copyArrive (s : State) (u : Nat) (j : Job) (k : CopyCard) (bytes : Nat) : State :=
  if !k.bar then s
  else match s.block? u with
    | none => s
    | some b =>
      let b := { b with spad := writeLE b.spad (k.baroff + 8) 4 (readLE b.spad (k.baroff + 8) 4 + bytes) }
      match b.arrive k.baroff k.arrw with
      | some b => s.modBlock u fun _ => b
      | none => (s.modBlock u fun _ => b).queueEvent u j.gang (j.event 0x17 k.baroff (j.info 0 0 0 true))

/-- A copy's arrival would overflow and its event finds a full queue: the job is held (R329). -/
def State.overflowHeld (s : State) (u : Nat) (j : Job) (k : CopyCard) : Bool :=
  k.bar && s.queueFull u j.gang j.lane && match s.block? u with
    | some b => (b.arrive k.baroff k.arrw).isNone
    | none => false

/-- COPY_COMPLETION (R239): the buffer becomes full, the arrival, the token. -/
def execCopyCompletion (u j : Nat) (s : State) : Host.Outcome State Fault Refusal :=
  match s.block? u with
  | none => .next s
  | some b => match b.job? j with
    | some x => match x.kind with
      | .copy k =>
        if !s.copyDone u x k || s.overflowHeld u x k then .next s
        else
          let items := (match k.dstBuf with | some n => [Item.buf n] | none => [])
            ++ (if k.bar then spadItems k.baroff 16 else []) ++ (match x.token with | some r => [Item.token x.gang r] | none => [])
          let s := (s.jobAccess u j [] items).jobRecord u j 3 none
          let x := ((s.block? u).bind (·.job? j)).getD x
          let s := match k.dstBuf with
            | some n => s.modBlock u fun b => { b with bufs := vset b.bufs n 2 }
            | none => s
          let s := (s.copyArrive u x k (x.pos * k.es)).writeToken u x (x.pos * k.es)
          .next ((s.dropJob u j).checkBlock u)
      | _ => .next s
    | none => .next s

end Sys2Proof.Machine
end

