-- ==== Sys2Proof/Machine/Matrix.lean ====
section
/-! DEFINITION. The matrix engine (R268-R292, R92-R94): mma jobs and the movement of tile contents. -/

namespace Sys2Proof.Machine

/-! ### Formats (R271-R274) -/

/-- The classes of mma (R271). -/
inductive MmaClass where
  | f64 | float | int8 | i4
  deriving DecidableEq, Repr

/-- A format code of the eight-bit integer class. -/
def isInt8 (f : Nat) : Bool := decide (f = 0x08 ∨ f = 0x09 ∨ f = 0x10 ∨ f = 0x11)
/-- A bit-plane format code. -/
def isPlane (f : Nat) : Bool := decide (f = 0x10 ∨ f = 0x11)
/-- A format that an mma takes (R271). -/
def isMmaFmt (f : Nat) : Bool := decide (f = 1 ∨ f = 3 ∨ f = 4 ∨ f = 5 ∨ f = 6 ∨ f = 0x0C) || isInt8 f

/-- The class that two formats form (R271). -/
def mmaClass (a b : Nat) : Option MmaClass :=
  if a = 1 ∧ b = 1 then some .f64
  else if (a = 3 ∧ b = 3) ∨ (a = 4 ∧ b = 4) then some .float
  else if (a = 5 ∨ a = 6) ∧ (b = 5 ∨ b = 6) then some .float
  else if isInt8 a && isInt8 b && !(isPlane a && isPlane b) then some .int8
  else if a = 0x0C ∧ b = 0x0C then some .i4
  else none

/-- K, which slot A's format fixes (R271). -/
def mmaK (a : Nat) : Nat := if a = 1 then 16 else if a = 3 ∨ a = 4 then 64 else if a = 0x0C then 256 else 128

/-- Bytes of an element of a byte format. -/
def elemBytes (f : Nat) : Nat := if f = 1 then 8 else if f = 3 ∨ f = 4 then 2 else 1

/-- Row bytes of B (R273). -/
def bRowBytes (f n : Nat) : Nat := if f = 0x0C then (n + 1) / 2 else if isPlane f then 64 else n * elemBytes f

/-- The bits of element k of a row (R272, R273); plane is the bytes of one bit plane, 16 in A and 8 in B. Only the planes
that the slot names are fetched (R274). -/
def elemBits (m : List Host.Cell) (d : SlotDesc) (row k plane : Nat) : Nat :=
  if isPlane d.fmt then
    (List.range d.planes).foldl (fun v p =>
      if (sread m (row + plane * p + k / 8)).getLsbD (k % 8) then v + 2 ^ (7 - p) else v) 0
  else if d.fmt = 0x0C then (sread m (row + k / 2)).toNat / (if k % 2 = 0 then 1 else 16) % 16
  else readLE m (row + k * elemBytes d.fmt) (elemBytes d.fmt)

/-- An element's integer value through its slot (R274, R80, R82). -/
def elemInt (d : SlotDesc) (bits : Nat) : Int :=
  let f := intFmtOf d.fmt
  if isPlane d.fmt then planeRead (intValue 8 f.2 bits) d.planes d.centre else intValue f.1 f.2 bits

/-- An element's floating-point value through its slot (R274). -/
def elemFloat (d : SlotDesc) (bits : Nat) : FVal :=
  match fmtOf d.fmt with | some f => f.operand d.ftz bits | none => .nan false

/-! ### Groups (R92) -/

/-- Neighbours combined. -/
def pairUp {α : Type} (f : α → α → α) : List α → List α
  | x :: y :: t => f x y :: pairUp f t
  | l => l

/-- The fixed binary tree over sixteen products (R92). -/
def tree16 {α : Type} (f : α → α → α) (l : List α) : List α := pairUp f (pairUp f (pairUp f (pairUp f l)))

/-- The bits of an exact result rounded to nearest even. -/
def roundRn (x : Exact) (f : Fmt) : Nat := (roundFmt x f 0 false false).1

/-- The group value of one element as tile bits or an integer: 64 bits for the F64 class (R92). -/
def groupFloat (dbl : Bool) (ps : List (FVal × FVal)) : Nat :=
  if dbl then
    (tree16 (fun x y => roundRn (fAdd 0 (Fmt.f64.value x) (Fmt.f64.value y)).1 .f64)
      (ps.map fun p => roundRn (mulExact p.1 p.2).1 .f64)).headD 0
  else roundRn ((tree16 (fun x y => (addExact 0 x y).1) (ps.map fun p => (mulExact p.1 p.2).1)).headD .nan) .f32

def groupInt (ps : List (Int × Int)) : Int := (tree16 (· + ·) (ps.map fun p => p.1 * p.2)).headD 0

/-- Where element (i, j) of a tile stands among a block's tiles (R268). -/
def tileAt (t i j : Nat) : Nat := 4096 * t + 64 * i + j

/-- The operand pairs of group g of element (i, j). -/
def MmaPar.pairs (p : MmaPar) (m : List Host.Cell) (g i j : Nat) : List (Nat × Nat) :=
  (List.range 16).map fun q =>
    let k := 16 * g + q
    (elemBits m p.slotA (p.abase + i * p.astr) k 16, elemBits m p.slotB (p.bbase + k * p.bstr) j 8)

/-- One element after group g (R278, R94): seeded, or chained; the tile's overflow flag. -/
def MmaPar.element (p : MmaPar) (cls : MmaClass) (m : List Host.Cell) (g i j : Nat) (x : List (Nat × Word) × Bool) :
    List (Nat × Word) × Bool :=
  let acc := x.1
  let seed := p.z && decide (g = 0)
  let a := tileAt p.tile i j
  let ps := p.pairs m g i j
  match cls with
  | .f64 =>
    let s := groupFloat true (ps.map fun e => (elemFloat p.slotA e.1, elemFloat p.slotB e.2))
    let old : Nat := (sread acc (tileAt (p.tile + 1) i j) ++ sread acc a).toNat
    let v := if seed then s else roundRn (fAdd 0 (Fmt.f64.value old) (Fmt.f64.value s)).1 .f64
    (swrite (swrite acc a (BitVec.ofNat 32 v)) (tileAt (p.tile + 1) i j) (BitVec.ofNat 32 (v / 2 ^ 32)), x.2)
  | .float =>
    let s := groupFloat false (ps.map fun e => (elemFloat p.slotA e.1, elemFloat p.slotB e.2))
    let v := if seed then s else roundRn (fAdd 0 (Fmt.f32.value (sread acc a).toNat) (Fmt.f32.value s)).1 .f32
    (swrite acc a (BitVec.ofNat 32 v), x.2)
  | _ =>
    let s := groupInt (ps.map fun e => (elemInt p.slotA e.1, elemInt p.slotB e.2))
    let v := if seed then s else (sread acc a).toInt + s
    (swrite acc a (BitVec.ofInt 32 v), x.2 || (!seed && (decide (v < -(2 ^ 31)) || decide (2 ^ 31 ≤ v))))

/-- A group over the whole output tile (R278). -/
def MmaPar.group (p : MmaPar) (cls : MmaClass) (m : List Host.Cell) (g : Nat) (acc : List (Nat × Word)) (ovf : Bool) :
    List (Nat × Word) × Bool :=
  (List.range p.m).foldl (fun x i => (List.range p.n).foldl (fun x j => p.element cls m g i j x) x) (acc, ovf)

/-- The scratchpad bytes that group g fetches (R274, R290). -/
def MmaPar.fetched (p : MmaPar) (g : Nat) : List Nat :=
  let a (row : Nat) : List Nat :=
    if isPlane p.slotA.fmt then (List.range p.slotA.planes).flatMap fun q => [row + 16 * q + 2 * g, row + 16 * q + 2 * g + 1]
    else if p.slotA.fmt = 0x0C then (List.range 8).map fun i => row + 8 * g + i
    else (List.range (16 * elemBytes p.slotA.fmt)).map fun i => row + 16 * g * elemBytes p.slotA.fmt + i
  let b (row : Nat) : List Nat :=
    if isPlane p.slotB.fmt then (List.range (8 * p.slotB.planes)).map fun i => row + i
    else (List.range (bRowBytes p.slotB.fmt p.n)).map fun i => row + i
  ((List.range p.m).flatMap fun i => a (p.abase + i * p.astr))
    ++ (List.range 16).flatMap fun q => b (p.bbase + (16 * g + q) * p.bstr)

/-! ### The checks of an mma (R280) -/

/-- The footprint of an mma (R276). -/
def MmaPar.regions (p : MmaPar) (cls : MmaClass) : List JRegion :=
  [{ space := .spad, write := false, base := p.abase, len := (p.m - 1) * p.astr + 128 },
   { space := .spad, write := false, base := p.bbase, len := (mmaK p.slotA.fmt - 1) * p.bstr + bRowBytes p.slotB.fmt p.n },
   { space := .acc, write := true, base := p.tile, len := if cls = .f64 then 2 else 1 }]

/-- A parameter block with its slots (R275, R277). -/
def readParams (bs : List Byte) (a b : SlotDesc) (z bsc : Bool) : MmaPar :=
  { m := fieldAt bs 0x10 1, n := fieldAt bs 0x11 1, slotA := a, slotB := b, z := z, bs := bsc, tile := fieldAt bs 0x12 1,
    abase := fieldAt bs 0 4, astr := fieldAt bs 4 4, bbase := fieldAt bs 8 4, bstr := fieldAt bs 12 4 }

/-- A thread is in handler state for a Watchpoint of a frozen job (R291). -/
def Job.handledBy (j : Job) (G : Gang) (l : Nat) : Bool :=
  j.frozen && decide (j.gang = G.idx) && decide (j.lane = l) && (G.lane l).handler
    && !G.events.any fun e => decide (e.job = some j.id)

/-- The frozen job on a tile for whose Watchpoint a thread is in handler state. -/
def Block.frozenFor (b : Block) (G : Gang) (l tile : Nat) : Option Nat :=
  (b.jobs.find? fun j => j.handledBy G l && j.regions.any fun r =>
    decide (r.space = .acc ∧ r.base ≤ tile ∧ tile < r.base + r.len)).map (·.id)

/-- Matrix-Parameter (R280): the first reason that holds. -/
def paramReason (c : Ctx) (b : Block) (l : Nat) (bs : List Byte) (sa sb : Option SlotDesc) (z bsc : Bool) : Except Nat (MmaPar × MmaClass) :=
  match sa, sb with
  | some a, some d =>
    if !isMmaFmt a.fmt || !isMmaFmt d.fmt then .error 1
    else match mmaClass a.fmt d.fmt with
      | none => .error 2
      | some cls =>
        let p := readParams bs a d z bsc
        let w := if cls = .f64 then 2 else 1
        if bsc ∧ cls ≠ .int8 then .error 3
        else if p.m = 0 ∨ 64 < p.m ∨ p.n = 0 ∨ 64 < p.n ∨ !zeroAt bs 0x13 13 then .error 4
        else if p.tile % w ≠ 0 ∨ c.L.r.accn < p.tile + w then .error 5
        else if p.abase % 16 ≠ 0 ∨ p.astr % 16 ≠ 0 ∨ p.bbase % 16 ≠ 0 ∨ p.bstr % 16 ≠ 0 then .error 6
        else if (b.frozenFor c.G l p.tile).isSome ∨ (w = 2 ∧ (b.frozenFor c.G l (p.tile + 1)).isSome) then .error 7
        else .ok (p, cls)
  | _, _ => .error 1

/-- The lowest byte of a scratchpad region that a buffer forbids to an engine's read, with the buffer. -/
def regionBuffer (b : Block) (r : LaunchRec) (x : JRegion) : Option (Nat × Nat) :=
  (List.range 16).foldl (fun (m : Option (Nat × Nat)) i =>
    let d := r.bufs.getD i (0, 0)
    let lo := max x.base d.1
    if lo < min (x.base + x.len) (d.1 + d.2) ∧ b.buf i < 2 then
      match m with
      | some y => if lo < y.1 then some (lo, i) else some y
      | none => some (lo, i)
    else m) none

/-- The checks of a lane's mma (R280). -/
def checkMma (sa sb : BitVec 3) (z bsc : Bool) (card tok : BitVec 6) (c : Ctx) (b : Block) (l off : Nat) : JobCheck :=
  let r := c.L.r
  if off % 16 ≠ 0 then .fail (misaligned true off (unevenOffsets (cardOffsets c card)))
  else if r.scratch < off + 32 then .terminated
  else match b.badByte r true false off 32 with
    | some (a, n) => .fail (bufferTrap a (b.buf n) n c.act)
    | none =>
      match paramReason c b l (readBytes b.spad off 32) (r.slots.getD sa.toNat none) (r.slots.getD sb.toNat none) z bsc with
      | .error e => .fail (memTrap 0x11 off (BitVec.ofNat 64 (e * 2 ^ 40 + l)))
      | .ok (p, cls) =>
        let rs := p.regions cls
        match footSizes r.scratch rs with
        | some f => .fail f.trap
        | none =>
          match (rs.take 2).filterMap (regionBuffer b r) with
          | x :: t =>
            let y := t.foldl (fun m y => if y.1 < m.1 then y else m) x
            .fail (bufferTrap y.1 (b.buf y.2) y.2 c.act)
          | [] => .accept (Job.fresh c.g l (.mma p) (some tok.toNat) false c.pc rs) b

/-- MMA (R277-R281): the tile is read and written at acceptance for the recorder (R295). -/
def execMma (h : Hdr) (g : BitVec 3) (k t : BitVec 6) (a b : BitVec 3) (z x : BitVec 1) (s : State) : Host.Outcome State Fault Refusal :=
  issue (.mma h g k t a b z x) h g (fun c s =>
    issueJobs 32 (fun n => decide (((s.coreJobs c.B.core).filter Job.isMma).length + n ≤ 32))
      (checkMma a b (z = 1) (x = 1) k t c)
      (fun s j => s.gangAccess c.u c.g ((j.regions.drop 2).flatMap fun r => (List.range r.len).map fun i => .tile (r.base + i)) true)
      k t c s) s

/-! ### Running an mma -/

/-- An mma job has begun and was stopped at a freeze point (R269). -/
def Job.begun (j : Job) : Bool := decide (0 < j.pos) || j.watchPos.isSome

/-- The mma jobs of a core that may take the engine, a released one first, then the earliest accepted (R269). -/
def State.mmaQueue (s : State) (core : Nat) : List (Nat × Nat × Nat) :=
  sortedBy (((s.blocks.filter fun b => decide (b.core = core)).flatMap fun b =>
    (b.jobs.filter fun j => j.isMma && !j.started && !j.frozen && !j.held && j.want.isNone && b.allows j).map fun j =>
      ((if j.begun then 0 else 2 ^ 64) + j.id, b.uid, j.id)))

/-- A job begins: under BS its tile's overflow flag is cleared (R278). -/
def Block.beginMma (b : Block) (j : Job) : Block :=
  match j.kind with
  | .mma p => if p.bs && !j.begun then { b with ovf := b.ovf &&& ~~~ BitVec.twoPow 8 p.tile } else b
  | _ => b

/-- MMA_JOB_START (R269): the engine runs one job at a time. -/
def execMmaJobStart (u j : Nat) (s : State) : Host.Outcome State Fault Refusal :=
  match s.block? u with
  | none => .next s
  | some b =>
    if b.stop.isSome || (s.coreJobs b.core).any fun x => x.isMma && x.started then .next s
    else match s.mmaQueue b.core with
      | x :: _ => match b.job? j with
        | some y => if x.2 = (u, j) then .next ((s.modBlock u fun b => b.beginMma y).modJob u j fun x => { x with started := true })
          else .next s
        | none => .next s
      | [] => .next s

/-- A group of a job is performed (R278). -/
def State.doGroup (s : State) (u : Nat) (j : Job) (p : MmaPar) (cls : MmaClass) : State :=
  let s := s.jobAccess u j.id ((p.fetched j.pos).flatMap fun a => spadItems a 1).eraseDups []
  ((s.modBlock u fun b =>
    let r := p.group cls b.spad j.pos b.acc (b.ovf.getLsbD p.tile)
    { b with acc := r.1, ovf := if r.2 then b.ovf ||| BitVec.twoPow 8 p.tile else b.ovf }).modJob u j.id fun x => { x with pos := x.pos + 1, watchPos := none }).jobSettle u j.id

/-- MMA_GROUP (R278, R290); a job that was frozen goes on from the tile that its handler leaves (R292). -/
def execMmaGroup (u j : Nat) (s : State) : Host.Outcome State Fault Refusal :=
  match s.block? u, s.launchOf u with
  | some b, some L => match b.job? j with
    | some x => match x.kind with
      | .mma p => match mmaClass p.slotA.fmt p.slotB.fmt with
        | none => .next s
        | some cls =>
          if x.want.isSome then .next (s.queueHeld u x)
          else if b.stop.isSome || !x.running || decide (mmaK p.slotA.fmt / 16 ≤ x.pos)
            || b.jobs.any (fun i => decide (i.past = some j)) then .next s
          else
            match (if x.watchPos = some x.pos then none
                else watchMatch L.r.watch true true false true 1 ((p.fetched x.pos).map fun a => (0, a))) with
            | some (i, _, a) => .next (s.raiseEvent u x (x.event 0x10 a (x.info 0 x.pos i true)))
            | none => .next (if x.held then s.stands u x else s.doGroup u x p cls)
      | _ => .next s
    | none => .next s
  | _, _ => .next s

/-- The tiles that an mma writes: a pair for F64 (R276). -/
def MmaPar.tiles (p : MmaPar) : List Nat := if p.slotA.fmt = 1 then [p.tile, p.tile + 1] else [p.tile]

/-- MMA_COMPLETION (R116): the token receives M × N. In record mode the tile's write counts at the job's own clock (R295,
R381). -/
def execMmaCompletion (u j : Nat) (s : State) : Host.Outcome State Fault Refusal :=
  match s.block? u with
  | none => .next s
  | some b => match b.job? j with
    | some x => match x.kind with
      | .mma p =>
        if !x.running || x.held || decide (x.pos < mmaK p.slotA.fmt / 16) then .next s
        else
          let s := (s.jobAccess u j [] (p.tiles.map Item.tile ++ match x.token with | some r => [Item.token x.gang r] | none => [])).jobRecord u j 3 none
          .next (((s.writeToken u x (p.m * p.n)).dropJob u j).checkBlock u)
      | _ => .next s
    | none => .next s

/-! ### Moving tile contents (R282-R288) -/

/-- An accumulator action as a job (R284). -/
def accJob (c : Ctx) (lane tile : Nat) (write : Bool) (past : Option Nat) (op : AccOp) : Job :=
  { Job.fresh c.g lane (.acc tile op) none false c.pc [{ space := .acc, write := write, base := tile, len := 1 }] with past := past }

/-- The lanes of an action, each handler thread of a frozen job on the tile apart (R291). -/
def accLanes (c : Ctx) (tile : Nat) : List (Option Nat × List Nat) :=
  let ls := lanesOf c.act
  let own := ls.filter fun l => (c.B.frozenFor c.G l tile).isSome
  let rest := ls.filter fun l => (c.B.frozenFor c.G l tile).isNone
  (own.map fun l => (c.B.frozenFor c.G l tile, [l])) ++ (if rest.isEmpty then [] else [(none, rest)])

/-- The row that a lane names (R283). -/
def rowOf (c : Ctx) (a : BitVec 7) (l : Nat) : Nat := ((c.G.lane l).reg a.toNat).toNat % 64

/-- Accepting accumulator actions, with the recorder's access to the tile at acceptance (R295). -/
def State.acceptAcc (s : State) (c : Ctx) (tile : Nat) (write : Bool) (op : List Nat → AccOp) : State :=
  if c.act = 0 then s
  else
    (accLanes c tile).foldl (fun s x => s.accept c.u (accJob c (x.2.headD 0) tile write x.1 (op x.2)))
      (s.gangAccess c.u c.g [.tile tile] write)

/-- ACCREAD (R283). -/
def execAccread (h : Hdr) (g : BitVec 3) (d a : BitVec 7) (t : BitVec 3) (s : State) : Host.Outcome State Fault Refusal :=
  issue (.accread h g d a t) h g (fun c s =>
    let s := s.modGang c.u c.g fun G =>
      { G with accRegs := (accLanes c t.toNat).flatMap (fun _ => [d.toNat, d.toNat + 1]) ++ G.accRegs }
    .done (s.acceptAcc c t.toNat false fun ls => .read d.toNat (ls.map fun l => (l, rowOf c a l)))) s

/-- What accwrite and apatch write (R283): the enabled columns of each lane. -/
def accCells (c : Ctx) (d a : BitVec 7) (lo hi : Bool) (ls : List Nat) : AccOp :=
  .write (ls.map fun l =>
    let v := (c.G.lane l).pair d.toNat
    (l, rowOf c a l, if lo then some (v.setWidth 32) else none, if hi then some (v.extractLsb' 32 32) else none))

/-- ACCWRITE (R283). -/
def execAccwrite (h : Hdr) (g : BitVec 3) (d a : BitVec 7) (t : BitVec 3) (s : State) : Host.Outcome State Fault Refusal :=
  issue (.accwrite h g d a t) h g (fun c s => .done (s.acceptAcc c t.toNat true (accCells c d a true true))) s

/-- APATCH (R283). -/
def execApatch (h : Hdr) (g : BitVec 3) (d a : BitVec 7) (hi lo : BitVec 1) (t : BitVec 3) (s : State) : Host.Outcome State Fault Refusal :=
  issue (.apatch h g d a hi lo t) h g (fun c s => .done (s.acceptAcc c t.toNat true (accCells c d a (lo = 1) (hi = 1)))) s

/-- accctl acts once for the instruction (R287); for a handler thread of a frozen job under R291. -/
def State.acceptCtl (s : State) (c : Ctx) (tile : Nat) (write : Bool) (op : AccOp) : State :=
  if c.act = 0 then s
  else
    let own := (lanesOf c.act).findSome? fun l => (c.B.frozenFor c.G l tile).map fun k => (l, k)
    let j := match own with
      | some (l, k) => accJob c l tile write (some k) op
      | none => accJob c (lowest c.act) tile write none op
    (s.gangAccess c.u c.g [.tile tile] write).accept c.u j

/-- ACCCTL_CLEAR (R287). -/
def execAccctlClear (h : Hdr) (g : BitVec 3) (t : BitVec 3) (s : State) : Host.Outcome State Fault Refusal :=
  issue (.accctlClear h g t) h g (fun c s => .done (s.acceptCtl c t.toNat true .clear)) s

/-- The checks of a save or load (R287, R288): a thread store or load of 16 KiB by every active lane at one offset. -/
def accMove (k : BitVec 6) (a : Access) (op : Nat → State → State) (c : Ctx) (s : State) : Eff :=
  let o := (c.G.sreg k.toNat).toNat % 2 ^ 32
  match spadCheck c a 16 ((lanesOf c.act).map fun l => (l, o)) s with
  | .error e => e
  | .ok (s, xs) => .done (if xs.isEmpty then s else op o s)

/-- ACCCTL_SAVE (R287). -/
def execAccctlSave (h : Hdr) (g : BitVec 3) (k : BitVec 6) (t : BitVec 3) (s : State) : Host.Outcome State Fault Refusal :=
  issue (.accctlSave h g k t) h g (fun c s =>
    accMove k (Access.store 16384) (fun o s => s.acceptCtl c t.toNat false (.save o)) c s) s

/-- ACCCTL_LOAD (R287). -/
def execAccctlLoad (h : Hdr) (g : BitVec 3) (k : BitVec 6) (t : BitVec 3) (s : State) : Host.Outcome State Fault Refusal :=
  issue (.accctlLoad h g k t) h g (fun c s =>
    accMove k (Access.load 16384) (fun o s => s.acceptCtl c t.toNat true (.load o)) c s) s

/-- ACCCTL_WAIT (R287). -/
def execAccctlWait (h : Hdr) (g : BitVec 3) (t : BitVec 3) (s : State) : Host.Outcome State Fault Refusal :=
  issue (.accctlWait h g t) h g (fun c s => .done (s.acceptCtl c t.toNat true .wait)) s

/-- ACCCTL_OVF (R287): the destination waits on the scoreboard for the action. -/
def execAccctlOvf (h : Hdr) (g : BitVec 3) (d : BitVec 6) (t : BitVec 3) (s : State) : Host.Outcome State Fault Refusal :=
  issue (.accctlOvf h g d t) h g (fun c s =>
    if c.act = 0 then .done s
    else .done ((s.modGang c.u c.g fun G => { G with tokens := d.toNat :: G.tokens }).acceptCtl c t.toNat false (.ovf d.toNat))) s

/-- A tile's bytes as accctl.save writes them (R287). -/
def tileBytes (acc : List (Nat × Word)) (t : Nat) : List Byte :=
  (List.range 4096).flatMap fun i => bytesOf 4 (sread acc (4096 * t + i)).toNat

/-- A tile from its bytes (R287). -/
def loadTile (acc : List (Nat × Word)) (t : Nat) (m : List Host.Cell) (off : Nat) : List (Nat × Word) :=
  (List.range 4096).foldl (fun acc i => swrite acc (4096 * t + i) (BitVec.ofNat 32 (readLE m (off + 4 * i) 4))) acc

/-- An accumulator action on a block (R283, R287). -/
def Block.accAct (b : Block) (t : Nat) : AccOp → Block
  | .write cells => { b with acc := cells.foldl (fun acc x =>
      let acc := match x.2.2.1 with | some v => swrite acc (tileAt t x.2.1 x.1) v | none => acc
      match x.2.2.2 with | some v => swrite acc (tileAt t x.2.1 (x.1 + 32)) v | none => acc) b.acc }
  | .clear => { b with acc := b.acc.filter (fun x => decide (x.1 / 4096 ≠ t)), ovf := b.ovf &&& ~~~ BitVec.twoPow 8 t }
  | .save off => { b with spad := writeBytes b.spad off (tileBytes b.acc t) }
  | .load off => { b with acc := loadTile b.acc t b.spad off }
  | .ovf _ => { b with ovf := b.ovf &&& ~~~ BitVec.twoPow 8 t }
  | .read _ _ => b
  | .wait => b

/-- What an accumulator action gives its gang (R283, R287). -/
def Gang.accAct (G : Gang) (b : Block) (t : Nat) : AccOp → Gang
  | .read d rows =>
    let G := { G with accRegs := (G.accRegs.erase d).erase (d + 1) }
    rows.foldl (fun G x => G.modLane x.1 fun T =>
      (T.setReg d (sread b.acc (tileAt t x.2 x.1))).setReg (d + 1) (sread b.acc (tileAt t x.2 (x.1 + 32)))) G
  | .ovf d => { G.setSreg d (if b.ovf.getLsbD t then 1 else 0) with tokens := G.tokens.filter fun r => decide (r ≠ d) }
  | _ => G

/-- Actions for whose end the gang waits, by a register or at once. -/
def AccOp.waited : AccOp → Bool
  | .read _ _ | .save _ | .load _ | .ovf _ | .wait => true
  | _ => false

/-- The accesses of an accctl that has issued and been counted: where they end the chunk, its word counts for the next one
(R382). -/
def State.accctlAccess (s : State) (u g : Nat) (items : List Item) (write : Bool) : State :=
  let n : Nat := (((s.gang? u g).bind (·.chunk)).map (·.cseq)).getD 0
  let count (f : Nat → Nat) (s : State) : State :=
    s.modGang u g fun G => { G with chunk := G.chunk.map fun c => { c with count := f c.count } }
  let t := (count (· - 1) s).gangAccess u g items write
  if (((t.gang? u g).bind (·.chunk)).map (·.cseq)).getD 0 = n then s.gangAccess u g items write
  else count (· + 1) t

/-- ACC_ACTION (R284): once every earlier-accepted job on the tile has completed. In record mode an action that the gang waits
for also reads the tile when it is performed, so that no chunk goes on past the wait below the clock of the job that ended it
(R378, R392; log 34). -/
def execAccAction (u j : Nat) (s : State) : Host.Outcome State Fault Refusal :=
  match s.block? u with
  | none => .next s
  | some b => match b.job? j with
    | some x => match x.kind with
      | .acc t op =>
        if !b.allows x then .next s
        else
          let s := match op with
            | .save off => s.accctlAccess u x.gang (spadItems off 16384) true
            | .load off => s.accctlAccess u x.gang (spadItems off 16384) false
            | _ => s
          let s := if op.waited then s.gangAccess u x.gang [Item.tile t] false else s
          let s := (s.modGang u x.gang fun G => G.accAct b t op).modBlock u fun b => b.accAct t op
          .next ((s.dropJob u j).checkBlock u)
      | _ => .next s
    | none => .next s

end Sys2Proof.Machine
end

