-- ==== Sys2Proof/Machine/Regions.lean ====
section
/-! DEFINITION. The instructions of atomic regions (R139-R156) and the commit engine (R146-R149). -/

namespace Sys2Proof.Machine

/-- RBEGIN (R139): a region for each active thread, with the branch target as its fallback PC. -/
def execRbegin (h : Hdr) (g : BitVec 3) (o : BitVec 21) (s : State) : Host.Outcome State Fault Refusal :=
  issue (.rbegin h g o) h g (laneEff fun c _ t => { t with region := some (Region.opened (c.target o)) }) s

/-- The lanes of a list that f picks out abort, and the others go on (R145, R155). -/
def cutLanes (c : Ctx) (cause : Nat) (f : Nat → Bool) (ls : List Nat) (s : State) : State × List Nat :=
  let bad := ls.filter f
  (s.abortRegions c.u c.g (maskOf fun l => decide (l ∈ bad)) cause fun _ => 0, ls.filter fun l => !f l)

/-- The open region of a lane. -/
def State.regionOf (s : State) (u g l : Nat) : Option Region := (s.gang? u g).bind fun G => (G.lane l).region

/-- A line that would be a region's ninth (R145). -/
def Region.noRoom (r : Region) (line : Nat) : Bool :=
  !r.lines.any (fun x => decide (x.line = line)) && decide (8 ≤ r.lines.length)

/-- The checks of a region access (R100, R145, R155): lanes beyond a capacity or on another device's memory abort, the
others have their places. -/
def regionAccess (c : Ctx) (a : Access) (full : Region → Bool) (cause : Nat) (o : BitVec 7) (b : BitVec 4) (s : State) :
    Except Eff (State × List Spot) :=
  let r := cutLanes c cause (fun l => match (c.G.lane l).region with | some r => full r | none => false) (lanesOf c.act) s
  match globalCheck c { a with region := true } ((globalAddrs c b.toNat o).filter fun x => decide (x.1 ∈ r.2)) r.1 with
  | .error e => .error e
  | .ok (s, xs) =>
    let away := xs.filter fun x => !s.local x.pa
    let s := s.abortRegions c.u c.g (maskOf fun l => away.any fun x => decide (x.lane = l)) 0x41 fun _ => 0
    let xs := xs.filter fun x => s.local x.pa
    let ninth := xs.filter fun x => match (c.G.lane x.lane).region with | some r => r.noRoom (lineOf x.pa) | none => false
    let s := s.abortRegions c.u c.g (maskOf fun l => ninth.any fun x => decide (x.lane = l)) 0x21 fun _ => 0
    .ok (s, xs.filter fun x => match (c.G.lane x.lane).region with | some r => !r.noRoom (lineOf x.pa) | none => false)

/-- A snapshot of a line, read through the die's L2 (R141): the cluster's own dirty bytes reach it first. -/
def State.snapshot (s : State) (c : Ctx) (line key : Nat) : State × (BitVec 1024 × Nat) :=
  let s := s.writeBack (clusterOf c.B.core) line key
  let s := s.getShared line key (dieOf c.B.core) (BitVec.allOnes 128)
  (s, (s.lineData line key, s.writesOf line key))

/-- The line of a region with a snapshot: a new line, or one that only a store had reached (R141). -/
def Region.withSnap (r : Region) (x : Spot) (snap : BitVec 1024 × Nat) : Region :=
  if r.lines.any fun y => decide (y.line = lineOf x.pa) then
    { r with lines := r.lines.map fun y => if y.line = lineOf x.pa then { y with snap := some snap } else y }
  else { r with lines := r.lines ++ [{ line := lineOf x.pa, va := BitVec.ofNat 72 x.va, key := x.key, snap := some snap }] }

/-- The snapshot that a region holds of a line. -/
def Region.snapOf (r : Region) (line : Nat) : Option (BitVec 1024 × Nat) :=
  (r.lines.find? fun y => decide (y.line = line)).bind (·.snap)

/-- Four bytes of a line's data. -/
def lineWord (d : BitVec 1024) (o : Nat) : Word := d.extractLsb' (8 * o) 32

/-- One lane's rld (R141): its input, its tag, and the rigid input of a tagged offset. -/
def State.rldLane (s : State) (c : Ctx) (t o : BitVec 7) (x : Spot) : State :=
  match s.regionOf c.u c.g x.lane with
  | none => s
  | some r =>
    let y := match r.snapOf (lineOf x.pa) with | some z => (s, z) | none => s.snapshot c (lineOf x.pa) x.key
    let v := lineWord y.2.1 (x.pa % 128)
    y.1.modGang c.u c.g fun G => G.modLane x.lane fun T =>
      let k := r.inputs.length
      let T := match (c.G.lane x.lane).tag o.toNat with | some q => T.makeRigid q.k | none => T
      let T := T.modRegion fun r =>
        let r := r.withSnap x y.2
        { r with inputs := r.inputs ++ [{ pa := x.pa, va := BitVec.ofNat 72 x.va, value := v, rigid := false }] }
      (T.setReg t.toNat v).setTag t.toNat k 0

/-- RLD (R141). -/
def execRld (h : Hdr) (g : BitVec 3) (t o : BitVec 7) (b : BitVec 4) (s : State) : Host.Outcome State Fault Refusal :=
  issue (.rld h g t o b) h g (fun c s =>
    match regionAccess c { (Access.load 4 : Access) with fetch := false } (fun r => decide (8 ≤ r.inputs.length)) 0x20 o b s with
    | .error e => e
    | .ok (s, xs) =>
      let fresh := xs.filter fun x => match (c.G.lane x.lane).region with
        | some r => (r.snapOf (lineOf x.pa)).isNone
        | none => false
      let s := if fresh.isEmpty then s else s.gangAccess c.u c.g (spotItems fresh 4) false
      .done (xs.foldl (fun s x => s.rldLane c t o x) s)) s

/-- One lane's rst (R144). -/
def State.rstLane (s : State) (c : Ctx) (t o : BitVec 7) (w : BitVec 3) (x : Spot) : State :=
  let T0 := c.G.lane x.lane
  let sym := if w = 4 then (T0.tag t.toNat).map fun q => (q.k, q.c) else none
  s.modGang c.u c.g fun G => G.modLane x.lane fun T =>
    let T := if sym.isSome then T else T.rigidRegs T0 (vregs t (widthRegs w))
    let T := T.rigidRegs T0 (vregs o 1)
    T.modRegion fun r =>
      let r := if r.lines.any fun y => decide (y.line = lineOf x.pa) then r
        else { r with lines := r.lines ++ [{ line := lineOf x.pa, va := BitVec.ofNat 72 x.va, key := x.key, snap := none }] }
      { r with stores := r.stores ++ [{ pa := x.pa, va := BitVec.ofNat 72 x.va, size := widthBytes w,
                                        bits := BitVec.ofNat 64 (ofBytes (storeBytes w T0 t.toNat)), sym := sym }] }

/-- RST (R144). -/
def execRst (h : Hdr) (g : BitVec 3) (t o : BitVec 7) (b : BitVec 4) (w : BitVec 3) (s : State) : Host.Outcome State Fault Refusal :=
  issue (.rst h g t o b w) h g (fun c s =>
    match regionAccess c (Access.store (widthBytes w)) (fun r => decide (8 ≤ r.stores.length)) 0x23 o b s with
    | .error e => e
    | .ok (s, xs) => .done (xs.foldl (fun s x => s.rstLane c t o w x) s)) s

/-- REND (R147): the active threads' regions go to the commit engine, which ends the run. -/
def execRend (h : Hdr) (g : BitVec 3) (s : State) : Host.Outcome State Fault Refusal :=
  issue (.rend h g) h g (fun c s =>
    if c.act = 0 then .done s
    else .done (s.modGang c.u c.g fun G => { G with
      sheaf := G.sheaf.map fun S => { S with commit := some (c.act, c.pc, c.n) } })) s

/-- RABORT (R152). -/
def execRabort (h : Hdr) (g : BitVec 3) (i : BitVec 8) (s : State) : Host.Outcome State Fault Refusal :=
  issue (.rabort h g i) h g (fun c s => .done (s.abortRegions c.u c.g c.act 0x50 fun _ => i.toNat)) s

/-- RSTAT (R151). -/
def execRstat (h : Hdr) (g : BitVec 3) (d : BitVec 7) (s : State) : Host.Outcome State Fault Refusal :=
  issue (.rstat h g d) h g (laneEff fun _ _ t => t.setReg d.toNat t.rstat) s

/-! ### The commit engine -/

/-- A line of a region with its place at the commit. -/
structure CLine where
  lane : Nat
  x : RLine
  place : Place

/-- How a lane's region ends at the commit engine (R147). -/
inductive CommitEnd where
  | commit (repaired : Bool) (xs : List Word)
  | abort (cause detail : Nat)
  | poisoned (va : Nat) (src : Nat)

/-- A line conflicts (R146): it has been written since its snapshot, or it stands elsewhere by now. -/
def State.conflicts (s : State) (x : RLine) : Bool :=
  match x.snap with | some z => decide (s.writesOf x.line x.key ≠ z.2) | none => false

/-- The first poisoned byte of a region's snapshot lines (R372), as an address of that line's first access. -/
def State.poisonedLine (s : State) (r : Region) : Option (Nat × Nat) :=
  r.lines.findSome? fun x =>
    if x.snap.isSome && decide (s.poisonBits x.line x.key ≠ 0) then
      let pa := s.poisonAt x.key (x.line * 128) 128
      some ((x.va.toNat / 128 * 128 + pa % 128), (s.poisonSrc x.line x.key).toNat)
    else none

/-- An input's value for the commit: the fresh bytes of a conflicting line, else the snapshot's (R147). -/
def State.inputValue (s : State) (r : Region) (i : RInput) : Word :=
  match r.lines.find? fun x => decide (x.line = lineOf i.pa) with
  | some x => if s.conflicts x then BitVec.ofNat 32 (ofBytes (s.bytesAt x.key i.pa 4)) else i.value
  | none => i.value

/-- A conflicting input. -/
def State.inputConflicts (s : State) (r : Region) (i : RInput) : Bool :=
  r.lines.any fun x => decide (x.line = lineOf i.pa) && s.conflicts x

/-- The commit engine's judgement of a region (R147). -/
def State.judge (s : State) (r : Region) : CommitEnd :=
  match s.poisonedLine r with
  | some (va, src) => .poisoned va src
  | none =>
    match r.inputs.findIdx? fun i => i.rigid && s.inputConflicts r i with
    | some k => .abort 0x10 k
    | none =>
      let xs := r.inputs.map fun i => s.inputValue r i
      match r.cons.findIdx? fun q => !q.holds (xs.getD q.k 0) with
      | some i => .abort 0x11 i
      | none => .commit (r.inputs.any fun i => s.inputConflicts r i) xs

/-- A region's stores are written, in recording order (R147). -/
def State.commitStores (s : State) (u g : Nat) (r : Region) (xs : List Word) : State :=
  r.stores.foldl (fun s w =>
    let v : Nat := match w.sym with | some (k, c) => (xs.getD k 0 + c).toNat | none => w.bits.toNat
    let key := ((r.lines.find? fun x => decide (x.line = lineOf w.pa)).map (·.key)).getD 0
    (s.physWrite key w.pa (bytesOf w.size v)).digestWrite u g (w.va.toNat % 2 ^ 64) (v % 2 ^ (8 * w.size))) s

/-- A committing thread (R147): its tagged registers are rewritten and its status set. -/
def Lane.committed (t : Lane) (r : Region) (repaired : Bool) (xs : List Word) : Lane :=
  let t := r.tags.foldl (fun t q => t.setReg q.reg (xs.getD q.k 0 + q.c)) t
  { t with region := none, rstat := rstatValue (if repaired then 2 else 1) 0 r.count }

/-- The lines of a region, as the recorder names them. -/
def Region.items (r : Region) : List Item := r.lines.map fun x => .line x.key x.line

/-- The lanes in ascending order (R148): each sees the stores of the lower lanes. The state, the lines read and written,
and the lanes that met poison. -/
def State.commitLanes (s : State) (u g : Nat) : List Nat → State × List Item × List Item × List (Nat × Nat × Nat)
  | [] => (s, [], [], [])
  | l :: t =>
    match s.regionOf u g l with
    | none => s.commitLanes u g t
    | some r =>
      let lines := r.items
      match s.judge r with
      | .commit rep xs =>
        let z := ((s.commitStores u g r xs).modGang u g fun G => G.modLane l fun T => T.committed r rep xs).commitLanes u g t
        (z.1, z.2.1, lines ++ z.2.2.1, z.2.2.2)
      | .abort cause detail =>
        let z := (s.abortRegions u g (BitVec.twoPow 32 l) cause fun _ => detail).commitLanes u g t
        (z.1, lines ++ z.2.1, z.2.2.1, z.2.2.2)
      | .poisoned va src =>
        let z := s.commitLanes u g t
        (z.1, lines ++ z.2.1, z.2.2.1, (l, va, src) :: z.2.2.2)

/-- The run of a rend ends (R147): its words count, after a cause that the commit raised for some lanes. A member whose region
has aborted before resumes at its fallback PC (R150). -/
def State.endCommit (s : State) (u g : Nat) (pc : Word) (n : Nat) (trap : Option (BitVec 32 × Nat × Nat × Dword)) : State :=
  let s := s.modGang u g fun G => { G with sheaf := G.sheaf.map fun S => { S with commit := none } }
  let s := match trap with
    | some (m, cause, addr, info) =>
      let at_ (l : Nat) : Word := match s.gang? u g with
        | some G => if G.running.getLsbD l then pc + BitVec.ofNat 32 (4 * n) else (G.lane l).pc
        | none => pc
      s.deliver u g m cause cause (fun _ => pc) at_ (BitVec.ofNat 64 addr) info
    | none => s
  (s.countWords u g n).endRun u g false

/-- A region whose lines stand where they translate to by now: a line that has moved conflicts with its snapshot. -/
def Region.relocate (r : Region) (s : State) (to_ : List (Nat × Nat × Nat)) : Region :=
  let new (line : Nat) : Nat := ((to_.find? fun x => decide (x.1 = line)).map (·.2.1)).getD line
  let key (x : RLine) : Nat := ((to_.find? fun y => decide (y.1 = x.line)).map (·.2.2)).getD x.key
  let pa (a : Nat) : Nat := new (lineOf a) * 128 + a % 128
  { r with
    lines := r.lines.map fun x =>
      { x with line := new x.line, key := key x,
               snap := if new x.line = x.line ∧ key x = x.key then x.snap
                 else x.snap.map fun z => (z.1, s.writesOf (new x.line) (key x) + 1) },
    inputs := r.inputs.map fun i => { i with pa := pa i.pa },
    stores := r.stores.map fun w => { w with pa := pa w.pa } }

/-- Some lane's region has committed. -/
def State.someCommitted (s : State) (u g : Nat) (ls : List Nat) : Bool :=
  match s.gang? u g with
  | some G => ls.any fun l => (G.lane l).region.isNone && decide ((G.lane l).rstat.toNat % 256 = 1 ∨ (G.lane l).rstat.toNat % 256 = 2)
  | none => false

/-- The commit of a sheaf's regions once every line has its place (R147, R148): the cluster's own dirty bytes of the lines reach
their homes, the lines are locked in ascending order, which recalls their dirty bytes (R149), and no other access comes before
the locks are released; then the judgements, the stores, and, where a region commits, the cache actions of a release before its
stores and of an acquire after them, at device scope; a rend all of whose regions abort has neither (R131, R150). -/
def State.doCommit (s : State) (u g cl : Nat) (ls : List Nat) (pc : Word) (n : Nat) : State :=
  let lines := (ls.flatMap fun l => match s.regionOf u g l with | some r => r.lines.map (fun x => (x.line, x.key)) | none => []).eraseDups
  let s := lines.foldl (fun s x => s.writeBack cl x.1 x.2) s
  let s := (sortedBy lines).foldl (fun s x => s.lockLine x.1 x.2) s
  let commits := (s.commitLanes u g ls).1.someCommitted u g ls
  let s := if commits then s.releaseCluster cl else s
  let z := s.commitLanes u g ls
  let wr := z.2.2.1.eraseDups
  let s := z.1.gangAccesses u g (z.2.1.filter fun x => !decide (x ∈ wr)).eraseDups wr
  let s := lines.foldl (fun s x => s.unlockLine x.1 x.2) s
  let s := if commits then s.acquireCluster cl else s
  match z.2.2.2 with
  | [] => s.endCommit u g pc n none
  | (l, va, src) :: t =>
    let m := maskOf fun k => ((l, va, src) :: t).any fun e => decide (e.1 = k)
    s.endCommit u g pc n (some (m, 0x13, va, memInfo src (va / 2 ^ 64) m))

/-- COMMIT (R147, R154): every line of the regions translates with R and W (R346), or the commit parks, or Permission is
raised on every member. A line that by now stands on another device's memory aborts its region (R155). -/
def execCommit (u g : Nat) (s : State) : Host.Outcome State Fault Refusal :=
  match s.block? u, s.launchOf u, s.gang? u g with
  | some b, some L, some G => match G.sheaf with
    | none => .next s
    | some S => match S.commit with
      | none => .next s
      | some (m, pc, n) =>
        if G.isParked then .next s
        else
          let ls := lanesOf (m &&& G.inRegion)
          let cs := ls.flatMap fun l => match (G.lane l).region with
            | some r => r.lines.map fun x => { lane := l, x := x, place := s.regionPlace (.thread b.core (g % 4)) L.part x.va.toNat ⟨true, true, false⟩ : CLine }
            | none => []
          let src (l : Nat) : FaultSrc := { source := 5, access := 2, lin := b.lin, gang := g, lane := l, queue := 0 }
          let perms := cs.filterMap fun c => match c.place with | .perm r => some (c, r) | _ => none
          let faults := cs.filterMap fun c => match c.place with | .fault lv e v => some (c, lv, e, v) | _ => none
          match perms, faults with
          | (c, r) :: _, _ =>
            let s := perms.foldl (fun s y => if y.2 = 4 then s.recordWalk (.thread b.core (g % 4)) L.part y.1.x.va.toNat (src y.1.lane) else s) s
            let fm := maskOf fun l => perms.any fun y => decide (y.1.lane = l)
            .next (s.endCommit u g pc n (some (G.members, 0x06, c.x.va.toNat, memInfo r (c.x.va.toNat / 2 ^ 64) fm)))
          | [], (c, _) :: _ =>
            let s := faults.foldl (fun s y => s.faultRecord L.part y.1.x.va.toNat y.2.1 y.2.2.1 y.2.2.2 1 (src y.1.lane)) s
            .next (s.modGang u g fun G => { G with parked := some { kind := 0, part := L.part, va := c.x.va } })
          | [], [] =>
            let away := maskOf fun l => cs.any fun c => decide (c.lane = l) && match c.place with
              | .ok pa _ => !s.local pa
              | _ => false
            let s := s.abortRegions u g away 0x41 fun _ => 0
            let s := ls.foldl (fun s l =>
              let to_ := (cs.filter fun c => decide (c.lane = l)).filterMap fun c => match c.place with
                | .ok pa key => some (c.x.line, lineOf pa, key)
                | _ => none
              s.modGang u g fun G => G.modLane l fun T => T.modRegion fun r => r.relocate s to_) s
            .next (s.doCommit u g (clusterOf b.core) (ls.filter fun l => !away.getLsbD l) pc n)
  | _, _, _ => .next s

end Sys2Proof.Machine
end

