-- ==== Sys2Proof/Machine/Context.lean ====
section
/-! DEFINITION. Pre-emption and the context record: gang save areas (R75), thread extensions (R340), the record and its pool
(R338, R339), the engine save image (R293), saving (R335, R336) and restoring (R341, R229). What the record calls opaque has
bytes and check values without a body, and what it does not hold is kept by the device itself (log 14). -/

namespace Sys2Proof.Machine

/-! ### What is written -/

/-- Bytes padded with zeros to a length. -/
def padTo (n : Nat) (bs : List Byte) : List Byte := bs ++ List.replicate (n - bs.length) 0

/-- A number of bytes rounded up to a multiple of 128. -/
def up128 (n : Nat) : Nat := (n + 127) / 128 * 128

/-- A thread's state word (R75). -/
def Lane.stateWord (t : Lane) : Nat :=
  match t.st with
  | .eligible => 0
  | .exited => 2
  | .blocked (.jwait j _) => 1 + 4 + 16 * j
  | .blocked (.bar off _ _ arr) => 1 + (if arr then 12 else 8) + 256 * (off % 2 ^ 20)
  | .blocked .reggrow => 1

/-- Four bytes a lane. -/
def Gang.words (G : Gang) (f : Lane → Nat) : List Byte := (List.range 32).flatMap fun l => bytesOf 4 (f (G.lane l))

/-- The vector registers of a budget, in the order of a save area (R75). -/
def savedRegs (vb : Nat) : List Nat := List.range (vb - 8) ++ (List.range 8).map (104 + ·)

/-- A gang's save area (R75). -/
def Gang.saveArea (G : Gang) : List Byte :=
  let head := padTo 0x40 (bytesOf 4 1 ++ bytesOf 1 G.vb ++ bytesOf 1 G.sb ++ bytesOf 1 G.role ++ bytesOf 1 G.idx
    ++ bytesOf 4 G.live.toNat ++ bytesOf 4 ((G.grow.map (·.1)).getD 0) ++ bytesOf 4 G.fpstat.toNat ++ bytesOf 4 G.spfault.toNat)
  let threads := G.words (fun t => t.pc.toNat) ++ G.words (fun t => t.lnk.toNat)
    ++ ((List.range 32).flatMap fun l => bytesOf 8 (G.lane l).draw.toNat) ++ G.words Lane.stateWord
  let sets := (List.range 16).flatMap fun j => bytesOf 4 (G.m j).toNat ++ bytesOf 4 (G.a j).toNat
  let preds := (List.range 7).flatMap fun k => bytesOf 4 (maskOf fun l => (G.lane l).p.getLsbD k).toNat
  let traps := (List.range 32).flatMap fun l =>
    let t := G.lane l
    bytesOf 8 t.tcause.toNat ++ bytesOf 8 t.tpc.toNat ++ bytesOf 8 t.taddr.toNat ++ bytesOf 8 t.tinfo.toNat
  padTo 0x800 (padTo 0x380 (head ++ threads ++ sets ++ preds) ++ traps)
    ++ ((List.range 64).flatMap fun k => bytesOf 16 (G.sreg k).toNat)
    ++ ((savedRegs G.vb).flatMap fun r => G.words fun t => (t.reg r).toNat)

/-- The vector registers of a thread as a save area holds them (R75). -/
def Lane.loadRegs (t : Lane) (area : List Byte) (l : Nat) : Lane :=
  let rs := savedRegs (fieldAt area 4 1)
  { t with v := (List.range rs.length).foldl (fun v i =>
      vset v (rs.getD i 0) (BitVec.ofNat 32 (fieldAt area (0xC00 + 128 * i + 4 * l) 4))) t.v }

/-- The scalar registers as a save area holds them (R75). -/
def savedScalars (area : List Byte) : Vector Wide 64 :=
  Vector.ofFn fun (k : Fin 64) => BitVec.ofNat 72 (fieldAt area (0x800 + 16 * k.val) 9)

/-- A thread extension (R340). -/
def Lane.extension (t : Lane) : List Byte :=
  let r := t.restored.getD (0, 0, 0)
  bytesOf 4 ((if t.handler then 1 else 0) + (if t.watchPass then 2 else 0) + (if t.restored.isSome then 4 else 0))
    ++ bytesOf 4 t.resume.toNat ++ bytesOf 4 r.2.1.toNat ++ bytesOf 4 r.1 ++ bytesOf 8 (t.seq % 2 ^ 37) ++ bytesOf 8 t.epoch

/-- A gang's event queue in the record (R339). -/
def Gang.eventBytes (G : Gang) : List Byte :=
  padTo 288 (padTo 32 (bytesOf 1 G.events.length) ++ (G.events.take 8).flatMap fun e =>
    bytesOf 1 e.lane ++ bytesOf 1 e.cause ++ bytesOf 2 0 ++ bytesOf 4 e.tpc.toNat ++ bytesOf 8 e.taddr.toNat
      ++ bytesOf 8 e.tinfo.toNat ++ bytesOf 8 0)

/-- A gang's open run in the record (R336, R339). -/
def Gang.openBytes (G : Gang) : List Byte :=
  match G.sheaf with
  | some S => padTo 16 (bytesOf 4 (S.members &&& G.live).toNat ++ bytesOf 1 S.pos)
  | none => List.replicate 16 0

/-- Opaque bytes of a part (log 14). -/
def opaqueBytes (part n : Nat) : List Byte := (List.range n).map (Config.opaqueByte part)

/-- The engine save image (R293), its opaque parts numbered from a part on. -/
def Block.image (b : Block) (tiles part : Nat) (version : BitVec 32) : List Byte :=
  let body := bytesOf 1 tiles ++ bytesOf 1 (b.jobs.filter Job.isMma).length ++ bytesOf 1 b.ovf.toNat
  let head := padTo 0x38 (bytesOf 4 version.toNat ++ bytesOf 4 (0x1840 + tiles * 16384) ++ body)
  let rest := ((List.range tiles).flatMap fun t => tileBytes b.acc t) ++ opaqueBytes part (32 * 64 + 4096)
  head ++ bytesOf 8 (Config.checkValue (head ++ rest)).toNat ++ rest

/-- Where the parts of a context record stand (R339). -/
structure CtxLayout where
  events : Nat
  exts : Nat
  parked : Nat
  copies : Nat
  areas : List Nat
  image : Nat
  spad : Nat
  size : Nat

/-- How many parked accesses and copy jobs a block saves. -/
def Block.parkedCount (b : Block) : Nat := (b.gangs.filter Gang.isParked).length
def Block.copyCount (b : Block) : Nat := (b.jobs.filter Job.isCopy).length

/-- The layout of a block's record (R339). -/
def Block.layout (b : Block) (L : Launch) : CtxLayout :=
  let n := b.gangs.length
  let events := 0x40 + 16 * n
  let exts := events + 288 * n
  let parked := exts + 1024 * n
  let copies := parked + 64 * b.parkedCount
  let first := copies + 256 * b.copyCount
  let sizes := b.gangs.map fun G => up128 (0xC00 + G.vb * 128)
  let image := first + sizes.sum
  let spad := image + 0x1840 + L.r.accn * 16384
  { events := events, exts := exts, parked := parked, copies := copies,
    areas := (List.range n).map fun i => first + (sizes.take i).sum, image := image, spad := spad,
    size := up128 (spad + L.r.scratch) }

/-- The layout of a record, as its own fields give it (R341). -/
def readLayout (bs : List Byte) : CtxLayout :=
  let n := min 32 (fieldAt bs 0x24 1)
  let events := 0x40 + 16 * n
  let exts := events + 288 * n
  let parked := exts + 1024 * n
  let copies := parked + 64 * min 64 (fieldAt bs 0x26 1)
  let first := copies + 256 * min 64 (fieldAt bs 0x27 1)
  let areas := (List.range n).foldl (fun (x : List Nat × Nat) _ =>
    (x.1 ++ [x.2], x.2 + up128 (0xC00 + fieldAt bs (x.2 + 4) 1 * 128))) ([], first)
  let spad := areas.2 + 0x1840 + min 8 (fieldAt bs 0x25 1) * 16384
  { events := events, exts := exts, parked := parked, copies := copies, areas := areas.1, image := areas.2, spad := spad,
    size := up128 (spad + fieldAt bs 0x20 4) }

/-- A block's context record (R339). -/
def Block.record (b : Block) (L : Launch) (part : Nat) (version : BitVec 32) : List Byte :=
  let y := b.layout L
  let opq := opaqueBytes part (64 * b.parkedCount + 256 * b.copyCount)
  let head := bytesOf 4 1 ++ bytesOf 4 y.size ++ bytesOf 8 b.lin ++ bytesOf 16 L.r.addr.toNat ++ bytesOf 4 L.r.scratch
    ++ bytesOf 1 b.gangs.length ++ bytesOf 1 L.r.accn ++ bytesOf 1 b.parkedCount ++ bytesOf 1 b.copyCount
    ++ bytesOf 4 ((List.range 16).map fun i => b.buf i * 4 ^ i).sum ++ bytesOf 4 0 ++ bytesOf 8 (Config.checkValue opq).toNat
  padTo y.size (padTo 0x40 head ++ b.gangs.flatMap Gang.openBytes ++ b.gangs.flatMap Gang.eventBytes
    ++ (b.gangs.flatMap fun G => (List.range 32).flatMap fun l => (G.lane l).extension) ++ opq
    ++ (b.gangs.flatMap fun G => padTo (up128 (0xC00 + G.vb * 128)) G.saveArea) ++ b.image L.r.accn (part + 1) version
    ++ readBytes b.spad 0 L.r.scratch)

/-! ### What is read back -/

/-- A thread as its gang area and its extension give it (R75, R340, R341, R229); a wait's address is that of the word before
the PC. -/
def Lane.restore (t : Lane) (area ext spad : List Byte) (l : Nat) : Lane :=
  let w : BitVec 32 := BitVec.ofNat 32 (fieldAt area (0x240 + 4 * l) 4)
  let pc := BitVec.ofNat 32 (fieldAt area (0x40 + 4 * l) 4)
  let off := (w.extractLsb' 8 20).toNat
  let phase (o : Nat) : BitVec 32 := BitVec.ofNat 32 (fieldAt spad (o + 12) 4)
  let bar (arr : Bool) : ThreadState := .blocked (.bar off (phase off) (pc - 4) arr)
  let st : ThreadState := match (w.extractLsb' 0 2).toNat, (w.extractLsb' 2 2).toNat with
    | 0, _ => .eligible
    | 1, 1 => .blocked (.jwait (w.extractLsb' 4 4).toNat (pc - 4))
    | 1, 2 => bar false
    | 1, 3 => bar true
    | 1, _ => .blocked .reggrow
    | _, _ => .exited
  let flags := fieldAt ext (32 * l) 1
  let o := fieldAt ext (32 * l + 12) 4
  let trap (i : Nat) : Dword := BitVec.ofNat 64 (fieldAt area (0x380 + 32 * l + 8 * i) 8)
  { t with
    st := st, pc := pc, lnk := BitVec.ofNat 32 (fieldAt area (0xC0 + 4 * l) 4), draw := BitVec.ofNat 64 (fieldAt area (0x140 + 8 * l) 8),
    waitCount := 0, ymark := false,
    v := (t.loadRegs area l).v,
    p := (List.range 7).foldl (fun p k =>
      if (fieldAt area (0x340 + 4 * k) 4).testBit l then p ||| BitVec.twoPow 7 k else p) 0,
    tcause := trap 0, tpc := trap 1, taddr := trap 2, tinfo := trap 3,
    handler := flags.testBit 0, watchPass := flags.testBit 1, resume := BitVec.ofNat 32 (fieldAt ext (32 * l + 4) 4),
    restored := if flags.testBit 2 then some (o, BitVec.ofNat 32 (fieldAt ext (32 * l + 8) 4), (t.restored.getD (0, 0, 0)).2.2) else none,
    seq := if t.seq = 2 ^ 37 ∧ fieldAt ext (32 * l + 16) 8 % 2 ^ 37 = 0 then t.seq else fieldAt ext (32 * l + 16) 8 % 2 ^ 37, epoch := fieldAt ext (32 * l + 24) 8, region := none }

/-- A gang's event queue from the record; an entry keeps the tie to its job (R339). -/
def Gang.restoreEvents (G : Gang) (bs : List Byte) : List EngEvent :=
  (List.range (min 8 (fieldAt bs 0 1))).map fun i =>
    let o := 32 + 32 * i
    let e : EngEvent := { lane := fieldAt bs o 1, cause := fieldAt bs (o + 1) 1, tpc := BitVec.ofNat 32 (fieldAt bs (o + 4) 4),
                          taddr := BitVec.ofNat 64 (fieldAt bs (o + 8) 8), tinfo := BitVec.ofNat 64 (fieldAt bs (o + 16) 8), job := none }
    match G.events[i]? with
    | some x => if x.lane = e.lane ∧ x.cause = e.cause then { e with job := x.job } else e
    | none => e

/-- A gang from the record (R341), its budgets, its role and its index included: its open run goes on at the PC of its members. -/
def Gang.restore (G : Gang) (area ext events opened spad : List Byte) : Gang :=
  let lanes := Vector.ofFn fun (l : Fin 32) => (G.lane l.val).restore area ext spad l.val
  let grow := fieldAt area 0xC 1
  let G' : Gang := { G with
    vb := fieldAt area 4 1, sb := fieldAt area 5 1, role := fieldAt area 6 1, idx := fieldAt area 7 1,
    lanes := lanes,
    s := savedScalars area,
    jm := Vector.ofFn fun (j : Fin 16) => BitVec.ofNat 32 (fieldAt area (0x2C0 + 8 * j.val) 4),
    ja := Vector.ofFn fun (j : Fin 16) => BitVec.ofNat 32 (fieldAt area (0x2C4 + 8 * j.val) 4),
    fpstat := BitVec.ofNat 5 (fieldAt area 0x10 4), spfault := BitVec.ofNat 32 (fieldAt area 0x14 4),
    grow := if grow = 0 then none else some (grow, (G.grow.map (·.2)).getD 0),
    evicted := false, area := [], parked := none, ymark := false, cut := false, events := G.restoreEvents events }
  match G.sheaf with
  | none => G'
  | some S =>
    let members := BitVec.ofNat 32 (fieldAt opened 0 4)
    if fieldAt opened 4 1 = 0 then { G' with sheaf := none }
    else { G' with sheaf := some { S with
      members := members, pos := fieldAt opened 4 1, pc := (G'.lane (lowest (members &&& ~~~ S.out &&& G'.live))).pc } }

/-- The version or a check value of a record does not hold, or a thread state is 3 (R294, R341). -/
def recordMismatch (version : BitVec 32) (bs : List Byte) : Bool :=
  let y := readLayout bs
  let img := (bs.drop y.image).take (y.spad - y.image)
  decide (fieldAt bs 0 4 ≠ 1)
    || decide (fieldAt bs 0x30 8 ≠ (Config.checkValue ((bs.drop y.parked).take (y.areas.headD y.image - y.parked))).toNat)
    || decide (fieldAt img 0 4 ≠ version.toNat) || decide (fieldAt img 0x38 8 ≠ (Config.checkValue (img.take 0x38 ++ img.drop 0x40)).toNat)
    || y.areas.any fun a => (List.range 32).any fun l => decide (fieldAt bs (a + 0x240 + 4 * l) 4 % 4 = 3)

/-- A block from its record, whose bytes are taken as they stand (R341; log 14 for what the device keeps itself). Its clocked items
take the largest clock of its gangs and jobs (R377). -/
def Block.restore (b : Block) (bs : List Byte) (core stamp : Nat) : Block :=
  let y := readLayout bs
  let spad := (bs.drop y.spad).take (fieldAt bs 0x20 4)
  let part (at_ n i : Nat) : List Byte := (bs.drop (at_ + n * i)).take n
  let clk := (b.gangs.map fun G => (G.chunk.map (·.clock)).getD 0) ++ b.jobs.map (·.clock)
  { b with
    lin := fieldAt bs 8 8, core := core, stamp := stamp, stop := none, parked := false, clocks := [], baseClock := clk.foldl max 0,
    bufs := Vector.ofFn fun (i : Fin 16) => BitVec.ofNat 2 (fieldAt bs 0x28 4 / 4 ^ i.val),
    spad := writeBytes [] 0 spad,
    acc := (List.range (min 8 (fieldAt bs 0x25 1) * 4096)).foldl (fun acc i =>
      swrite acc i (BitVec.ofNat 32 (fieldAt bs (y.image + 0x40 + 4 * i) 4))) [],
    ovf := BitVec.ofNat 8 (fieldAt bs (y.image + 10) 1),
    jobs := b.jobs.map fun j => { j with parked := false, started := false },
    gangs := (b.gangs.take y.areas.length).mapIdx fun i G => G.restore (bs.drop (y.areas.getD i 0))
      (part y.exts 1024 i) (part y.events 288 i) (part 0x40 16 i) spad }

/-! ### The pool (R338) -/

/-- The pool's base and size: bits 15:0 read as zero. -/
def Partition.poolBase (P : Partition) : Nat := P.ctxBase.toNat / 2 ^ 16 * 2 ^ 16
def Partition.poolSize (P : Partition) : Nat := P.ctxSize.toNat / 2 ^ 16 * 2 ^ 16

/-- The bytes that repair migrations and replay stops are promised (R338). -/
def State.poolReserve (s : State) (p : Nat) : Nat := 2560 * 1024 * (s.workingCores p).length

/-- The records that stand in a partition's pool: offset and size. -/
def State.poolUsed (s : State) (p : Nat) : List (Nat × Nat) :=
  (s.launches.filter fun L => decide (L.part = p)).flatMap fun L => L.saved.map fun x => (x.2.1, x.2.2)

/-- The lowest place for a record of n bytes beside others, below a limit (log 14). -/
def freePlace (used : List (Nat × Nat)) (n limit : Nat) : Option Nat :=
  ((0 :: used.map fun x => x.1 + x.2).filter fun o =>
      decide (o + n ≤ limit) && !used.any fun x => decide (o < x.1 + x.2) && decide (x.1 < o + n)).foldl
    (fun (m : Option Nat) o => match m with | some y => some (min y o) | none => some o) none

/-- The place in the pool for a record. -/
def State.poolPlace (s : State) (p n limit : Nat) : Option Nat := freePlace (s.poolUsed p) n limit

/-- Records of some sizes have room together. -/
def roomFor (limit : Nat) : List Nat → List (Nat × Nat) → Bool
  | [], _ => true
  | n :: t, used => match freePlace used n limit with
    | some o => roomFor limit t ((o, n) :: used)
    | none => false

/-! ### Saving -/

/-- A gang stands where a pre-emption may save it (R335, R336): between runs, at a parked access, or part-way; nothing that
it has issued is under way. -/
def Gang.quiet (G : Gang) : Bool :=
  G.resp.isEmpty && G.mau.isEmpty && G.away.isEmpty && (G.sheaf.isNone || G.isParked || G.cut || G.held)

/-- An mma that has passed its last group: it is not frozen, it completes (R289). -/
def Job.completing (j : Job) : Bool :=
  match j.kind with
  | .mma p => decide (mmaK p.slotA.fmt / 16 ≤ j.pos) && j.running && !j.held
  | _ => false

/-- A block whose gangs, accumulator actions, copies under way and mma jobs at their end have come to rest (R335 steps 2 and 3). -/
def State.quiet (s : State) (b : Block) : Bool :=
  b.gangs.all Gang.quiet && !b.jobs.any (fun j => (j.isAcc && b.allows j) || j.completing)
    && !s.requests.any fun r => match r.job with | some (u, _) => decide (u = b.uid) | none => false

/-- Regions of a gang abort for a pre-emption (R154), which also ends a run that waits for its commits; a run at its first
instruction has not begun; the PCs of an open run's members stand at its next instruction. -/
def State.settleGang (s : State) (u g : Nat) : State :=
  match s.gang? u g with
  | none => s
  | some G =>
    let s := s.abortRegions u g (G.live &&& G.inRegion) 0x40 fun _ => 0
    let s := match G.sheaf with
      | some S => match S.commit with
        | some (_, pc, n) => s.endCommit u g pc n none
        | none => s
      | none => s
    s.modGang u g fun G => match G.sheaf with
      | some S =>
        if S.pos = 0 then { (G.modLanes S.fresh fun _ t => { t with ranSinceTret := false }) with sheaf := none }
        else { (G.modLanes G.running fun _ t => { t with pc := S.pc }) with sheaf := some S }
      | none => G

/-- What a fault record says of a context access (R338, R350). -/
def contextSource (b : Block) (access : Nat) : FaultSrc :=
  { source := 6, access := access, lin := b.lin, gang := 0, lane := 0, queue := 0 }

/-- A pool access that takes a translation fault waits until FRESUME; one that ends in Permission ends the launch with STATUS 8
(R338, R351). -/
def State.poolStop (s : State) (p a : Nat) (b : Block) (access va : Nat) (x : Place) : State :=
  let s := s.virtFault p va x (contextSource b access)
  let park (y : Block) : Block := if y.uid = b.uid then { y with parked := true } else y
  if x.parks then
    { s with blocks := s.blocks.map park, launches := s.launches.map fun L =>
        { L with saved := L.saved.map fun y => (park y.1, y.2) } }
  else s.endLaunch a 8

/-- A block's stop is given up: its runs go on. -/
def Block.goOn (b : Block) : Block := { b with stop := none, gangs := b.gangs.map fun G => { G with cut := false } }

/-- A block that has come to rest is saved (R335 steps 4 and 5); what its threads have stored leaves the cluster's L1, so that they
read it wherever they resume (R120, R337). A priority pre-emption is made only outside the reserve, and given up where there is no
room (R338). A block that holds its quadrant goes on holding it (R42). -/
def State.saveBlock (s : State) (u : Nat) (priority : Bool) : State :=
  match s.block? u, s.launchOf u with
  | some b0, some L =>
    let P := s.part L.part
    let n := (b0.layout L).size
    if b0.parked then s
    else match s.poolPlace L.part n (P.poolSize - if priority then s.poolReserve L.part else 0) with
    | none => if priority then s.modBlock u Block.goOn else s
    | some off =>
      let va := (P.poolBase + off) % 2 ^ 72
      match s.virtCheck L.part va n ⟨false, true, false⟩ with
      | some (a, x) => s.poolStop L.part L.id b0 1 a x
      | none =>
        let s := (b0.gangs.foldl (fun s G => s.settleGang u G.idx) s).releaseCluster (clusterOf b0.core)
        match s.block? u with
        | none => s
        | some b =>
          let s := (s.virtWrite L.part va (b.record L (2 * s.tick) P.engine)).modLaunch L.id fun L => { L with
            saved := (insertSorted (b.lin, b, off, n) (L.saved.map fun x => (x.1.lin, x))).map (·.2) }
          { s with
            blocks := s.blocks.filter fun x => decide (x.uid ≠ u),
            cur := match s.cur with | some (v, g) => if v = u then none else some (v, g) | none => none }
  | _, _ => s

/-- Where a saved block's record stands. -/
def State.savedAt (s : State) (L : Launch) (off : Nat) : Nat := ((s.part L.part).poolBase + off) % 2 ^ 72

/-- The quadrants that a block's gangs hold are those of its new core, where no other gang holds them (R42). -/
def State.moveHolds (s : State) (u core : Nat) : State :=
  let mine := s.holders.filter fun h => decide (h.2.2.2.1 = u)
  let rest := s.holders.filter fun h => decide (h.2.2.2.1 ≠ u)
  { s with holders := ((mine.filter fun h => !rest.any fun k => decide (k.1 = h.1 ∧ k.2.1 = core ∧ k.2.2.1 = h.2.2.1)).map fun h =>
      (h.1, core, h.2.2)) ++ rest }

/-- A saved block is restored on a core (R341), or its launch ends when its record cannot be read or does not match. A cluster that
it comes to reads afresh what its threads have stored or read elsewhere (R120, R337). -/
def State.resumeBlock (s : State) (L : Launch) (x : Block × Nat × Nat) (core : Nat) : State :=
  match s.virtRead L.part (s.savedAt L x.2.1) x.2.2 ⟨true, false, false⟩ with
  | (s, .error .away) => s
  | (s, .error (.at a y)) => s.poolStop L.part L.id x.1 0 a y
  | (s, .ok bs) =>
    if recordMismatch (s.part L.part).engine bs then s.endLaunch L.id 6
    else
      let s := s.modLaunch L.id fun L => { L with saved := L.saved.filter fun y => decide (y.1.uid ≠ x.1.uid) }
      let s := if clusterOf core = clusterOf x.1.core then s else s.acquireCluster (clusterOf core)
      ({ s with blocks := s.blocks ++ [x.1.restore bs core s.nextId], nextId := s.nextId + 1 } : State).moveHolds x.1.uid core

end Sys2Proof.Machine
end

