-- ==== Sys2Proof/Machine/Fetch.lean ====
section
/-! DEFINITION. Fetching the next prefix group of the gang in issue (R24, R169, R182, R346-R350, R372), and a word that
is not an instruction (R166, R167). -/

namespace Sys2Proof.Machine

/-- What reading one instruction word gives. -/
inductive WordRead where
  | word (w : Word)
  | place (x : Place)
  | poisoned (pa key : Nat)
  | remote (pa key : Nat)
  deriving DecidableEq, Repr

/-- The instruction word at a virtual address, read for a quadrant of a partition. Instruction fetch reads the coherent image
(log 15). -/
def State.readWord (s : State) (w : TUnit) (p va : Nat) : WordRead :=
  match s.place w p va ⟨false, false, true⟩ with
  | .ok pa key =>
    if s.local pa then
      if s.poisoned key pa 4 then .poisoned (s.poisonAt key pa 4) key else .word (BitVec.ofNat 32 (ofBytes (s.bytesAt key pa 4)))
    else
      let r := s.remoteLine (lineOf pa) key
      if r.valid.getLsbD (pa % 128) && r.valid.getLsbD (pa % 128 + 3) then
        .word (r.data.extractLsb' (8 * (pa % 128)) 32)
      else .remote pa key
  | x => .place x

/-- The virtual address of a PC of a launch (R24). -/
def Launch.codeVa (L : Launch) (pc : Word) : Nat := (L.r.codeBase.toNat + pc.toNat) % 2 ^ 72

/-- Reading the group at pc: words are read until they make a group; the words so far, and what stopped the reading. -/
def State.readGroup (s : State) (w : TUnit) (L : Launch) (pc : Word) : Nat → List Word → Except (List Word × WordRead) DecRes
  | 0, ws => .ok (decodeWords ws)
  | fuel + 1, ws =>
    match s.readWord w L.part (L.codeVa (pc + BitVec.ofNat 32 (4 * ws.length))) with
    | .word x =>
      match decodeWords (ws ++ [x]) with
      | .more => s.readGroup w L pc fuel (ws ++ [x])
      | r => .ok r
    | x => .error (ws, x)

/-- The words of a group that has been read. -/
def decLength : DecRes → Nat
  | .ok _ n => n
  | .illegal _ _ _ n _ => n
  | .pfxEnd _ n => n
  | .more => 0

/-- A fetch that parks until FRESUME or until another device answers (R350, R410). -/
def State.parkFetch (s : State) (u g va kind part : Nat) : State :=
  { s.modGang u g fun G => { G with parked := some { kind := kind, part := part, va := BitVec.ofNat 72 va } } with cur := none }

/-- A fault record's source for an instruction fetch (R350). -/
def fetchSource (c : Ctx) : FaultSrc :=
  { source := 3, access := 3, lin := c.B.lin, gang := c.g, lane := lowest c.members, queue := 0 }

/-- A fetch reads its homes (R370, R372): the entries of the lines that a group may lie in are touched first. -/
def State.touchCode (s : State) (w : TUnit) (L : Launch) (pc : Word) : State :=
  [pc, pc + 92].foldl (fun s a => match s.place w L.part (L.codeVa a) ⟨false, false, true⟩ with
    | .ok pa key => s.touch (lineOf pa) key
    | _ => s) s

/-- A fetch that ends in a cause: delivered on every member, with the group as far as it was read (R182, R347, R372). -/
def State.fetchTrap (s : State) (n cause : Nat) (addr : Dword) (code va : Nat) : State :=
  s.faultGroup n none fun c s =>
    trapAll cause addr (BitVec.ofNat 64 (code * 2 ^ 40 + va / 2 ^ 64 * 2 ^ 32 + c.members.toNat)) s

/-- A fetch from another device's page sends a read for its line and waits, or has failed (R353, R410). -/
def State.fetchRemote (s : State) (c : Ctx) (n pa key va : Nat) (at_ : Word) : State :=
  let line := lineOf pa * 128
  if c.G.failedAt = some line then (s.unpark c.u c.g).fetchTrap n 0x06 (at_.setWidth 64) 6 va
  else { (s.askLines c.u c.g [(lineOf pa, key)]).modGang c.u c.g fun G =>
    { G with parked := some { kind := 3, part := c.L.part, va := BitVec.ofNat 72 line } } with cur := none }

/-- The next group of the gang in issue: a decoded group with the state after its fetch, or the state that a fetch
without a group leaves. -/
def State.fetch (s : State) : Except State (State × DecRes) :=
  match s.focus with
  | none => .error { s with cur := none }
  | some (u, g, S) =>
    match s.ctx u g (Hdr.plain false) 1 7 with
    | none => .error { s with cur := none }
    | some c =>
      if c.G.isParked || c.G.held || (c.G.chunk.isSome && !c.G.mau.isEmpty) then .error { s with cur := none }
      else
        let w := c.unit
        let s := s.touchCode w c.L S.pc
        match s.readGroup w c.L S.pc 24 [] with
        | .ok r =>
          .ok ((List.range (max 1 (decLength r))).foldl (fun s k =>
            s.cacheTrans w c.L.part (c.L.codeVa (S.pc + BitVec.ofNat 32 (4 * k)))) s, r)
        | .error (ws, x) =>
          let at_ := S.pc + BitVec.ofNat 32 (4 * ws.length)
          let va := c.L.codeVa at_
          let n := ws.length + 1
          match x with
          | .place (.fault l e v) => .error ((s.faultRecord c.L.part va l e v 1 (fetchSource c)).parkFetch u g va 0 c.L.part)
          | .place (.perm reason) =>
            .error ((if reason = 4 then s.recordWalk w c.L.part va (fetchSource c) else s).fetchTrap n 0x06 (at_.setWidth 64) reason va)
          | .poisoned pa key =>
            .error (s.fetchTrap n 0x13 (BitVec.ofNat 64 (va + (pa % 4))) (s.poisonSrc (lineOf pa) key).toNat va)
          | .remote pa key => .error (s.fetchRemote c n pa key va at_)
          | _ => .error { s with cur := none }

/-- A group with a prefix that has E = 1: Run-Structure, unless the group is no instruction at its issue (R33, R34). -/
def State.prefixEnd (s : State) (i : Instr) (n : Nat) : State :=
  s.faultGroup n (some i) fun c s => match i.illegalHere c with
    | some r => illegalTrap r (mainWord i) c.pos (c.n - 1) s
    | none => trapOpen 0x02 s

/-- WORD_NOT_AN_INSTRUCTION (R166, R167): Illegal-Instruction on every member, for the word at index idx of a group of len
words; without a sheaf in issue there is nothing to issue it, and nothing changes. -/
def execWordNotAnInstruction (reason : BitVec 8) (word : BitVec 32) (idx len : Nat) (s : State) :
    Host.Outcome State Fault Refusal :=
  .next (s.faultGroup (max 1 len) none fun c s => illegalTrap reason.toNat word c.pos idx s)

/-- A group whose words show a reason: the instruction that its main word names may have a lower one at its issue (R167). -/
def State.illegalGroup (s : State) (reason : Nat) (word : Word) (idx n : Nat) (i : Option Instr) : State :=
  s.faultGroup n i fun c s => match i.bind fun i => (i.illegalHere c).map fun r => (r, mainWord i) with
    | some (r, w) => if r < reason then illegalTrap r w c.pos (c.n - 1) s else illegalTrap reason word c.pos idx s
    | none => illegalTrap reason word c.pos idx s

end Sys2Proof.Machine
end

