-- ==== Sys2Proof/Machine/Scheduling.lean ====
section
/-! DEFINITION. Sheaf formation and the quadrants' choices (R26-R30, R42-R44), register responses (R210), draining (R73),
Block-Stall (R39), register growth and eviction (R70-R72). -/

namespace Sys2Proof
open Machine

/-! ### Why an instruction is not ready -/

/-- What the engines' room and tokens leave to a copy or an mma (R116, R269, R321): the lanes' jobs, the register, the jobs of the
kind on the core and their limit. -/
def Instr.jobStall (i : Instr) (s : State) (c : Ctx) : Bool :=
  let full (check : Block → Nat → Nat → JobCheck) (card : BitVec 6) (kind : Job → Bool) (limit : Nat) : Bool :=
    decide (c.act ≠ 0) &&
      let r := checkJobs check c.B (cardOffsets c card)
      r.2.2.isNone && decide (limit < ((s.coreJobs c.B.core).filter kind).length + r.1.length)
  match i with
  | .copy _ _ k t => decide (t.toNat ∈ c.G.tokens) || full (fun b => checkCopy c k b t) k Job.isCopy 64
  | .mma _ _ k t a b z x => decide (t.toNat ∈ c.G.tokens) || full (checkMma a b (z = 1) (x = 1) k t c) k Job.isMma 32
  | _ => false

/-- The guard of a copy or an mma. -/
def Instr.jobGuard : Instr → BitVec 3
  | .copy _ g _ _ => g
  | .mma _ g _ _ _ _ _ _ => g
  | _ => 7

/-- The token that a copy or an mma takes. -/
def Instr.jobToken : Instr → Option Nat
  | .copy _ _ _ t => some t.toNat
  | .mma _ _ _ t _ _ _ _ => some t.toNat
  | _ => none

/-- Why an instruction is not ready at its issue, by the codes of R322; 12 is none of them (log 20). A pending token that a copy
or an mma would take itself is its own stall. -/
def Instr.waitCodes (i : Instr) (s : State) (c : Ctx) : List Nat :=
  let vs := i.vsrcs ++ i.vdsts ++ (i.slotRegs c.L.r.slots).1 ++ (i.slotRegs c.L.r.slots).2
  let lands (far : Bool) : Bool := c.G.resp.any fun r => (r.far == far) && r.writes.any fun w =>
    c.members.getLsbD w.1 && decide (w.2.1 ∈ vs)
  let mau := c.G.mau.any fun m => match m.dest with
    | some d => c.members.getLsbD m.lane && (decide (d ∈ vs) || (m.w64 && decide (d + 1 ∈ vs)))
    | none => false
  let job := i.jobStall s { c with act := c.run &&& c.G.guardMask i.jobGuard }
  (if lands true || mau || i.awaits c.G then [2] else [])
    ++ (if lands false then [3] else [])
    ++ (if i.objectPending c.G || i.sregs.any fun r => decide (r ∈ c.G.tokens ∧ i.jobToken ≠ some r) then [4] else [])
    ++ (if job then [9] else [])
    ++ (if vs.any (fun r => decide (r ∈ c.G.accRegs)) || c.B.accBusy c.g then [12] else [])

end Sys2Proof

namespace Sys2Proof.Machine

/-! ### Issue rounds -/

/-- The sheaf that R27 forms, with its PC. -/
def Gang.pick (G : Gang) (det : Bool) : BitVec 32 × Word :=
  let e := lanesOf G.eligible
  let fresh := e.filter fun l => !(G.lane l).ymark
  let c := if det || fresh.isEmpty then e else fresh
  let most := (c.map fun l => (G.lane l).waitCount).foldl max 0
  let pc : Nat := if 32 ≤ most then
      ((c.find? fun l => decide ((G.lane l).waitCount = most)).map fun l => (G.lane l).pc.toNat).getD 0
    else (c.map fun l => (G.lane l).pc.toNat).foldl min (2 ^ 32 - 1)
  (maskOf fun l => decide (l ∈ c) && decide ((G.lane l).pc.toNat = pc), BitVec.ofNat 32 pc)

/-- An issue round (R27): the new sheaf, the wait counts and the yield marks. -/
def Gang.form (G : Gang) (det : Bool) : Gang :=
  let x := G.pick det
  { G.modLanes G.eligible fun l t =>
      { t with waitCount := if x.1.getLsbD l then 0 else t.waitCount + 1, ymark := false,
               ranSinceTret := t.ranSinceTret || x.1.getLsbD l } with
    sheaf := some { members := x.1, out := 0, pc := x.2, pos := 0, fp := none, commit := none,
                    fresh := maskOf fun l => x.1.getLsbD l && !(G.lane l).ranSinceTret } }

/-- The causes of asynchronous engine events (R329). -/
def asyncCause (c : Nat) : Bool := decide (c = 0x06 ∨ c = 0x10 ∨ c = 0x13 ∨ c = 0x17)

/-- The logged chunk of a gang that waits for an engine event which the log puts here: it holds back no job of the gang, since
the event comes from such a job (R395, R427; log 33). -/
def State.eventChunk (s : State) (u g : Nat) : Option Nat :=
  match s.loggedTrap u g with
  | some cause => if asyncCause cause then (s.replayChunk u g).map (·.1) else none
  | none => none

/-- A held job whose clock waits for something that is itself held behind its gang's chunk. -/
def State.jobBehind (s : State) (u : Nat) (j : Job) : Bool :=
  match s.replayOf u, s.jobClock u j, s.replayChunk u j.gang with
  | some P, some C, some (own, x) => (List.range P.rpLog.length).any fun i =>
      decide (i ≠ own) && P.holdsBack C i && !P.holdsBack (x.clock + 1) i
  | _, _, _ => false

/-- In replay, an engine event that the log puts here is still to come from a job or from the queue (R395). -/
def State.awaitsEvent (s : State) (u g : Nat) : Bool :=
  match s.loggedTrap u g, s.block? u, s.gang? u g with
  | some cause, some b, some G => asyncCause cause &&
      (G.events.any (fun e => decide (e.cause = cause) && !(G.lane e.lane).handler)
        || b.jobs.any fun j => decide (j.gang = g) && !j.isAcc && !j.frozen
          && !(j.held && (decide (j.step = 0) || decide (j.watchPos = some j.pos)) && s.jobBehind u j))
  | _, _, _ => false

/-- In replay, a gang that has executed its chunk's logged words has completed the chunk, even where its threads wait
(R392). -/
def State.noteChunk (s : State) (u g : Nat) : State :=
  match s.replayChunk u g, s.launchOf u with
  | some (i, _), some L => if s.chunkDue u g then s.logDone L.part (i, false) else s
  | _, _ => s

/-- A deterministic launch's quadrant is held by a gang (R42): an eviction or a pre-emption is no switch point, so an evicted gang
and a gang of a saved block keep it (log 18). -/
def State.heldBy (s : State) (a core quad : Nat) : Option (Nat × Nat) :=
  match s.holder a core quad with
  | some x => match s.gang? x.1 x.2 with
    | some G => if G.live = 0 then (s.runnables a core quad).head? else some x
    | none => some x
  | none => (s.runnables a core quad).head?

/-- The gang may issue by the rule of its launch (R30, R42, R44). -/
def State.mayIssue (s : State) (u g : Nat) : Bool :=
  match s.block? u, s.launchOf u, s.gang? u g with
  | some b, some L, some G =>
    if L.r.det then decide (s.heldBy L.id b.core (g % 4) = some (u, g)) && decide (G.runs < 65536) else true
  | _, _, _ => false

/-- Whether replay lets a gang take an event of a cause now: it is the next logged trap here, or it is not logged at all and
diverges (R395, R396). -/
def State.replayTakes (s : State) (u g cause : Nat) : Bool :=
  match s.replayOf u, s.block? u, s.launchOf u, (s.gang? u g).bind (·.chunk) with
  | some P, some b, some L, some c =>
    if s.loggedTrap u g = some cause then true
    else !P.rpLog.any fun r => match r with
      | .chunk ln bl ga cs _ _ _ _ traps _ _ =>
        decide (ln = L.number.getD 0 ∧ bl = b.lin ∧ ga = g ∧ c.cseq ≤ cs)
          && (if cs = c.cseq then traps.drop c.traps.length else traps).any fun t => decide (t.2 = cause)
      | _ => false
  | _, _, _, _ => true

/-- The queued event of a lane that R330 and R331 let it take now. -/
def Gang.deliverable (G : Gang) (l : Nat) : Option EngEvent :=
  let t := G.lane l
  let boundary := t.inJwait || t.inBar || (t.eligible && (match G.sheaf with | some S => !S.members.getLsbD l | none => true))
  if G.evicted || G.grow.isSome || t.handler || !t.live || !boundary || (t.eligible && !t.ranSinceTret) then none
  else G.events.find? fun e => decide (e.lane = l)

/-- A thread of a gang takes a queued event at the boundary where the gang stands (R329, R330). -/
def State.deliversTo (s : State) (u g : Nat) (G : Gang) (l : Nat) : Bool :=
  match G.deliverable l with
  | some e => s.replayTakes u g e.cause
  | none => false

/-- A gang's next round is possible: it goes on with an open run, or it forms a sheaf, which a stop of its block keeps it
from (R335), and a queued event of a thread goes before (R329). -/
def State.canIssue (s : State) (u g : Nat) : Bool :=
  match s.block? u, s.launchOf u, s.gang? u g with
  | some b, some L, some G =>
    !G.evicted && G.grow.isNone && !G.isParked && !G.held && !G.cut && s.mayIssue u g
      && !(G.chunk.isSome && !G.mau.isEmpty)
      && match G.sheaf with
        | some S => S.commit.isNone
        | none => decide (G.eligible ≠ 0) && b.stop.isNone && decide (L.status = 0) && !s.awaitsEvent u g
            && !(List.range 32).any fun l => s.deliversTo u g G l
  | _, _, _ => false

/-- The state with a gang's next sheaf formed, where it has none and may form one (R26, R27). -/
def State.formed (s : State) (u g : Nat) : State :=
  match s.launchOf u with
  | some L => s.modGang u g fun G => if G.sheaf.isSome then G else G.form L.r.det
  | none => s

/-- Why a gang that may issue has no instruction ready, by the codes of R322: its current sheaf's, or that of the sheaf that it
would form. A group that is no instruction waits for nothing but its fetch. -/
def State.waitCodes (s : State) (u g : Nat) : List Nat :=
  let s1 := { s.formed u g with cur := some (u, g) }
  match s1.fetch with
  | .ok (_, .ok i n) => match s1.ctx u g (Hdr.plain false) n 7 with
    | some c => i.waitCodes s1 { c with h := i.hdr.getD c.h }
    | none => []
  | _ => []

/-- The gang's current sheaf has its next instruction ready (R30, R322). -/
def State.gangReady (s : State) (u g : Nat) : Bool := s.canIssue u g && (s.waitCodes u g).isEmpty

/-- The gangs of a core's quadrant, the one that has gone longest without issuing first; a gang that has yielded since another
issued comes last (R30, R43). -/
def State.turns (s : State) (core quad : Nat) : List (Nat × Nat) :=
  let gs := (s.blocks.filter fun b => decide (b.core = core)).flatMap fun b =>
    (b.gangs.filter fun G => decide (G.idx % 4 = quad)).map fun G => ((G.lastIssue * 2 ^ 8 + G.idx) * 2 ^ 64 + b.stamp, b.uid, G)
  let xs := sortedBy gs
  ((xs.filter fun x => !x.2.2.ymark) ++ xs.filter fun x => x.2.2.ymark).map fun x => (x.2.1, x.2.2.idx)

/-- The gang from which a quadrant issues its next instruction (R30). -/
def State.chosen (s : State) (core quad : Nat) : Option (Nat × Nat) :=
  (s.turns core quad).find? fun x => s.gangReady x.1 x.2

/-- The gang issues its next instruction (R30): the yield marks of the quadrant's others clear (R43), and in deterministic mode it
holds the quadrant (R42). -/
def State.issueFrom (s : State) (L : Launch) (core u g : Nat) : State :=
  let s := if L.r.det then s.setHolder L.id core (g % 4) (some (u, g)) else s
  let s : State := { s with blocks := s.blocks.map fun x =>
    if x.core = core then
      { x with gangs := x.gangs.map fun G => if G.idx % 4 = g % 4 ∧ ¬ (x.uid = u ∧ G.idx = g) then { G with ymark := false } else G }
    else x }
  { s.modGang u g fun G => { G with lastIssue := s.tick } with cur := some (u, g) }

/-- ISSUE_ROUND (R26, R27, R30): a gang that stands at a run boundary forms its sheaf, and the quadrant issues from the gang if it is
the one whose turn it is. -/
def execIssueRound (u g : Nat) (s : State) : Host.Outcome State Fault Refusal :=
  if !s.canIssue u g then .next s
  else match s.block? u, s.launchOf u with
    | some b, some L =>
      let s := s.formed u g
      .next (if s.chosen b.core (g % 4) = some (u, g) then s.issueFrom L b.core u g else s)
    | _, _ => .next s

/-- FORCED_SWITCH (R44): after 65,536 runs without a switch point, as if the last had ended with yield. -/
def execForcedSwitch (u g : Nat) (s : State) : Host.Outcome State Fault Refusal :=
  match s.block? u, s.launchOf u, s.gang? u g with
  | some b, some L, some G =>
    if L.r.det ∧ 65536 ≤ G.runs ∧ G.sheaf.isNone ∧ s.heldBy L.id b.core (g % 4) = some (u, g) then .next (s.passHolder u g true)
    else .next s
  | _, _, _ => .next s

/-! ### Responses, drains, Block-Stall -/

/-- Register writes land (R29, R73): also for threads that have exited. -/
def Gang.land (G : Gang) (ws : List (Nat × Nat × Word)) : Gang :=
  ws.foldl (fun G w => G.modLane w.1 fun t => t.setReg w.2.1 w.2.2) G

/-- LOAD_RESPONSE (R210). -/
def execLoadResponse (u g k : Nat) (s : State) : Host.Outcome State Fault Refusal :=
  match (s.gang? u g).bind fun G => G.resp[k]? with
  | some r => .next (s.modGang u g fun G => { G.land r.writes with resp := G.resp.take k ++ G.resp.drop (k + 1) })
  | none => .next s

/-- GANG_DRAIN (R73, R22). -/
def execGangDrain (u g : Nat) (s : State) : Host.Outcome State Fault Refusal :=
  match s.gang? u g with
  | some G =>
    if G.live = 0 ∧ G.settled ∧ ¬ G.drained then .next ((s.modGang u g fun G => { G with drained := true }).checkBlock u)
    else .next s
  | none => .next s

/-- A gang whose live threads all wait in jwait or on a barrier (R39). -/
def Gang.allWait (G : Gang) : Bool := (lanesOf G.live).all fun l => (G.lane l).inJwait || (G.lane l).inBar

/-- The conditions of Block-Stall (R39, R40): a queued event that can be delivered comes first. -/
def Block.stalled (b : Block) : Bool :=
  b.jobs.isEmpty && b.gangs.any (fun G => decide (G.live ≠ 0))
    && b.gangs.all fun G => G.allWait && G.grow.isNone && G.resp.isEmpty && G.mau.isEmpty && G.tokens.isEmpty
        && (List.range 32).all fun l => (G.deliverable l).isNone

/-- The report of a stalled block (R39, R315). -/
def Block.stallRec (b : Block) : StallRec :=
  { lin := b.lin, masks := b.gangs.map fun G => G.live,
    waits := b.gangs.map fun (G : Gang) => (List.range 32).map fun l => if (G.lane l).live then (G.lane l).waitPc else 0 }

/-- The fault fields of a Block-Stall (R315). -/
def Block.stallFault (b : Block) : FaultRec :=
  let g := ((b.gangs.find? fun G => decide (G.live ≠ 0)).map (·.idx)).getD 0
  let l := ((b.gangs[g]?).map fun G => lowest G.live).getD 0
  { cause := 0x0D, lin := b.lin, gang := g, lane := l,
    tpc := (((b.gangs[g]?).map fun (G : Gang) => (G.lane l).waitPc).getD 0).setWidth 64, taddr := 0, tinfo := 0 }

/-- BLOCK_STALL (R39): the block's threads end, its gangs drain, it completes. -/
def execBlockStall (u : Nat) (s : State) : Host.Outcome State Fault Refusal :=
  match s.block? u with
  | none => .next s
  | some b =>
    if !b.stalled then .next s
    else
      let s := s.modLaunch b.launch fun L => { L with
        stalls := L.stalls + 1, stall := L.stall.orElse fun _ => some b.stallRec,
        fault := L.fault.orElse fun _ => some b.stallFault }
      let s := b.gangs.foldl (fun s G =>
        ((s.modGang u G.idx Gang.terminated).retireGang u G.idx).modGang u G.idx fun G => { G with drained := true }) s
      .next (s.checkBlock u)

/-! ### Register growth and eviction -/

/-- The gangs of a core's quadrant that have not drained: placement order and index, block, gang (R71). -/
def State.residents (s : State) (core quad : Nat) : List (Nat × Nat × Gang) :=
  sortedBy ((s.blocks.filter fun b => decide (b.core = core)).flatMap fun b =>
    (b.gangs.filter fun G => decide (G.idx % 4 = quad) && !G.drained).map fun G => (b.stamp * 64 + G.idx, b.uid, G))

/-- The quadrant's order (R71): by placement, with the gangs of each deterministic launch in (virtual core, gang) order
among the positions that they hold. -/
def State.quadOrder (s : State) (core quad : Nat) : List (Nat × Gang) :=
  let base := s.residents core quad
  let launch (u : Nat) : Nat := ((s.block? u).map (·.launch)).getD 0
  base.mapIdx fun i x =>
    match s.launchOf x.2.1 with
    | some L =>
      if L.r.det then
        let own := (s.order L.id core quad).filterMap fun y => match s.gang? y.1 y.2 with
          | some G => if G.drained then none else some (y.1, G)
          | none => none
        own.getD ((base.take i).filter fun y => decide (launch y.2.1 = L.id)).length x.2
      else x.2
    | none => x.2

/-- Granules of a gang's registers (R71). -/
def Gang.granules (G : Gang) : Nat := if G.evicted then 0 else G.vb / 8

/-- Free granules of a quadrant. -/
def State.freeGranules (s : State) (core quad : Nat) : Nat :=
  192 - ((s.residents core quad).map fun x => x.2.2.granules).sum

/-- The granules that a waiting or evicted gang asks for. -/
def Gang.asks (G : Gang) : Nat := max ((G.grow.map (·.1)).getD 0) G.vb / 8 - G.granules

/-- A gang gets its registers (R70, R72): one that was evicted gets those of its save area (R75), added ones read zero, and the
threads that wait in reggrow go on. -/
def Gang.granted (G : Gang) : Gang :=
  let n := max ((G.grow.map (·.1)).getD 0) G.vb
  let back := !G.area.isEmpty
  { G.modLanes (BitVec.allOnes 32) fun l t =>
      let t := if back then t.loadRegs G.area l else t
      let t := (List.range (n - G.vb)).foldl (fun t i => t.setReg (G.vb - 8 + i) 0) t
      if t.st = .blocked .reggrow then { t with st := .eligible } else t with
    vb := n, grow := none, evicted := false, area := [], s := if back then savedScalars G.area else G.s }

/-- Grants and returns strictly in the quadrant's order (R71). -/
def State.grantFrom (s : State) (core quad : Nat) : List (Nat × Gang) → State
  | [] => s
  | (u, G) :: t =>
    if G.grow.isNone ∧ ¬ G.evicted then s.grantFrom core quad t
    else if s.freeGranules core quad < G.asks then s
    else (s.modGang u G.idx Gang.granted).grantFrom core quad t

/-- The first gang of a quadrant that waits in reggrow, which is the one that eviction serves (R72). -/
def State.firstWaiter (s : State) (core quad : Nat) : Option (Nat × Gang) :=
  (s.quadOrder core quad).find? fun x => x.2.grow.isSome

/-- The first waiter has waited 1,048,576 cycles (R72). -/
def State.waitedLong (s : State) (core quad : Nat) : Bool :=
  match s.firstWaiter core quad with
  | some (_, G) => match G.grow with | some (_, t) => decide (t + 1048576 ≤ s.time) | none => false
  | none => false

/-- Every gang that holds registers waits (R72). -/
def State.allHoldersWait (s : State) (core quad : Nat) : Bool :=
  (s.quadOrder core quad).all fun x => x.2.evicted || x.2.grow.isSome || x.2.allWait

/-- The quadrant evicts for its first waiter (R72): every holder waits, or the first waiter has waited long. -/
def State.evicting (s : State) (core quad : Nat) : Bool :=
  (s.firstWaiter core quad).isSome && (s.allHoldersWait core quad || s.waitedLong core quad)

/-- Every grant and return that a quadrant can make (R71). While it evicts for waiters it serves them alone, so that no evicted gang
takes what it gave up (R72 steps 4 and 5). -/
def State.grants (s : State) (core quad : Nat) : State :=
  let all := s.quadOrder core quad
  s.grantFrom core quad (if s.evicting core quad then all.filter fun x => x.2.grow.isSome else all)

/-- REGGROW_GRANT (R71). -/
def execReggrowGrant (core quad : Nat) (s : State) : Host.Outcome State Fault Refusal := .next (s.grants core quad)

/-- The gang that gives way: the last in the order that holds registers, other than the waiter that is served (R72). -/
def State.victim (s : State) (core quad : Nat) : Option (Nat × Gang) :=
  match s.firstWaiter core quad with
  | none => none
  | some w => ((s.quadOrder core quad).filter fun x => !x.2.evicted && !decide (x.1 = w.1 ∧ x.2.idx = w.2.idx)).getLast?

/-- The gang stands at a run boundary with no write to its registers under way (R72). -/
def Gang.evictable (G : Gang) : Bool := G.sheaf.isNone && G.settled && G.away.isEmpty && !G.isParked

/-- One eviction, where the first waiter cannot be granted without it, and the grants that follow: the gang's context is written to
its save area (R75), which has no address (log 14). DESIGN CHOICE (log 50): an atomic region that a thread of the gang has open
stays open. -/
def State.evict (s : State) (core quad : Nat) : State :=
  let s1 := s.grants core quad
  if !s1.evicting core quad then s1
  else match s1.victim core quad with
    | some (u, G) =>
      if G.evictable then (s1.modGang u G.idx fun G => { G with evicted := true, area := G.saveArea }).grants core quad else s1
    | none => s1

/-- EVICTION (R72): every holder waits, or the first waiter has waited long. -/
def execEviction (core quad : Nat) (s : State) : Host.Outcome State Fault Refusal :=
  if s.evicting core quad then .next (s.evict core quad) else .next s

/-- WAITER_TIMEOUT (R72). -/
def execWaiterTimeout (core quad : Nat) (s : State) : Host.Outcome State Fault Refusal :=
  if s.waitedLong core quad then .next (s.evict core quad) else .next s

end Sys2Proof.Machine
end

