-- ==== Sys2Proof/Machine/Start.lean ====
section
/-! DEFINITION. What a block, a gang and a thread hold when they start (R24, R69, R105, R268). -/

namespace Sys2Proof.Machine

/-- A thread as its gang starts (R24, R69): lane l, with its virtual core's SEQ (R8). -/
def Lane.start (L : Launch) (l seq : Nat) : Lane :=
  { Lane.blank with
    st := .eligible, pc := L.r.entry, seq := seq,
    v := vset (Vector.replicate 112 0) 104 (BitVec.ofNat 32 ((l + 1) * L.r.stackStride)) }

/-- The SEQ that a lane of a virtual core has reached (R8). -/
def Launch.seqOf (L : Launch) (vc g l : Nat) : Nat :=
  ((L.seqs.find? fun e => decide (e.1 = (vc * 32 + g) * 32 + l)).map (·.2)).getD 0

/-- A gang as it starts (R24, R69, R23). -/
def Gang.start (L : Launch) (lin g : Nat) (chunk : Option ChunkState) : Gang :=
  let role := L.r.roles.getD g 0
  let bud := L.r.budgets.getD role (0, 0)
  { idx := g, role := role, vb := bud.1, sb := bud.2,
    lanes := Vector.ofFn fun l => Lane.start L l.val (if L.r.det then L.seqOf (vcoreOf lin) g l.val else 0),
    s := vset (Vector.replicate 64 0) 1
      (L.r.stackBase + BitVec.ofNat 72 ((lin * L.r.gangs + g) * 32 * L.r.stackStride)),
    jm := Vector.replicate 16 0, ja := Vector.replicate 16 0, fpstat := 0, spfault := 0, sheaf := none, grow := none,
    evicted := false, drained := false, parked := none, resp := [], mau := [], away := [], tokens := [], accRegs := [], events := [],
    lastIssue := 0, runs := 0, ymark := false, chunk := chunk, held := false, cut := false, checked := [] }

/-- A block as it starts on a core: every buffer empty (R105), every tile zero (R268); its scratchpad reads zero where
nothing has written it (log 2). -/
def Block.start (L : Launch) (uid lin recNo core stamp : Nat) (chunk : Option ChunkState) : Block :=
  { uid := uid, launch := L.id, lin := lin, recNo := recNo, core := core, stamp := stamp,
    gangs := (List.range L.r.gangs).map fun g => Gang.start L lin g chunk, spad := [], bufs := Vector.replicate 16 0,
    acc := [], ovf := 0, jobs := [], nextJob := 0, clocks := [], baseClock := 0, stop := none }

/-- A launch as it is dispatched (R313). -/
def Launch.start (id part queue packet prio order time : Nat) (signal : Wide) (sigadd : Dword) (r : LaunchRec) : Launch :=
  { id := id, part := part, queue := queue, packet := packet, prio := prio, order := order, dispatched := time,
    signal := signal, sigadd := sigadd, r := r, next := 0, done := 0, saved := [], status := 0, reject := none,
    fault := none, deadlock := none, stalls := 0, stall := none, spfaults := [], spcount := 0, detLine := 0, detLost := 0,
    inflight := [], held := [], drains := 0, seqs := [], vcBusy := [], positions := [], number := none, lbase := 0,
    traceNext := 0, traceLost := 0, traceSusp := 0, traceSuspended := false, traceEnded := false, recordWritten := false,
    parked := false, traceQuads := [] }

end Sys2Proof.Machine
end

