-- ==== Sys2Proof/Machine/Placement.lean ====
section
/-! DEFINITION. Placing blocks on cores (R20, R317-R320, R341), pre-emption (R320, R335, R336), and the delivery of engine
events (R325, R329-R331). -/

namespace Sys2Proof.Machine

/-! ### Where a block fits -/

/-- Gangs of a launch's block on a quadrant, and the vector granules that they ask for (R20, R21). -/
def LaunchRec.quadNeed (r : LaunchRec) (q : Nat) : Nat × Nat :=
  let gs := (List.range r.gangs).filter fun g => decide (g % 4 = q)
  (gs.length, (gs.map fun g => (r.budgets.getD (r.roles.getD g 0) (0, 0)).1 / 8).sum)

/-- The same for a saved block: its gangs that have not drained, with their present budgets. -/
def Block.quadNeed (b : Block) (q : Nat) : Nat × Nat :=
  let gs := b.gangs.filter fun G => decide (G.idx % 4 = q) && !G.drained
  (gs.length, (gs.map fun G => G.vb / 8).sum)

/-- What a block asks of a core: scratchpad, tiles, and slots and granules of each quadrant (R20). -/
structure Need where
  scratch : Nat
  tiles : Nat
  quads : Nat → Nat × Nat

/-- A core has room for a need beside blocks that it holds (R20, R21, R71): no block comes to a quadrant in which a gang
waits for registers. -/
def State.fits (s : State) (blocks : List Block) (core : Nat) (n : Need) : Bool :=
  let here := blocks.filter fun b => decide (b.core = core)
  let use (f : LaunchRec → Nat) : Nat := (here.map fun b => ((s.launch? b.launch).map fun L => f L.r).getD 0).sum
  decide (use (·.scratch) + n.scratch ≤ 786432) && decide (use (·.accn) + n.tiles ≤ 8)
    && (List.range 4).all fun q =>
      let gs := here.flatMap fun b => b.gangs.filter fun G => decide (G.idx % 4 = q) && !G.drained
      let x := n.quads q
      decide (x.1 = 0) || (decide (gs.length + x.1 ≤ 16) && decide ((gs.map Gang.granules).sum + x.2 ≤ 192)
        && !gs.any fun G => G.evicted || G.grow.isSome)

/-- Free gang slots of a core (R318). -/
def freeSlots (blocks : List Block) (core : Nat) : Nat :=
  64 - ((blocks.filter fun b => decide (b.core = core)).map fun b => (b.gangs.filter fun G => !G.drained).length).sum

/-- Blocks of a grid. -/
def LaunchRec.blocks (r : LaunchRec) : Nat := r.gridX * r.gridY * r.gridZ

/-- The next block of a launch to place: a pre-empted one first (R320), else the next of the grid (R317). -/
inductive NextBlock where
  | saved (x : Block × Nat × Nat)
  | fresh (lin : Nat)

/-- The next block of a launch, if it has one that may start (R41). -/
def Launch.nextBlock (L : Launch) : Option NextBlock :=
  match L.saved.head? with
  | some x => some (.saved x)
  | none =>
    if L.r.blocks ≤ L.next ∨ (L.r.det ∧ vcoreOf L.next ∈ L.vcBusy) then none else some (.fresh L.next)

/-- Its linear index and its need. -/
def NextBlock.lin : NextBlock → Nat
  | .saved x => x.1.lin
  | .fresh n => n
def NextBlock.need (L : Launch) : NextBlock → Need
  | .saved x => { scratch := L.r.scratch, tiles := L.r.accn, quads := x.1.quadNeed }
  | .fresh _ => { scratch := L.r.scratch, tiles := L.r.accn, quads := L.r.quadNeed }

/-- The index of the die that the affinity selector prefers (R318). -/
def LaunchRec.dieIndex (r : LaunchRec) (b d : Nat) : Nat :=
  match r.affsel with
  | 0 => b % d
  | 1 => b * r.affmul % 2 ^ 32 / 2 ^ 24 / 64 % d
  | _ => (r.affTable.getD (b % r.affTable.length) 0).toNat / 64 % d

/-- The core of a die with most free slots among those with room, the lowest number among ties (R318). -/
def bestCore (free : Nat → Nat) (cs : List Nat) : Option Nat :=
  cs.foldl (fun (m : Option Nat) c => match m with
    | none => some c
    | some x => if free x < free c then some c else some x) none

/-- The core for a launch's next block beside given blocks, but for cores of a set (R318, R319). -/
def State.coreFor (s : State) (blocks : List Block) (L : Launch) (n : NextBlock) (closed : Nat → Bool) : Option Nat :=
  let room (c : Nat) : Bool := decide (c ∈ s.workingCores L.part) && s.fits blocks c (n.need L) && !closed c
  if L.r.det then
    match L.positions[vcoreOf n.lin % L.positions.length]? with
    | some c => if room c then some c else none
    | none => none
  else
    let dies := diesOf s.code L.part
    let d0 := L.r.dieIndex n.lin dies.length
    (List.range dies.length).findSome? fun i =>
      let die := dies.getD ((d0 + i) % dies.length) 0
      bestCore (freeSlots blocks) (((List.range 64).map (64 * die + ·)).filter room)

/-- A saved block whose record waits on a translation fault waits for system software (R338, R350). -/
def NextBlock.recordWaits : NextBlock → Bool
  | .fresh _ => false
  | .saved x => x.1.parked

/-- The place of a launch's next block beside given blocks, but for the cores of a set. -/
def State.placeBeside (s : State) (blocks : List Block) (L : Launch) (closed : Nat → Bool) : Option Nat :=
  let P := s.part L.part
  let stopping := match P.stopAt with | some K => P.clear K | none => false
  if L.status ≠ 0 ∨ P.rpState = 2 ∨ P.rpState = 3 ∨ stopping = true ∨ s.mgmt.thermal = true then none
  else match L.nextBlock with
    | none => none
    | some n => if n.recordWaits then none else s.coreFor blocks L n closed

/-- A launch whose next block waits for room (R320). -/
def State.waits (s : State) (L : Launch) : Bool :=
  decide (L.status = 0) && (match L.nextBlock with | some n => !n.recordWaits | none => false)
    && (s.placeBeside s.blocks L fun _ => false).isNone

/-- The launches of a partition in the order in which free room is offered to them (R317). -/
def State.offers (s : State) (p : Nat) : List Launch :=
  (sortedBy ((s.launches.filter fun L => decide (L.part = p)).map fun L => ((3 - L.prio) * 2 ^ 64 + L.order, L))).map (·.2)

/-- A core on which blocks are being pre-empted for a launch of a higher priority (R320): the room that comes about there is that
launch's until its block fits (log 40). -/
def State.clearing (s : State) (L : Launch) (core : Nat) : Bool :=
  s.blocks.any (fun b => decide (b.core = core) && b.stop.isSome)
    && s.launches.any fun W => decide (W.part = L.part) && decide (L.prio < W.prio) && s.waits W

/-- The launch that free room goes to first, with the core of its next block (R317). -/
def State.nextPlacement (s : State) (p : Nat) : Option (Nat × Nat) :=
  (s.offers p).findSome? fun L => (s.placeBeside s.blocks L (s.clearing L)).map fun c => (L.id, c)

/-! ### Placing -/

/-- The next record number of a partition: held by no placed or saved block (R376). -/
def State.freeRecNo (s : State) (p : Nat) : Nat :=
  let of (a : Nat) : Bool := match s.launch? a with | some L => decide (L.part = p) | none => false
  let used := ((s.blocks.filter fun b => of b.launch).map (·.recNo))
    ++ (s.launches.filter fun L => decide (L.part = p)).flatMap fun L => L.saved.map fun x => x.1.recNo
  ((List.range (used.length + 1)).find? fun k => !decide (((s.part p).recNext + k) % 2 ^ 20 ∈ used)).getD 0 + (s.part p).recNext

/-- A chunk that has executed nothing. -/
def ChunkState.first (clock : Nat) : ChunkState :=
  { clock := clock, cseq := 0, count := 0, digest := 0, clks := [], traps := [], deps := [], fabric := [], mseq := 0,
    prevClock := clock, sieve := [] }

/-- The first chunks of a recorded block's gangs, each at HWM + 1 (R379), or in replay at their logged clocks, which hold
them (R392). -/
def State.firstChunks (s : State) (u : Nat) (L : Launch) (lin : Nat) : State :=
  if L.number.isNone then s
  else (List.range L.r.gangs).foldl (fun s g =>
    let P := s.part L.part
    if P.replaying then
      match P.logChunk (L.number.getD 0) lin g 0 with
      | some (_, x) => s.modGang u g fun G =>
          { G with chunk := some (ChunkState.first x.clock), held := true }
      | none => s
    else if P.rrEn && decide (clockLimit < P.hwm + 1) then s.endSession L.part true
    else if P.rrEn then
      (s.raiseHwm L.part (P.hwm + 1)).modGang u g fun G => { G with chunk := some (ChunkState.first (P.hwm + 1)) }
    else s) s

/-- A new block starts on a core (R20, R24). -/
def State.startBlock (s : State) (L : Launch) (lin core : Nat) : State :=
  let u := s.nextId
  let no := s.freeRecNo L.part
  let s := { s with blocks := s.blocks ++ [Block.start L u lin (no % 2 ^ 20) core u none], nextId := u + 1 }
  let s := s.modPart L.part fun P => { P with recNext := (no + 1) % 2 ^ 20 }
  let s := s.modLaunch L.id fun L => { L with
    next := lin + 1, vcBusy := if L.r.det then vcoreOf lin :: L.vcBusy else L.vcBusy }
  s.firstChunks u L lin

/-- A quadrant's counters start at zero (R323). -/
def QuadStat.fresh (core quad : Nat) : QuadStat :=
  { core := core, quad := quad, elig := Vector.replicate 17 0, stall := Vector.replicate 48 0 }

/-- A block of a launch comes to a core: the quadrants that hold its gangs are those that trace it (R323). A quadrant that had
no block before has counted idle cycles since reset. -/
def State.noteQuads (s : State) (a core : Nat) : State :=
  match s.launch? a with
  | none => s
  | some L => (List.range (min 4 L.r.gangs)).foldl (fun (s : State) q =>
      let s : State := if s.quads.any (fun x => decide (x.core = core ∧ x.quad = q)) then s
        else
          let z := QuadStat.fresh core q
          { s with quads := s.quads ++ [{ z with
              elig := vset z.elig 0 s.time
              stall := vset z.stall (12 * (Config.idleRole % 4)) s.time }] }
      s.modLaunch a fun L =>
        if L.traceQuads.any (fun x => decide (x.1 = core ∧ x.2.1 = q)) then L
        else { L with traceQuads := L.traceQuads ++ [(core, q, s.time)] }) s

/-- PLACE_BLOCK (R317, R320, R341). -/
def execPlaceBlock (a core : Nat) (s : State) : Host.Outcome State Fault Refusal :=
  match s.launch? a with
  | none => .next s
  | some L =>
    if s.nextPlacement L.part ≠ some (a, core) then .next s
    else match L.nextBlock with
      | some (.fresh lin) => .next ((s.startBlock L lin core).noteQuads a core)
      | some (.saved x) => .next ((s.resumeBlock L x core).noteQuads a core)
      | none => .next s

/-! ### Pre-emption -/

/-- The blocks of launches of lower priority than a launch, in the order in which they give way (R320). -/
def State.candidates (s : State) (W : Launch) : List Block :=
  let key (b : Block) : Option Nat := match s.launch? b.launch with
    | some L => if L.part = W.part ∧ L.prio < W.prio ∧ b.stop.isNone then
        some (((L.prio * 2 ^ 64 + (2 ^ 64 - 1 - L.order)) * 2 ^ 64) + (2 ^ 64 - 1 - b.lin)) else none
    | none => none
  (sortedBy (s.blocks.filterMap fun b => (key b).map fun k => (k, b))).map (·.2)

/-- The contexts of blocks that leave for priority have room together outside the reserve, beside those of blocks that are already
stopping (R338). -/
def State.poolHasRoom (s : State) (p : Nat) (out : List Block) : Bool :=
  let size (b : Block) : Option Nat := match s.launch? b.launch with
    | some L => if L.part = p then some (b.layout L).size else none
    | none => none
  roomFor ((s.part p).poolSize - s.poolReserve p) (((s.blocks.filter fun b => b.stop.isSome) ++ out).filterMap size) (s.poolUsed p)

/-- The blocks that the device pre-empts for priority (R320): as few in order as make the waiting block fit; none in replay
(R392), and none where their contexts would not fit outside the reserve (R338). -/
def State.priorityVictims (s : State) (p : Nat) : List Nat :=
  if (s.part p).replaying then []
  else ((s.offers p).findSome? fun W =>
    if !s.waits W then none
    else
      let cs := s.candidates W
      let gone := s.blocks.filter fun b => !(b.stop.isSome && match s.launch? b.launch with
        | some L => decide (L.part = p) && decide (L.prio < W.prio) | none => false)
      let fit := (List.range (cs.length + 1)).find? fun k =>
        (s.placeBeside (gone.filter fun b => !decide (b.uid ∈ (cs.take k).map (·.uid))) W fun _ => false).isSome
      match fit with
      | some k => if s.poolHasRoom p (cs.take k) then some ((cs.take k).map (·.uid)) else none
      | none => none).getD []

/-- A block leaves for a launch of higher priority that waits, and its context stays outside the reserve (R338). -/
def State.leavesForPriority (s : State) (b : Block) : Bool :=
  match s.launch? b.launch with
  | some L => decide (b.core ∈ s.workingCores L.part) && !(s.part L.part).replaying && decide ((s.part L.part).rpState ≠ 3)
      && s.launches.any fun W => decide (W.part = L.part) && decide (L.prio < W.prio) && s.waits W
  | none => false

/-- PREEMPTION_REQUEST (R335): the blocks are asked to stop, and those that have come to rest are saved. -/
def execPreemptionRequest (us : List Nat) (s : State) : Host.Outcome State Fault Refusal :=
  let s : State := { s with blocks := s.blocks.map fun b =>
    if b.uid ∈ us ∧ b.stop.isNone then { b with stop := some s.time } else b }
  .next (us.foldl (fun s u => match s.block? u with
    | some b => if s.quiet b then s.saveBlock u (s.leavesForPriority b) else s
    | none => s) s)

/-- OPEN_RUN_TIMEOUT (R336): a run that has not ended 560 cycles after the request is saved part-way. -/
def execOpenRunTimeout (u g : Nat) (s : State) : Host.Outcome State Fault Refusal :=
  match s.block? u, s.gang? u g with
  | some b, some G => match b.stop with
    | some t =>
      if t + 560 ≤ s.time ∧ G.sheaf.isSome then
        .next { s.modGang u g fun G => { G with cut := true } with cur := if s.cur = some (u, g) then none else s.cur }
      else .next s
    | none => .next s
  | _, _ => .next s

/-! ### Engine events -/

/-- A wait ends for an event (R331): a jwait's arrival is taken back and its wait runs again, a bar.wait runs again, a
bar.arrwait's wait is restored by tret. The PC at delivery is the resume PC. -/
def Gang.interrupt (G : Gang) (l : Nat) : Gang :=
  match (G.lane l).st with
  | .blocked (.jwait j pc) =>
    (G.setA j (G.a j &&& ~~~ BitVec.twoPow 32 l)).modLane l fun t => { t with st := .eligible, pc := pc }
  | .blocked (.bar off ph pc arr) => G.modLane l fun t =>
    { t with st := .eligible, pc := if arr then t.pc else pc, restored := if arr then some (off, ph, pc) else none }
  | _ => G

/-- ENGINE_EVENT_DELIVERY (R325, R329-R331): a lane at a run boundary takes its oldest queued event. -/
def execEngineEventDelivery (u g l : Nat) (s : State) : Host.Outcome State Fault Refusal :=
  match s.block? u, s.launchOf u, s.gang? u g with
  | some _, some L, some G => match G.deliverable l with
    | none => .next s
    | some e =>
      if !s.replayTakes u g e.cause then .next s
      else
        let s := s.modGang u g fun G => { G with events := G.events.erase e }
        let me : BitVec 32 := BitVec.twoPow 32 l
        let s := s.abortRegions u g me (if e.cause = 0x10 then 0x33 else 0x32) fun _ => if e.cause = 0x10 then (e.tinfo.extractLsb' 45 3).toNat else e.cause
        let s := s.logTrap u g e.cause
        .next (s.modGang u g fun G => (G.interrupt l).modLane l fun t =>
          t.enter L.r.handler e.cause e.tpc e.taddr e.tinfo t.pc)
  | _, _, _ => .next s

end Sys2Proof.Machine
end

