-- ==== Sys2Proof/Machine/MemoryEvents.lean ====
section
/-! DEFINITION. Events of the memory side: write-backs (R124), walks (R344, R348), deterministic updates at their homes and
their drains (R218-R222, R8). -/

namespace Sys2Proof.Machine

/-- L1_WRITE_BACK (R113, R124): a cluster's dirty bytes of a line reach its die's L2; a line without dirty bytes leaves the
L1 (log 19). -/
def execL1WriteBack (cluster line : Nat) (s : State) : Host.Outcome State Fault Refusal :=
  .next ((s.l1.filter fun x => decide (x.cluster = cluster ∧ x.line = line)).foldl (fun s x =>
    if x.dirty ≠ 0 then s.writeBack cluster line x.key else s.modL1 cluster line x.key fun _ => none) s)

/-- TABLE_WALK (R344, R348): a valid translation is kept by the core's second level. An access whose walk faults parks and records itself
when it is made (R350). -/
def execTableWalk (core p : Nat) (va : BitVec 72) (s : State) : Host.Outcome State Fault Refusal :=
  if p < partsOf s.code then .next (s.cacheTrans (.job core) p va.toNat) else .next s

/-! ### Deterministic reductions -/

/-- The order of R8. -/
def DetUpdate.key8 (x : DetUpdate) : Nat := x.issuer * 2 ^ 64 + x.lin

/-- Every update that the homes hold. -/
def State.heldUpdates (s : State) : List DetUpdate := s.launches.flatMap (·.held)

/-- A line's updates in its holding buffer. -/
def State.buffered (s : State) (line key : Nat) : List DetUpdate :=
  s.heldUpdates.filter fun x => !x.chained && decide (lineOf x.pa = line ∧ x.key = key)

/-- Holding buffers in use in a slice (R219). -/
def State.buffersUsed (s : State) (slice : Nat) : Nat :=
  ((s.heldUpdates.filter fun x => !x.chained && decide (sliceOf (lineOf x.pa) = slice)).map fun x => (lineOf x.pa, x.key)).eraseDups.length

/-- A partition's chain has no room (R316). -/
def State.chainFull (s : State) (p : Nat) : Bool :=
  let used := ((s.launches.filter fun L => decide (L.part = p)).flatMap (·.held)).filter (·.chained)
  decide ((s.part p).dcSize.toNat / 2 ^ 16 * 2 ^ 16 / 32 ≤ used.length)

/-- An update joins those that a launch's homes hold. -/
def State.hold (s : State) (a : Nat) (x : DetUpdate) : State := s.modLaunch a fun L => { L with held := L.held ++ [x] }

/-- An update enters the chain, or finds it full (R219, R220). -/
def State.chain (s : State) (L : Launch) (x : DetUpdate) : State :=
  if s.chainFull L.part then s.detStop L.id x else s.hold L.id { x with chained := true }

/-- UPDATE_ARRIVAL (R219): into the line's holding buffer, which keeps its first 16 updates, or into the chain. -/
def execUpdateArrival (a k : Nat) (s : State) : Host.Outcome State Fault Refusal :=
  match s.launch? a with
  | none => .next s
  | some L => match L.inflight[k]? with
    | none => .next s
    | some x =>
      let s := s.modLaunch a fun L => { L with inflight := L.inflight.take k ++ L.inflight.drop (k + 1) }
      let line := lineOf x.pa
      let b := s.buffered line x.key
      if b.isEmpty then
        .next (if s.buffersUsed (sliceOf line) < 64 then s.hold a x else s.chain L x)
      else if b.length < 16 then .next (s.hold a x)
      else
        let last := (b ++ [x]).foldl (fun m y => if m.key8 ≤ y.key8 then y else m) x
        if last = x then .next (s.chain L x)
        else
          let owner := ((s.launches.find? fun (M : Launch) => decide (last ∈ M.held))).getD L
          .next (((s.modLaunch owner.id fun M => { M with held := M.held.erase last }).hold a x).chain owner last)

/-- The threads of a launch's placed and saved blocks. -/
def State.threads (s : State) (L : Launch) : List Lane :=
  ((s.blocks.filter fun b => decide (b.launch = L.id)) ++ L.saved.map (·.1)).flatMap fun b => b.gangs.flatMap fun G => G.lanes.toList

/-- A drain point is reached (R221): every thread of every block has executed that many drain fences or has exited. -/
def State.drainReached (s : State) (L : Launch) (k : Nat) : Bool :=
  decide (L.r.blocks ≤ L.next) && (s.threads L).all fun t => !t.live || decide (k + 1 ≤ t.epoch)

/-- An update is applied by its MAU as one write (R222), and no clean L1 copy of what it changes stays, since the drain comes before
what follows the drain point (R130); on a poisoned piece it is discarded (R372). -/
def State.applyUpdate (s : State) (x : DetUpdate) : State :=
  match s.mauPerform x.f x.w64 x.pa x.key x.operand 0 with
  | (s, none) => s
  | (s, some _) => s.dropL1 (fun _ => true) x.key x.pa (atomicBytes x.w64)

/-- The lines that updates change, with their keys. -/
def State.drainLines (s : State) (xs : List DetUpdate) : List (Nat × Nat) :=
  ((xs.filter fun x => !s.poisoned x.key x.pa (atomicBytes x.w64)).map fun x => (lineOf x.pa, x.key)).eraseDups

/-- The drain of a recorded launch: its stamp, its writes of the lines that it changes, a record from each memory die
(R381, R386). -/
def State.recordDrain (s : State) (L : Launch) (k : Nat) (ls : List (Nat × Nat)) : State :=
  if ls.isEmpty || L.number.isNone then s
  else
    let st := (s.part L.part).hwm + 1
    if clockLimit < st then s.endSession L.part true else
    let s := s.raiseHwm L.part st
    let s := ls.foldl (fun s l => s.modHomeClocks l.1 l.2 fun v =>
      vset v L.part ((vget v L.part Clocks.none).record st drainAgent true)) s
    ((ls.map fun l => sliceOf l.1 / 64).eraseDups).foldl (fun s d =>
      s.logRecord L.part (32 + d) (bytesOf 1 4 ++ vField (L.number.getD 0) ++ vField k ++ vField st)) s

/-- The stamp of a logged drain of a launch's drain point. -/
def LogRec.drainOf (n k : Nat) : LogRec → Option Nat
  | .drain ln dk st => if ln = n ∧ dk = k then some st else none
  | _ => none

/-- The logged drains of a launch's drain point: place and stamp. -/
def Partition.logDrains (P : Partition) (n k : Nat) : List (Nat × Nat) :=
  (List.range P.rpLog.length).filterMap fun i => (P.rpLog[i]?.bind (LogRec.drainOf n k)).map fun st => (i, st)

/-- In replay, a drain waits for its stamp (R392); after a divergence none starts (R396). -/
def State.drainMayStart (s : State) (L : Launch) (k : Nat) : Bool :=
  let P := s.part L.part
  if decide (P.rpState = 3 ∧ 64 ≤ L.queue) then false
  else if P.replaying && L.number.isSome then (P.logDrains (L.number.getD 0) k).all fun x => P.mayStart x.2 else true

/-- Drain point k: the pending updates of epoch k or lower are applied in the order of R8 (R221, R222). Once every thread has
exited every drain point is reached, so the launch's end applies what is left in the order of its epochs. -/
def State.drainPoint (s : State) (L : Launch) (k : Nat) : State :=
  let xs := (sortedBy ((L.held.filter fun x => decide (x.epoch ≤ k)).map fun x => (x.key8, x))).map (·.2)
  let s := xs.foldl (fun s x => s.touch (lineOf x.pa) x.key) s
  let ls := s.drainLines xs
  let replay := (s.part L.part).replaying && L.number.isSome
  let s := xs.foldl State.applyUpdate s
  let s := if replay then ((s.part L.part).logDrains (L.number.getD 0) k).foldl (fun s x => (s.logDone L.part (x.1, false)).raiseHwm L.part x.2) s
    else s.recordDrain L k ls
  s.modLaunch L.id fun L => { L with held := L.held.filter fun x => !decide (x.epoch ≤ k), drains := k }

/-- A launch has pending updates whose drain point is reached, in replay at its stamp. -/
def State.drainDue (s : State) (L : Launch) : Bool :=
  !(L.held.isEmpty && L.inflight.isEmpty) && decide (L.status = 0) && s.drainReached L (L.drains + 1)
    && s.drainMayStart L (L.drains + 1)

/-- The place of an update that has still to arrive for a launch's next drain. -/
def Launch.late (L : Launch) : Option Nat := L.inflight.findIdx? fun x => decide (x.epoch ≤ L.drains + 1)

/-- A launch's next drain can be performed: its drain point is reached and its updates have arrived. -/
def State.drainReady (s : State) (L : Launch) : Bool := s.drainDue L && L.late.isNone

/-- DRAIN (R221, R222): the launch's next drain point. -/
def execDrain (a : Nat) (s : State) : Host.Outcome State Fault Refusal :=
  match s.launch? a with
  | some L => if s.drainReady L then .next (s.drainPoint L (L.drains + 1)) else .next s
  | none => .next s

end Sys2Proof.Machine
end

