-- ==== Sys2Proof/Machine/Observe.lean ====
section
/-! DEFINITION. What the quadrants count (R322) and write into the trace buffers of launches (R323, R399). -/

namespace Sys2Proof.Machine

/-- The reasons for which a gang that is not ready waits (R322), those that apply: a gang whose threads have all exited waits for
what is still on its way to its registers (R73). -/
def State.stallReasons (s : State) (u : Nat) (G : Gang) : List Nat :=
  let can := decide (G.eligible ≠ 0) || G.sheaf.isSome
  let w := if s.canIssue u G.idx then s.waitCodes u G.idx else []
  let dead := decide (G.live = 0)
  let parked (k : Nat) : Bool := G.parked.any fun x => decide (x.kind = k)
  let has (k : Nat) : Bool := decide (k ∈ w)
  (if parked 0 then [1] else [])
    ++ (if parked 1 || has 2 || (G.chunk.isSome && !G.mau.isEmpty) || (dead && (G.resp.any (·.far) || !G.mau.isEmpty)) then [2] else [])
    ++ (if has 3 || (dead && G.resp.any fun r => !r.far) then [3] else [])
    ++ (if has 4 || (dead && !G.tokens.isEmpty) then [4] else [])
    ++ (if G.lanes.toList.any Lane.inBar && !can then [6] else [])
    ++ (if G.lanes.toList.any Lane.inJwait && !can then [7] else [])
    ++ (if G.grow.isSome || G.evicted then [8] else [])
    ++ (if has 9 then [9] else [])
    ++ (if parked 3 then [10] else [])
    ++ (if G.held || (can && !s.mayIssue u G.idx) then [11] else [])

/-- What a quadrant counts in one cycle: the number of ready gangs, and without one the role and the lowest reason of its
oldest gang. In a cycle in which an arithmetic result is not there yet no gang is ready, and a gang that would be is charged to that
latency (R322, log 20). -/
def State.quadCount (s : State) (core quad : Nat) (late : Bool) : Nat × Option (Nat × Nat) :=
  let gs := s.quadOrder core quad
  let e := (gs.filter fun x => s.gangReady x.1 x.2.idx).length
  if e ≠ 0 ∧ ¬ late then (e, none)
  else match gs with
    | [] => (0, some (Config.idleRole % 4, 0))
    | (u, G) :: _ =>
      let why := if s.gangReady u G.idx then 5 else ((s.stallReasons u G).head?).getD (Config.otherReason % 12)
      (0, some (G.role, why))

/-- A quadrant's counters go on by n cycles of one kind. -/
def QuadStat.charge (q : QuadStat) (x : Nat × Option (Nat × Nat)) (n : Nat) : QuadStat :=
  { q with
    elig := vset q.elig x.1 (vget q.elig x.1 0 + n)
    stall := match x.2 with
      | some (r, why) => vset q.stall (12 * r + why) (vget q.stall (12 * r + why) 0 + n)
      | none => q.stall }

/-- The counters of every quadrant that has held a block go on by n cycles (R322): in how many of them an arithmetic result is late
is open (R247, log 20). -/
def State.countCycles (s : State) (n : Nat) : State :=
  { s with quads := s.quads.map fun q =>
      let late := Config.lateCycles (s.tick * 1024 + q.core * 4 + q.quad) % (n + 1)
      (q.charge (s.quadCount q.core q.quad true) late).charge (s.quadCount q.core q.quad false) (n - late) }

/-- A quadrant's trace record (R323). -/
def QuadStat.record (q : QuadStat) (time : Nat) (final : Bool) : List Byte :=
  bytesOf 4 1 ++ bytesOf 2 q.core ++ bytesOf 1 q.quad ++ bytesOf 1 (if final then 1 else 0) ++ bytesOf 8 time
    ++ q.elig.toList.flatMap (bytesOf 4 ·) ++ q.stall.toList.flatMap (bytesOf 4 ·)

/-- Every block of a launch has completed and every update of it has been drained (R22, R222), or it was ended early and its
threads are gone. -/
def State.finished (s : State) (L : Launch) : Bool :=
  !s.blocks.any (fun b => decide (b.launch = L.id)) && L.saved.isEmpty && L.inflight.isEmpty && L.held.isEmpty
    && (decide (L.status ≠ 0) || (decide (L.r.blocks ≤ L.next) && decide (L.r.blocks ≤ L.done)))

/-- A launch traces (R313, R399). -/
def Launch.traces (L : Launch) : Bool := decide (L.r.trace ≠ 0)

/-- A quadrant's record of a launch is due (R323): after 2^20 cycles, or when the launch has ended. -/
def State.traceDue (s : State) (L : Launch) (core quad : Nat) (final : Bool) : Bool :=
  L.traces && L.traceQuads.any fun x => decide (x.1 = core ∧ x.2.1 = quad)
    && (if final then s.finished L else decide (x.2.2 + 2 ^ 20 ≤ s.time) && !s.finished L)

/-- TRACE_RECORD (R323): the record, after which the counters restart. -/
def execTraceRecord (a core quad : Nat) (final : Bool) (s : State) : Host.Outcome State Fault Refusal :=
  match s.launch? a with
  | none => .next s
  | some L =>
    if !s.traceDue L core quad final then .next s
    else
      let q := (s.quads.find? fun x => decide (x.core = core ∧ x.quad = quad)).getD (QuadStat.fresh core quad)
      let s : State := { s with quads := s.quads.map fun x => if x.core = core ∧ x.quad = quad then QuadStat.fresh core quad else x }
      let s := s.modLaunch a fun L => { L with
        traceQuads := L.traceQuads.filterMap fun x =>
          if x.1 = core ∧ x.2.1 = quad then (if final then none else some (core, quad, s.time)) else some x }
      .next (s.trace a (q.record s.time final))

end Sys2Proof.Machine
end

