-- ==== Sys2Proof/Machine/Queues.lean ====
section
/-! DEFINITION. Command queues (R307-R312), dispatch of launches (R313, R314) and their completion (R315). -/

namespace Sys2Proof.Machine

/-! ### The end of a launch -/

/-- The status that a launch ends with (R315): one that every block ended normally is complete with faults where a block
stalled (log 22). -/
def Launch.endStatus (L : Launch) : Nat := if L.status ≠ 0 then L.status else if L.stalls = 0 then 1 else 2

/-- A logged launch end. -/
def LogRec.finishOf (n : Nat) : LogRec → Option Nat
  | .finish ln st => if ln = n then some st else none
  | _ => none

/-- A launch number among the log's launches. -/
def LogRec.lnumOf : LogRec → Option Nat
  | .chunk n _ _ _ _ _ _ _ _ _ _ => some n
  | .jobStep n _ _ _ _ _ _ _ => some n
  | .jobEnd n _ _ _ _ _ _ => some n
  | .drain n _ _ => some n
  | _ => none

/-- In replay, the end of a launch: its status is the logged one (R396), and nothing of it holds a clock back any more. -/
def State.replayEnd (s : State) (L : Launch) : State :=
  let P := s.part L.part
  match L.number with
  | none => s
  | some n =>
    if !P.replaying then s
    else
      let s := match P.rpLog.findSome? (LogRec.finishOf n) with
        | some st => if st = L.endStatus then s else s.diverge L.part 7 0 0 0 0 st L.endStatus
        | none => s
      let mine := (List.range P.rpLog.length).filter fun i => decide (P.rpLog[i]?.bind LogRec.lnumOf = some n)
      s.modPart L.part fun P => { P with rpDone := mine.flatMap (fun i => [(i, false), (i, true)]) ++ P.rpDone }

/-- The recorder's part of a launch's end (R386, R387). -/
def State.recordEnd (s : State) (L : Launch) : State :=
  let s := match L.number with
    | some n => if (s.part L.part).rrEn then s.logRecord L.part 36 (bytesOf 1 7 ++ vField n ++ bytesOf 1 L.endStatus) else s
    | none => s
  (s.closeFrames L.part).replayEnd L

/-- A launch that belongs to no queue: a replayed one, which adds no SIGADD (R392). -/
def Launch.noQueue (L : Launch) : Bool := decide (64 ≤ L.queue)

/-! ### Halting and settling -/

/-- A queue whose dispatched launches have ended, and whose begun fetch has, takes the STATE that its halt or teardown gives
(R312). -/
def State.settleQueue (s : State) (p q : Nat) : State :=
  let Q := s.queue p q
  match Q.closing with
  | some x => if Q.packets.isEmpty && !Q.asked then s.modQueue p q fun Q => { Q with st := x, closing := none } else s
  | none => s

/-- The launches that a queue has dispatched. -/
def State.launchesOf (s : State) (p q : Nat) : List Launch :=
  s.launches.filter fun L => decide (L.part = p ∧ L.queue = q)

/-- The launch leaves: its packet completes (R311), its queue settles (R312). -/
def State.dropLaunch (s : State) (L : Launch) : State :=
  let s : State := { s with
    launches := s.launches.filter fun x => decide (x.id ≠ L.id),
    holders := s.holders.filter fun h => decide (h.1 ≠ L.id) }
  if L.noQueue then s
  else (s.modQueue L.part L.queue fun Q => { Q with packets := Q.packets.filter fun k => !(k.launched && decide (k.idx = L.packet)) }).settleQueue
    L.part L.queue

/-- A write of a launch's record or an add to its signal that is parked is discarded (R351). -/
def State.discardWrite (s : State) (L : Launch) : State :=
  if !L.parked then s
  else if L.recordWritten then s.dropLaunch L
  else (s.recordEnd L).modLaunch L.id fun L => { L with parked := false, recordWritten := true }

/-- Under POLICY 1 the dispatched launches of a queue are killed (R312), and an access of theirs or of the queue that is parked is
discarded (R351). -/
def State.applyPolicy (s : State) (p q : Nat) : State :=
  if !(s.queue p q).policy then s
  else
    let s := (s.launchesOf p q).foldl (fun s L => ((s.endLaunch L.id 4).discardParked L.id).discardWrite L) s
    if (s.queue p q).parked then
      s.modQueue p q fun Q => { Q with parked := false, asked := false, packets := Q.packets.filter (·.launched) }
    else s

/-- A packet that has been fetched and not yet acted on, or a WAITSIG that waits (R311). The command processor holds one such
packet of a queue at a time (log 21). -/
def Queue.pending (Q : Queue) : Option Packet := Q.packets.find? fun k => !k.launched || decide (k.typ = 2)

/-- The queue without the packet that is acted on. -/
def Queue.dropPending (Q : Queue) : Queue :=
  { Q with packets := Q.packets.filter fun k => k.launched && decide (k.typ ≠ 2), asked := false }

/-- The queue with a waiting WAITSIG given up; a packet that is fetched and not yet acted on is still acted on (R312, log 21). -/
def Queue.dropWait (Q : Queue) : Queue := { Q with packets := Q.packets.filter fun k => decide (k.typ ≠ 2) || !k.launched }

/-- A queue halts at a packet boundary with a code, after a change of its packets (R312); one that is already closing keeps its
first cause. -/
def State.haltWith (s : State) (p q code : Nat) (f : Queue → Queue) : State :=
  let Q := s.queue p q
  if Q.closing.isSome ∨ Q.st = 0 ∨ Q.st = 2 then (s.modQueue p q f).settleQueue p q
  else
    let s := s.modQueue p q fun Q => { f Q with
      fault := Q.fault &&& 0xFFFFFFFF00000000#64 ||| BitVec.ofNat 64 code, closing := some 2 }
    (s.applyPolicy p q).settleQueue p q

/-- A queue halts on the packet that it holds, which has no effect. -/
def State.haltQueue (s : State) (p q code : Nat) : State := s.haltWith p q code Queue.dropPending

/-- A write of EN = 0 tears a queue down (R312): at once where it is halted. -/
def State.teardown (s : State) (p q : Nat) : State :=
  let Q := s.queue p q
  if Q.st = 2 then s.modQueue p q fun Q => { Q with st := 0 }
  else if Q.st = 1 then
    let s := s.modQueue p q fun Q => { Q.dropWait with
      st := 3, closing := some 0, fault := Q.fault &&& 0xFFFFFFFF00000000#64 ||| 6#64 }
    (s.applyPolicy p q).settleQueue p q
  else s

/-! ### The queue registers -/

/-- The pool is large enough for a queue to start (R338). -/
def State.poolEnough (s : State) (p : Nat) : Bool := decide (s.poolReserve p ≤ (s.part p).poolSize)

/-- A write of QCTL (R308, R312): its fields only while STATE is 0; a new LOG2N restarts the ring; EN. -/
def State.writeQctl (s : State) (p q : Nat) (v : BitVec 64) : State :=
  let Q := s.queue p q
  let en := v.getLsbD 0
  if Q.st = 0 then
    let log2n := v.extractLsb' 4 6
    let start := en && decide (4 ≤ log2n.toNat) && decide (log2n.toNat ≤ 16) && decide (Q.base.toNat % 128 = 0) && s.poolEnough p
    s.modQueue p q fun Q => { Q with
      log2n := log2n, policy := v.getLsbD 3, prio := v.extractLsb' 1 2, en := en,
      ridx := if log2n = Q.log2n then Q.ridx else 0, st := if start then 1 else 0 }
  else if en then s
  else (s.modQueue p q fun Q => { Q with en := false }).teardown p q

/-- QUEUE_START (R308): a write of QCTL with EN = 1. -/
def execQueueStart (p q : Nat) (v : BitVec 64) (s : State) : Host.Outcome State Fault Refusal :=
  if p < partsOf s.code ∧ q < 64 ∧ v.getLsbD 0 then .next (s.writeQctl p q v) else .next s

/-- QUEUE_TEARDOWN (R312): a write of QCTL with EN = 0. -/
def execQueueTeardown (p q : Nat) (v : BitVec 64) (s : State) : Host.Outcome State Fault Refusal :=
  if p < partsOf s.code ∧ q < 64 ∧ ¬ v.getLsbD 0 then .next (s.writeQctl p q v) else .next s

/-- A write of QBASE (R308); bytes 9 to 15 of the pointer are reserved (R98). -/
def State.writeQbase (s : State) (p q : Nat) (v : BitVec 128) : State :=
  if (s.queue p q).st = 0 then s.modQueue p q fun Q => { Q with base := v.setWidth 72, ridx := 0 } else s

/-- QBASE_WRITE (R308). -/
def execQbaseWrite (p q : Nat) (v : BitVec 128) (s : State) : Host.Outcome State Fault Refusal :=
  if p < partsOf s.code ∧ q < 64 then .next (s.writeQbase p q v) else .next s

/-- QWIDX_WRITE (R307, R309). -/
def execQwidxWrite (p q : Nat) (v : BitVec 32) (s : State) : Host.Outcome State Fault Refusal :=
  if p < partsOf s.code ∧ q < 64 then .next (s.modQueue p q fun Q => { Q with widx := v }) else .next s

/-! ### What the command processor reads -/

/-- What a read by the command processor gives. -/
inductive QueueRead where
  | bytes (bs : List Byte)
  | wait
  | perm

/-- What a fault record says of the command processor's access (R350). -/
def queueSource (q access : Nat) : FaultSrc := { source := 4, access := access, lin := 0, gang := 0, lane := 0, queue := q % 64 }

/-- n bytes read as an acquire at .s (R309, R311, R374): the first attempt drops the remote-clean bytes; a translation fault
parks the queue (R350). -/
def State.queueRead (s : State) (p q va n access : Nat) (need : Needs) : State × QueueRead :=
  let s := if (s.queue p q).asked then s else s.acquireRemote.modQueue p q fun Q => { Q with asked := true }
  match s.virtRead p va n need with
  | (s, .ok bs) => (s, .bytes bs)
  | (s, .error .away) => (s, .wait)
  | (s, .error (.at a x)) =>
    let s := s.virtFault p a x (queueSource q access)
    if x.parks then (s.modQueue p q fun Q => { Q with parked := true }, .wait) else (s, .perm)

/-- An atomic on a signal at its MAU (R311): done, waiting for system software, or without permission. -/
inductive SignalOp where
  | done | park | perm
  deriving DecidableEq, Repr

/-- A signal is set (function 8) or added to (function 0) with order .ar at .s (R129, R311); on another device by a message,
after the proxy copy's dirty bytes (R410). -/
def State.signalOp (s : State) (p q va : Nat) (f : BitVec 4) (x : Dword) : State × SignalOp :=
  match s.place .device p va ⟨true, true, false⟩ with
  | .ok pa key =>
    if s.local pa then ((s.mauPerform f true pa key x 0).1, .done)
    else
      let op : MauOp := { lane := 0, pa := pa, key := key, f := f, w64 := true, operand := x, compare := 0, dest := none,
                          va := BitVec.ofNat 72 va, acq := 0, pc := 0, tag := none, answer := none }
      let r := s.remoteLine (lineOf pa) key
      let s := if r.dirty = 0 then s else s.sendRequest (writeRequest r) none none
      ((s.setRemote { r with valid := 0, dirty := 0 }).sendRequest (atomicMessage op) none none, .done)
  | y =>
    let s := s.virtFault p va y (queueSource q 2)
    (s, if y.parks then .park else .perm)

/-! ### Fetching -/

/-- A write of a completion record or signal of the queue's launches is parked, which holds the queue at its next packet
(R315). -/
def State.writeParked (s : State) (p q : Nat) : Bool := (s.launchesOf p q).any (·.parked)

/-- The command processor fetches the queue's next packet (R309, R311); a fetch that has begun goes on when the queue halts or is
torn down (R312). -/
def State.mayFetch (s : State) (p q : Nat) : Bool :=
  let Q := s.queue p q
  decide (p < partsOf s.code) && ((decide (Q.st = 1) && Q.closing.isNone) || (Q.asked && Q.closing.isSome))
    && decide (Q.ridx ≠ Q.widx) && !Q.parked && Q.pending.isNone && !s.writeParked p q

/-- The bytes of a packet that its type uses (R310). -/
def packetBytes (typ : Nat) : List Nat :=
  [0, 1, 4, 5, 6, 7] ++ (match typ with
    | 1 => (List.range 9).map (0x08 + ·) ++ (List.range 9).map (0x18 + ·) ++ (List.range 8).map (0x28 + ·)
    | 2 => (List.range 9).map (0x08 + ·) ++ [0x18] ++ (List.range 8).map (0x20 + ·)
    | 3 => (List.range 9).map (0x08 + ·) ++ [0x18] ++ (List.range 8).map (0x20 + ·)
    | 4 => (List.range 8).map (0x08 + ·)
    | 5 => [0x08]
    | _ => [])

/-- A malformed packet (R310). -/
def malformedPacket (bs : List Byte) : Bool :=
  let typ := fieldAt bs 0 1
  let use := packetBytes typ
  decide (typ = 0) || decide (5 < typ) || decide (2 ≤ fieldAt bs 1 1)
    || (List.range 128).any (fun i => !decide (i ∈ use) && !zeroAt bs i 1)
    || (match typ with
      | 1 => decide (fieldAt bs 0x08 9 % 64 ≠ 0) || decide (fieldAt bs 0x18 9 % 8 ≠ 0)
      | 2 => decide (fieldAt bs 0x08 9 % 8 ≠ 0) || decide (3 < fieldAt bs 0x18 1)
      | 3 => decide (fieldAt bs 0x08 9 % 8 ≠ 0) || decide (1 < fieldAt bs 0x18 1)
      | 5 => decide (1 < fieldAt bs 0x08 1)
      | _ => false)

/-- PACKET_FETCH (R309, R310). -/
def execPacketFetch (p q : Nat) (s : State) : Host.Outcome State Fault Refusal :=
  if !s.mayFetch p q then .next s
  else
    let Q := s.queue p q
    if 2 ^ Q.log2n.toNat < (Q.widx - Q.ridx).toNat ∧ ¬ Q.asked then .next (s.haltQueue p q 3)
    else
      let va := (Q.base.toNat + 128 * (Q.ridx.toNat % 2 ^ Q.log2n.toNat)) % 2 ^ 72
      match s.queueRead p q va 128 0 ⟨true, false, false⟩ with
      | (s, .wait) => .next s
      | (s, .perm) => .next (s.haltQueue p q 4)
      | (s, .bytes bs) =>
        let s := s.modQueue p q fun Q => { Q with
          asked := false, ridx := Q.ridx + 1, fault := Q.fault &&& 0xFF#64 ||| (Q.ridx.setWidth 64 <<< 32) }
        if fieldAt bs 4 4 ≠ Q.ridx.toNat then .next (s.haltQueue p q 2)
        else if malformedPacket bs then .next (s.haltQueue p q 1)
        else .next (s.modQueue p q fun Q => { Q with packets := Q.packets ++
          [({ idx := (Q.ridx - 1).toNat, typ := fieldAt bs 0 1, barrier := (fieldAt bs 1 1).testBit 0, bytes := bs,
              launched := false } : Packet)] })

/-- The packet of a type that a queue holds and may act on now: a WAITSIG and a LAUNCH without BARRIER at once, any other one
after every earlier packet has completed (R311). -/
def State.actsOn (s : State) (p q typ : Nat) : Option Packet :=
  let Q := s.queue p q
  match Q.pending with
  | some k =>
    if k.typ = typ ∧ ¬ Q.parked ∧ ¬ s.writeParked p q
        ∧ (typ = 2 ∨ (typ = 1 ∧ ¬ k.barrier) ∨ Q.packets.length = 1) then some k else none
  | none => none

/-- The packet that a queue holds has completed. -/
def State.packetDone (s : State) (p q : Nat) : State := (s.modQueue p q Queue.dropPending).settleQueue p q

/-! ### LAUNCH -/

/-- The record of a launch's beginning (R386, kind 6). -/
def beginRecord (lnum queue packet : Nat) (addr lbase : Nat) : List Byte :=
  bytesOf 1 6 ++ vField lnum ++ bytesOf 1 queue ++ vField packet ++ bytesOf 16 addr ++ vField lbase

/-- The clusters of a partition. -/
def State.clusters (s : State) (p : Nat) : List Nat :=
  (diesOf s.code p).flatMap fun d => (List.range 8).map (8 * d + ·)

/-- An acquire at .s over every core of a partition (R113): what the command processor reads with its acquires goes before what
it dispatches (R309, R311). -/
def State.acquirePart (s : State) (p : Nat) : State :=
  ((s.clusters p).foldl (fun s c => s.acquireCluster c) s).acquireRemote

/-- A launch is dispatched (R313), or entered as rejected (R314); number: its launch number, which records or replays it. -/
def State.dispatch (s : State) (p q packet prio : Nat) (signal : Wide) (sigadd : Dword) (addr : Nat) (bs : List Byte)
    (d : LaunchData) (number : Option Nat) (replay : Bool) : State :=
  let P := s.part p
  let r := readRecord (BitVec.ofNat 72 addr) bs d
  let L := Launch.start s.nextId p q packet prio s.nextId s.time signal sigadd r
  let s : State := { s.acquirePart p with nextId := s.nextId + 1 }
  match rejection bs d (P.rrEn || replay) with
  | some x => { s with launches := s.launches ++ [{ L with status := 3, reject := some x }] }
  | none =>
    { s with launches := s.launches ++ [{ L with
        positions := if r.det then s.workingCores p else [], number := number, lbase := P.hwm }] }

/-- What the COMPLETION of a record allows at dispatch (R314): true where it halts the queue with code 5; a translation fault
holds the queue. -/
def State.completionPlace (s : State) (p : Nat) (bs : List Byte) : Bool × Option (Nat × Place) :=
  let va := fieldAt bs 0x90 9
  if va % 128 ≠ 0 then (true, none)
  else match s.virtCheck p va 0x4000 ⟨false, true, false⟩ with
    | none => (false, none)
    | some (a, x) => (!x.parks, some (a, x))

/-- LAUNCH (R311, R313, R314). -/
def execLaunch (p q : Nat) (s : State) : Host.Outcome State Fault Refusal :=
  match s.actsOn p q 1 with
  | none => .next s
  | some k =>
    let addr := fieldAt k.bytes 0x08 9
    match s.queueRead p q addr 512 0 ⟨true, false, false⟩ with
    | (s, .wait) => .next s
    | (s, .perm) => .next (s.haltQueue p q 4)
    | (s, .bytes bs) => match s.completionPlace p bs with
      | (true, some (a, x)) => .next ((s.virtFault p a x (queueSource q 1)).haltQueue p q 5)
      | (true, none) => .next (s.haltQueue p q 5)
      | (false, some (a, x)) =>
        .next ((s.virtFault p a x (queueSource q 1)).modQueue p q fun Q => { Q with parked := true })
      | (false, none) =>
        match s.launchData p bs with
        | (s, none) => .next s
        | (s, some d) =>
        let P := s.part p
        let number := if (fieldAt bs 4 4).testBit 1 ∧ P.rrEn then some P.lnums else none
        let id := s.nextId
        let s := s.dispatch p q k.idx (s.queue p q).prio.toNat (BitVec.ofNat 72 (fieldAt k.bytes 0x18 9))
          (BitVec.ofNat 64 (fieldAt k.bytes 0x28 8)) addr bs d number false
        let s := match number, s.launch? id with
          | some n, some L =>
            if L.status = 0 then
              (s.modPart p fun P => { P with lnums := n + 1 }).logRecord p 36 (beginRecord n q k.idx addr L.lbase)
            else s
          | _, _ => s
        .next (s.modQueue p q fun Q => { Q with
          asked := false, packets := Q.packets.map fun x => if x.idx = k.idx then { x with launched := true } else x })

/-! ### The other packets -/

/-- The condition of a WAITSIG (R310). -/
def signalHolds (cond x v : Nat) : Bool :=
  match cond with
  | 0 => decide (x = v)
  | 1 => decide (x ≠ v)
  | 2 => decide (v ≤ x)
  | _ => decide (x < v)

/-- A WAITSIG reads its signal (R311): it completes, waits on, or halts the queue; a queue that closes waits on nothing (R312). -/
def State.waitRead (s : State) (p q : Nat) (k : Packet) : State :=
  match s.queueRead p q (fieldAt k.bytes 0x08 9) 8 0 ⟨true, false, false⟩ with
  | (s, .wait) => s
  | (s, .perm) => s.haltQueue p q 4
  | (s, .bytes bs) =>
    if signalHolds (fieldAt k.bytes 0x18 1) (ofBytes bs) (fieldAt k.bytes 0x20 8) || (s.queue p q).closing.isSome then s.packetDone p q
    else s.modQueue p q fun Q => { Q with
      asked := false, packets := Q.packets.map fun x => if x.idx = k.idx then { x with launched := true } else x }

/-- WAITSIG (R311): the first read of the signal. -/
def execWaitsig (p q : Nat) (s : State) : Host.Outcome State Fault Refusal :=
  match s.actsOn p q 2 with
  | some k => if k.launched then .next s else .next (s.waitRead p q k)
  | none => .next s

/-- SIGNAL_REREAD (R311). -/
def execSignalReread (p q : Nat) (s : State) : Host.Outcome State Fault Refusal :=
  match s.actsOn p q 2 with
  | some k => if k.launched then .next (s.waitRead p q k) else .next s
  | none => .next s

/-- The queues in which a WAITSIG waits. -/
def State.waiting (s : State) : List (Nat × Nat) :=
  (List.range (partsOf s.code)).flatMap fun p => (List.range 64).filterMap fun q =>
    if (s.queue p q).packets.any fun k => k.launched && decide (k.typ = 2) then some (p, q) else none

/-- Every waiting WAITSIG reads its signal again: what follows a signal write that the device makes (R311). -/
def State.rereadSignals (s : State) : State :=
  s.waiting.foldl (fun s x => match s.actsOn x.1 x.2 2 with
    | some k => if k.launched then s.waitRead x.1 x.2 k else s
    | none => s) s

/-- SETSIG (R310, R311). -/
def execSetsig (p q : Nat) (s : State) : Host.Outcome State Fault Refusal :=
  match s.actsOn p q 3 with
  | none => .next s
  | some k => match s.signalOp p q (fieldAt k.bytes 0x08 9) (if fieldAt k.bytes 0x18 1 = 0 then 8 else 0)
      (BitVec.ofNat 64 (fieldAt k.bytes 0x20 8)) with
    | (s, .done) => .next (s.packetDone p q).rereadSignals
    | (s, .park) => .next (s.modQueue p q fun Q => { Q with parked := true })
    | (s, .perm) => .next (s.haltQueue p q 4)

/-- MARK (R310). -/
def execMark (p q : Nat) (s : State) : Host.Outcome State Fault Refusal :=
  match s.actsOn p q 4 with
  | some k => .next ((s.modQueue p q fun Q => { Q with
      mark := BitVec.ofNat 64 (fieldAt k.bytes 0x08 8), mtime := BitVec.ofNat 64 s.time }).packetDone p q)
  | none => .next s

/-- A release at .s over every core of a partition (R113, R374): each cluster's dirty lines, then the bytes of other devices'
lines that their homes do not have. -/
def State.releasePart (s : State) (p : Nat) : State := ((s.clusters p).foldl (fun s c => s.releaseCluster c) s).virtRelease

/-- Every home has acknowledged what a release sent to other devices (R374). -/
def State.released (s : State) : Bool := s.remoteDirty.isEmpty && !s.writesPending

/-- FLUSH (R310): a release, or a release and an acquire; the packet completes with its acknowledgements (R374). -/
def execFlush (p q : Nat) (s : State) : Host.Outcome State Fault Refusal :=
  match s.actsOn p q 5 with
  | none => .next s
  | some k =>
    let s := s.releasePart p
    if !s.released then .next s
    else if fieldAt k.bytes 0x08 1 = 0 then .next (s.packetDone p q)
    else .next ((s.acquirePart p).packetDone p q)

/-! ### Completion -/

/-- A fault as the record names it (R315). -/
def FaultRec.bytes (f : FaultRec) : List Byte :=
  bytesOf 8 f.cause ++ bytesOf 8 f.lin ++ bytesOf 8 f.gang ++ bytesOf 8 f.lane ++ bytesOf 8 f.tpc.toNat
    ++ bytesOf 8 f.taddr.toNat ++ bytesOf 8 f.tinfo.toNat

/-- The completion record after its STATUS (R315): bytes 4 to 0x3FFF. -/
def Launch.completionBytes (L : Launch) (time : Nat) : List Byte :=
  let rj := L.reject.getD (0, 0)
  padTo 0x3C (bytesOf 2 rj.1 ++ bytesOf 2 rj.2 ++ bytesOf 8 L.dispatched ++ bytesOf 8 time ++ bytesOf 4 L.stalls
      ++ bytesOf 4 L.spcount ++ bytesOf 8 L.detLine ++ bytesOf 8 L.detLost)
    ++ padTo 0xC0 ((L.fault.map FaultRec.bytes).getD [])
    ++ padTo 0x100 ((L.deadlock.getD []).flatMap fun x => bytesOf 4 x.1.toNat ++ bytesOf 4 x.2.toNat)
    ++ padTo 0x80 ((L.stall.map fun (r : StallRec) => r.masks.flatMap fun m => bytesOf 4 m.toNat).getD [])
    ++ padTo 0x1080 ((L.stall.map fun (r : StallRec) => r.waits.flatMap fun w => w.flatMap fun x => bytesOf 4 x.toNat).getD [])
    ++ padTo 0x2D00 (L.spfaults.flatMap fun x => bytesOf 8 x.1 ++ padTo 128 (x.2.flatMap fun m => bytesOf 4 m.toNat))

/-- The record is written, STATUS last (R315). -/
def State.writeCompletion (s : State) (L : Launch) : State :=
  let va := L.r.completion.toNat
  (s.virtWrite L.part ((va + 4) % 2 ^ 72) (L.completionBytes s.time)).virtWrite L.part va (bytesOf 4 L.endStatus)

/-- A launch's write has failed for want of permission: its queue halts (R315). -/
def State.haltFor (s : State) (L : Launch) (code : Nat) : State :=
  if L.noQueue then s else s.haltWith L.part L.queue code Queue.dropWait

/-- The add to a launch's signal (R315), after which the launch leaves. -/
def State.finishSignal (s : State) (L : Launch) : State :=
  if L.signal = 0 ∨ L.noQueue then s.dropLaunch L
  else match s.signalOp L.part L.queue L.signal.toNat 0 L.sigadd with
    | (s, .done) => (s.dropLaunch L).rereadSignals
    | (s, .park) => s.modLaunch L.id fun L => { L with parked := true }
    | (s, .perm) => (s.haltFor L 4).dropLaunch L

/-- A launch has ended and nothing keeps its completion from being written. -/
def State.completes (s : State) (L : Launch) : Bool :=
  s.finished L && !L.parked && (!L.traces || L.traceQuads.isEmpty)

/-- LAUNCH_COMPLETION (R222, R311, R315): a release at .s over the partition; the record, and its release; then SIGADD. -/
def execLaunchCompletion (a : Nat) (s : State) : Host.Outcome State Fault Refusal :=
  match s.launch? a with
  | none => .next s
  | some L =>
    if !s.completes L then .next s
    else
      let s := s.releasePart L.part
      if !s.released then .next s
      else if L.recordWritten then .next (s.finishSignal L)
      else match s.virtCheck L.part L.r.completion.toNat 0x4000 ⟨false, true, false⟩ with
        | some (a', x) =>
          if x.parks then
            .next ((s.virtFault L.part a' x (queueSource L.queue 1)).modLaunch a fun L => { L with parked := true })
          else .next ((((s.virtFault L.part a' x (queueSource L.queue 1)).recordEnd L).haltFor L 5).modLaunch a fun L => { L with recordWritten := true })
        | none => .next (((s.writeCompletion L).recordEnd L).modLaunch a fun L => { L with recordWritten := true })

end Sys2Proof.Machine
end

