-- ==== Sys2Proof/Machine/Window.lean ====
section
/-! DEFINITION. Registers of a partition's control window that act on translation and keys: TINVAL (R349), FRESUME (R351),
KEYRET (R356). -/

namespace Sys2Proof.Machine

/-- A block belongs to a partition. -/
def State.blockOf (s : State) (p : Nat) (u : Nat) : Bool :=
  match s.launchOf u with | some L => decide (L.part = p) | none => false

/-- A request to another device that may be of an access of a partition: those of another partition's blocks are not (R349). -/
def State.mayBeOf (s : State) (p : Nat) (r : RemoteReq) : Bool :=
  match (r.gang.orElse fun _ => r.job).bind fun x => s.launchOf x.1 with
  | some L => decide (L.part = p)
  | none => true

/-- Every access of a partition that has translated has completed or parked (R349): nothing is on its way to an MAU, to a home
or to another device. -/
def State.accessesSettled (s : State) (p : Nat) : Bool :=
  s.blocks.all (fun b => !s.blockOf p b.uid || b.gangs.all fun G => G.mau.isEmpty && G.away.isEmpty)
    && s.launches.all (fun L => decide (L.part ≠ p) || L.inflight.isEmpty)
    && !s.requests.any (s.mayBeOf p)

/-- A write of TINVAL (R345, R349): with GO it is ignored while BUSY; ALL drops every translation of the partition, otherwise
those of the page at TIVA whose leaf is at LEVEL; each empties the walkers' caches of non-leaf entries. -/
def State.writeTinval (s : State) (p : Nat) (v : BitVec 64) : State :=
  let P := s.part p
  let go := v.getLsbD 0
  let all := v.getLsbD 1
  let lvl := (v.extractLsb' 2 2).toNat
  if go ∧ P.tinvalBusy then s
  else
    let s := s.modPart p fun P => { P with tinvalAll := all, tinvalLevel := v.extractLsb' 2 2, tinvalBusy := P.tinvalBusy || go }
    if go then
      { s with
        tables := []
        tlb := s.tlb.filter fun t => !(decide (t.part = p)
          && (all || (decide (t.level = lvl) && decide (t.va / 2 ^ pageBits lvl = P.tiva.toNat / 2 ^ pageBits lvl)))) }
    else s

/-- TINVAL_PAGE (R349): a write of TINVAL with GO = 1 and ALL = 0. -/
def execTinvalPage (p : Nat) (v : BitVec 64) (s : State) : Host.Outcome State Fault Refusal :=
  if p < partsOf s.code ∧ v.getLsbD 0 ∧ ¬ v.getLsbD 1 then .next (s.writeTinval p v) else .next s

/-- TINVAL_ALL (R349): a write of TINVAL with GO = 1 and ALL = 1. -/
def execTinvalAll (p : Nat) (v : BitVec 64) (s : State) : Host.Outcome State Fault Refusal :=
  if p < partsOf s.code ∧ v.getLsbD 0 ∧ v.getLsbD 1 then .next (s.writeTinval p v) else .next s

/-- INVALIDATION_COMPLETE (R349): BUSY clears. -/
def execInvalidationComplete (p : Nat) (s : State) : Host.Outcome State Fault Refusal :=
  if (s.part p).tinvalBusy ∧ s.accessesSettled p then .next (s.modPart p fun P => { P with tinvalBusy := false }) else .next s

/-- A gang's access that waits on a translation walks again (R351). -/
def Gang.resumeFault (G : Gang) : Gang :=
  match G.parked with | some x => if x.kind = 0 then { G with parked := none } else G | none => G

/-- A write of FRESUME (R351): 1 clears FROVF and lets every parked access of the partition walk again; suspended traces go on
(R399). -/
def State.writeFresume (s : State) (p : Nat) (v : BitVec 64) : State :=
  if !v.getLsbD 0 then s
  else
    let s := s.modPart p fun P => { P with
      frOvf := 0, frPages := [], rpParked := false, queues := P.queues.map fun Q => { Q with parked := false } }
    { s with
      blocks := s.blocks.map fun b => if s.blockOf p b.uid then
        { b with parked := false, gangs := b.gangs.map Gang.resumeFault, jobs := b.jobs.map fun j => { j with parked := false } }
        else b
      launches := s.launches.map fun L => if L.part = p then { L with
        parked := false, traceSuspended := false, saved := L.saved.map fun x => ({ x.1 with parked := false }, x.2) } else L
      conns := s.conns.map fun C => if C.part = p then { C with parked := false } else C }

/-- FRESUME (R351). -/
def execFresume (p : Nat) (v : BitVec 64) (s : State) : Host.Outcome State Fault Refusal :=
  if p < partsOf s.code then .next (s.writeFresume p v) else .next s

/-- A write of KEYRET (R356): with GO it retires a key other than 0 that the partition owns; for another key it is ignored, and
so is one while BUSY (log 23). -/
def State.writeKeyret (s : State) (p : Nat) (v : BitVec 64) : State :=
  let P := s.part p
  let k := v.extractLsb' 0 8
  if P.keyBusy then s
  else if !v.getLsbD 8 then s.modPart p fun P => { P with keyRet := k }
  else if k = 0 ∨ ¬ P.keyOwn.getLsbD k.toNat then s
  else
    let s := s.modPart p fun P => { P with keyRet := k, keyBusy := true }
    { s with tlb := s.tlb.filter fun t => decide (t.key ≠ k.toNat) }

/-- KEY_RETIRE (R356). -/
def execKeyRetire (p : Nat) (v : BitVec 64) (s : State) : Host.Outcome State Fault Refusal :=
  if p < partsOf s.code ∧ v.getLsbD 8 then .next (s.writeKeyret p v) else .next s

/-- Every dirty line under a key reaches HBM4, from the L1s through the L2s and the slices, and every copy of one goes (R356). -/
def State.flushKey (s : State) (k : Nat) : State :=
  let s := (s.l1.filter fun x => decide (x.key = k)).foldl (fun s x => s.writeBack x.cluster x.line k) s
  let s : State := { s with l1 := s.l1.filter fun x => decide (x.key ≠ k) }
  let s := (s.l2.filter fun x => decide (x.key = k)).foldl (fun s x => s.recallLine x.line k) s
  let s := (s.l3.filter fun x => decide (x.key = k)).foldl (fun s x => s.l3Drop x.line k) s
  { s with dir := s.dir.filter fun e => decide (e.key ≠ k) }

/-- KEY_RETIRE_COMPLETE (R356): the accesses under the key are over, its lines are written back, here and to other devices;
the slot is free. -/
def execKeyRetireComplete (p : Nat) (s : State) : Host.Outcome State Fault Refusal :=
  let P := s.part p
  let k := P.keyRet.toNat
  if !P.keyBusy || !s.accessesSettled p then .next s
  else
    let s := s.flushKey k
    let mine := s.remoteDirty.filter fun x => decide (x.key = k)
    if !mine.isEmpty then
      .next (mine.foldl (fun s x => if s.outstanding 2 x.line k then s else s.sendRequest (writeRequest x) none none) s)
    else
      let s := (s.remote.filter fun x => decide (x.key = k)).foldl (fun s x => s.setRemote { x with valid := 0 }) s
      let m : BitVec 256 := ~~~ BitVec.twoPow 256 k
      let s : State := { s with mgmt := { s.mgmt with keysUsed := s.mgmt.keysUsed &&& m } }
      .next (s.modPart p fun P => { P with keyBusy := false, keyOwn := P.keyOwn &&& m })

end Sys2Proof.Machine
end

