-- ==== Sys2Proof/Machine/Homes.lean ====
section
/-! DEFINITION. The homes' transactions message by message (R360-R368), directory errors (R371), poison (R372), failed and
readmitted dies (R370), lost L1 slices (R112). A load, a store, an atomic or a commit carries out the whole transaction that it
needs (Coherence); the events here are the same transactions in their parts. A message names its sender by its agent identifier
(R370); one of another incarnation is discarded. -/

namespace Sys2Proof.Machine

/-- What a message names: a line, and from bit 45 on the key that its tag carries (R355). -/
def msgLine (t : Nat) : Nat := t % 2 ^ 45
def msgKey (t : Nat) : Nat := t / 2 ^ 45 % 256

/-- The dies whose answer a home awaits before it can end a request of die d (R364): for GetM every other die that its entry
names, for GetS the owner. -/
def State.awaited (s : State) (line key d : Nat) (m : Bool) : BitVec 4 :=
  if m then (s.entry line key).sharers &&& ~~~ BitVec.twoPow 4 d
  else match s.ownerOf line key with | some o => BitVec.twoPow 4 o | none => 0

/-- A home takes up a request (R364): a privatised line is merged first (R368); the entry is busy until the answers have come and
the requester has its data. The request that makes a line contended has it recalled and a record kept for it, and the dies that
asked for it are asked for their masks (R366). -/
def State.openRequest (s : State) (line key : Nat) (r : Nat × Bool) : State :=
  let d := agentDie r.1
  let s := if (s.entry line key).st = .p then (s.recallCopies line key).idleEntry line key else s
  let s := s.allocEntry line key
  let e := s.entry line key
  let moved := r.2 && (s.ownerOf line key).any fun o => decide (o ≠ d)
  let e := { e with
    st := .busy, req := some r, masks := [], priv := false, remote := !s.local (line * 128),
    moves := if moved then recentMoves e.moves s.time ++ [(s.time, d)] else e.moves,
    owner := BitVec.ofNat 2 ((s.ownerOf line key).getD e.owner.toNat) }
  if moved && contended e.moves s.time && decide (s.privUsed (sliceOf line) < 64) then
    (s.recallCopies line key).setEntry { e with priv := true, sharers := 0, acks := 0 }
  else s.setEntry { e with acks := ((List.range 4).filter fun k => (s.awaited line key d r.2).getLsbD k).length }

/-- A line without a transaction in progress takes up the next request that it holds (R362). -/
def State.serveHeld (s : State) (line key : Nat) : State :=
  let e := s.entry line key
  if e.st = .busy then s
  else match (e.req.toList ++ e.held).filter fun r => s.dieUp r.1 with
    | [] => s
    | r :: t => (s.setEntry { e with req := none, held := t }).openRequest line key r

/-- A home reads its entry for a message: an error is dealt with, failed dies are settled (R370, R371). -/
def State.heard (s : State) (line key : Nat) : State := ((s.readEntry line key).settle line key).serveHeld line key

/-- A request of a die reaches its home; while the entry is busy it is held (R362). -/
def State.request (s : State) (line key : Nat) (r : Nat × Bool) : State :=
  let s := s.heard line key
  let e := s.entry line key
  if e.st ≠ .busy then s.openRequest line key r
  else if e.req = some r ∨ r ∈ e.held then s
  else s.setEntry { e with held := e.held ++ [r] }

/-- The entry that a request leaves (R364). -/
def State.served (s : State) (e : DirEntry) (d : Nat) (m : Bool) : DirEntry :=
  let bit : BitVec 4 := BitVec.twoPow 4 d
  let e := { e with req := none, acks := 0, masks := [], priv := false }
  if m then { e with st := .m, sharers := bit, owner := BitVec.ofNat 2 d }
  else match s.ownerOf e.line e.key with
    | some o => { e with
        st := if s.l2st o e.line e.key = .o then .o else .e, sharers := e.sharers ||| bit, owner := BitVec.ofNat 2 o }
    | none => { e with st := .s, sharers := e.sharers ||| bit }

/-- A transaction ends when the answers have come and the requester has its data; the next request is served (R362). -/
def State.closeRequest (s : State) (line key : Nat) : State :=
  let e := s.entry line key
  match e.req with
  | some (a, m) =>
    let st := s.l2st (agentDie a) line key
    if e.st = .busy ∧ e.acks = 0 ∧ ¬ e.priv ∧ (if m then st = .m else st ≠ .i) then
      (s.setEntry (s.served e (agentDie a) m)).serveHeld line key
    else s
  | none => s

/-- GET_S (R364), of the die of agent a. -/
def execGetS (t a : Nat) (s : State) : Host.Outcome State Fault Refusal :=
  let st := s.l2st (agentDie a) (msgLine t) (msgKey t)
  if s.dieUp a && decide (st = .i ∨ st = .p) then .next (s.request (msgLine t) (msgKey t) (a, false)) else .next s

/-- GET_M (R364), of the die of agent a. -/
def execGetM (t a : Nat) (s : State) : Host.Outcome State Fault Refusal :=
  let st := s.l2st (agentDie a) (msgLine t) (msgKey t)
  if s.dieUp a && !decide (st = .m ∨ st = .e) then .next (s.request (msgLine t) (msgKey t) (a, true)) else .next s

/-- A line that a die has given up of itself; one that crosses a transaction is discarded by the home as stale, since the die
answers the forward from its buffer (R362). -/
def State.putLine (s : State) (t a : Nat) (from_ : L2State → Bool) : State :=
  let line := msgLine t
  let key := msgKey t
  let d := agentDie a
  if s.dieUp a && from_ (s.l2st d line key) then
    let busy := decide ((s.entry line key).st = .busy)
    let s := s.giveUp line key d
    if busy then s else s.restEntry line key
  else s

/-- PUT_E (R358, R363): a release of a line that is still clean. -/
def execPutE (t a : Nat) (s : State) : Host.Outcome State Fault Refusal :=
  .next (s.putLine t a fun x => decide (x = .e ∧ s.pendingMask (agentDie a) (msgLine t) (msgKey t) = 0))

/-- PUT_M (R358, R363): of a dirty line, which an E line with pending bytes in the L1s becomes. -/
def execPutM (t a : Nat) (s : State) : Host.Outcome State Fault Refusal :=
  .next (s.putLine t a fun x => decide (x = .m ∨ x = .o) || decide (x = .e ∧ s.pendingMask (agentDie a) (msgLine t) (msgKey t) ≠ 0))

/-- PUT_P (R358, R363). -/
def execPutP (t a : Nat) (s : State) : Host.Outcome State Fault Refusal := .next (s.putLine t a fun x => decide (x = .p))

/-- The transaction in progress on a line, when it is of a kind for a requester. -/
def State.serves (s : State) (line key a : Nat) (m : Bool) : Bool :=
  decide ((s.entry line key).st = .busy ∧ (s.entry line key).req = some (a, m))

/-- FWD_S (R364), to the owner o for the requester a: a clean owner keeps the line in S, a dirty one in O. -/
def execFwdS (t o a : Nat) (s : State) : Host.Outcome State Fault Refusal :=
  let line := msgLine t
  let key := msgKey t
  let d := agentDie o
  if s.serves line key a false && s.dieUp o && decide (s.ownerOf line key = some d) then
    let s := s.collectDie d line key
    match s.l2st d line key with
    | .e => .next (s.downgrade line key d .s)
    | .m => .next (s.downgrade line key d .o)
    | _ => .next s
  else .next s

/-- FWD_M (R364): the owner o gives the line up to the requester a. -/
def execFwdM (t o a : Nat) (s : State) : Host.Outcome State Fault Refusal :=
  let line := msgLine t
  let key := msgKey t
  let d := agentDie o
  if s.serves line key a true && s.dieUp o && decide (s.ownerOf line key = some d ∧ d ≠ agentDie a) then .next (s.giveUp line key d)
  else .next s

/-- INV (R364): a sharer drops its copy. -/
def execInv (t a : Nat) (s : State) : Host.Outcome State Fault Refusal :=
  let line := msgLine t
  let key := msgKey t
  let d := agentDie a
  let e := s.entry line key
  let asked := match e.req with | some (r, true) => decide (agentDie r ≠ d) && e.sharers.getLsbD d | _ => false
  if asked && s.dieUp a && decide (s.l2st d line key = .s) then .next (s.giveUp line key d) else .next s

/-- A die drops a line for the home and returns its dirty bytes (R361, R365). -/
def State.dropFor (s : State) (t a : Nat) : State :=
  let line := msgLine t
  let key := msgKey t
  let d := agentDie a
  if s.dieUp a && decide (s.l2st d line key ≠ .i) && decide ((s.entry line key).st ≠ .busy) then
    (s.giveUp line key d).restEntry line key
  else s

/-- BACK_INV (R361). -/
def execBackInv (t a : Nat) (s : State) : Host.Outcome State Fault Refusal := .next (s.dropFor t a)

/-- RECALL (R365). -/
def execRecall (t a : Nat) (s : State) : Host.Outcome State Fault Refusal := .next (s.dropFor t a)

/-- DATA (R364): the requester a receives the line in the state that is granted: M once every answer has come, S beside others, E
alone. -/
def execData (t a : Nat) (m : Bool) (s : State) : Host.Outcome State Fault Refusal :=
  let line := msgLine t
  let key := msgKey t
  let d := agentDie a
  let e := s.entry line key
  let owned := ((s.holdersOf line key).filter fun k => decide (k ≠ d)).any fun k =>
    decide (s.l2st k line key = .e ∨ s.l2st k line key = .m)
  if !s.serves line key a m || !s.dieUp a || e.priv || (if m then decide (e.acks ≠ 0) else owned) then .next s
  else
    let s := s.homeData line key
    let st := if m then L2State.m else if e.sharers &&& ~~~ BitVec.twoPow 4 d = 0 then L2State.e else L2State.s
    let s := if m || decide (s.l2st d line key = .i) then s.setL2st d line key st else s
    .next (s.closeRequest line key)

/-- INV_ACK (R364): a die that the entry names and that holds nothing any more. -/
def execInvAck (t a : Nat) (s : State) : Host.Outcome State Fault Refusal :=
  let line := msgLine t
  let key := msgKey t
  let d := agentDie a
  let e := s.entry line key
  let asked := match e.req with | some (r, true) => decide (agentDie r ≠ d) | _ => false
  if asked && s.dieUp a && decide (e.st = .busy ∧ 0 < e.acks ∧ s.l2st d line key = .i) && e.sharers.getLsbD d then
    .next ((s.setEntry { e with sharers := e.sharers &&& ~~~ BitVec.twoPow 4 d, acks := e.acks - 1 }).closeRequest line key)
  else .next s

/-- FWD_ACK (R364): the owner that was named has forwarded the line; for GetS it still holds it. -/
def execFwdAck (t a : Nat) (s : State) : Host.Outcome State Fault Refusal :=
  let line := msgLine t
  let key := msgKey t
  let d := agentDie a
  let e := s.entry line key
  let gone := decide (s.l2st d line key ≠ .e ∧ s.l2st d line key ≠ .m)
  if s.dieUp a && decide (e.st = .busy ∧ 0 < e.acks ∧ e.owner.toNat = d) && e.sharers.getLsbD d && gone then
    match e.req with
    | some (r, true) =>
      if agentDie r ≠ d ∧ s.l2st d line key = .i then
        .next ((s.setEntry { e with sharers := e.sharers &&& ~~~ BitVec.twoPow 4 d, acks := e.acks - 1 }).closeRequest line key)
      else .next s
    | some (_, false) => .next ((s.setEntry { e with acks := e.acks - 1 }).closeRequest line key)
    | none => .next s
  else .next s

/-! ### Privatised lines (R366, R367) -/

/-- The working dies whose masks a home has asked for: those that requested the contended line (R366). -/
def State.maskDies (s : State) (e : DirEntry) : List Nat :=
  ((e.moves.map (·.2)).eraseDups).filter fun d => !s.dieFailed.getLsbD d

/-- MASK_REQ (R366, R367), of the die of agent a: a P holder asks for the bytes of a write, which the home grants or merges; a die
answers the home's request on a contended line with the bytes of its pending writes. -/
def execMaskReq (t a : Nat) (m : BitVec 128) (s : State) : Host.Outcome State Fault Refusal :=
  let line := msgLine t
  let key := msgKey t
  let d := agentDie a
  let e := s.entry line key
  if !s.dieUp a then .next s
  else if s.l2st d line key = .p then .next (s.getModified line key d m)
  else if e.priv && decide (e.st = .busy ∧ d ∈ s.maskDies e ∧ m = s.pendingMask d line key) && !e.masks.any fun x => decide (x.1 = d)
  then .next (s.setEntry { e with masks := e.masks ++ [(d, m)] })
  else .next s

/-- MASK_GRANT (R366): once every die that was asked has answered, disjoint masks privatise the line, each die with its own mask and
the union of the others'; masks that are not disjoint leave it under R364. -/
def execMaskGrant (t a : Nat) (s : State) : Host.Outcome State Fault Refusal :=
  let line := msgLine t
  let key := msgKey t
  let d := agentDie a
  let e := s.entry line key
  if !e.priv || decide (e.st ≠ .busy) || !(s.maskDies e).all (fun k => e.masks.any fun x => decide (x.1 = k)) then .next s
  else if !disjoint e.masks then .next (s.setEntry { e with priv := false, masks := [] })
  else match e.masks.find? fun x => decide (x.1 = d) with
    | none => .next s
    | some x =>
      let foreign := (e.masks.filter fun y => decide (y.1 ≠ d)).foldl (fun m y => m ||| y.2) (0 : BitVec 128)
      let clk : Vector Clocks 4 := Vector.ofFn fun p => s.homeClocks p.val line key
      let s := (s.homeData line key).setL2 { die := d, line := line, key := key, st := .p, own := x.2, foreign := foreign, clk := clk }
      if e.masks.all fun y => decide (s.l2st y.1 line key = .p) then
        .next ((s.setEntry { e with
          st := .p, priv := true, req := none, acks := 0, masks := [], moves := [],
          sharers := dieBits (s.holdersOf line key) }).serveHeld line key)
      else .next s

/-- MASK_UPD (R367): a P holder learns of bytes that another P holder has been granted. -/
def execMaskUpd (t a : Nat) (m : BitVec 128) (s : State) : Host.Outcome State Fault Refusal :=
  let line := msgLine t
  let key := msgKey t
  let d := agentDie a
  let x := s.l2line d line key
  if s.dieUp a ∧ x.st = .p ∧ m &&& ~~~ s.takenMask d line key = 0 then .next (s.setL2 { x with foreign := x.foreign ||| m })
  else .next s

/-! ### Errors and failures -/

/-- A service record joins the ring of 4,096 (R416); its count is that of the events of its kind on its unit. -/
def State.service (s : State) (kind result unit pa : Nat) : State :=
  let old := (s.mgmt.records.filter fun r => decide (r.kind = kind ∧ r.unit = unit)).foldl (fun m r => max m r.count) 0
  let r : ServiceRec := { time := s.time, kind := kind, result := result, unit := unit, pa := pa, count := old + 1 }
  let all := s.mgmt.records ++ [r]
  { s with mgmt := { s.mgmt with records := all.drop (all.length - 4096) } }

/-- Blocks on some cores are to move by pre-emption (R18, R415). -/
def State.migrate (s : State) (cores : Nat → Bool) : State :=
  { s with blocks := s.blocks.map fun b => if cores b.core ∧ b.stop.isNone then { b with stop := some s.time } else b }

/-- The positions of deterministic launches that lost cores held pass to the next working core in the order (R319). -/
def State.repositioned (s : State) : State :=
  { s with launches := s.launches.map fun L =>
      let ws := s.workingCores L.part
      let next (c : Nat) : Nat := ((ws.find? fun w => decide (c < w)).orElse fun _ => ws.head?).getD c
      { L with positions := L.positions.map fun c => if c ∈ ws then c else next c } }

/-- The dirty bytes of lines that a failed part held in L1s are lost: their pieces are poisoned (R18, R112, R372). -/
def State.loseDirty (s : State) (xs : List L1Line) (src : BitVec 2) : State :=
  xs.foldl (fun s x => if x.dirty = 0 then s else s.poison x.line x.key (somePieces x.dirty) src) s

/-- DIE_FAILURE (R370): the die is marked failed, its caches are gone, its blocks move; entries that name it are settled when
they are touched. What atomics on their way have still to do is done first (log 53). -/
def execDieFailure (d : Nat) (s : State) : Host.Outcome State Fault Refusal :=
  if 4 ≤ d ∨ s.dieFailed.getLsbD d then .next s
  else
    let s := s.drainMaus
    let s := s.loseDirty (s.l1.filter fun x => decide (x.cluster / 8 = d)) 1
    let s : State := { s with
      dieFailed := s.dieFailed ||| BitVec.twoPow 4 d
      l1 := s.l1.filter fun x => decide (x.cluster / 8 ≠ d)
      tlb := s.tlb.filter fun t => decide (dieOf t.core ≠ d)
      tables := s.tables.filter fun t => decide (t.die ≠ d) }
    .next (((s.migrate fun c => decide (dieOf c = d)).repositioned).service 6 2 d 0)

/-- DIE_READMIT (R370): every entry that names the die is settled first; it rejoins with empty caches and its next
incarnation. -/
def execDieReadmit (d : Nat) (s : State) : Host.Outcome State Fault Refusal :=
  if d < 4 ∧ s.dieFailed.getLsbD d then
    let s := s.drainMaus
    let s := s.dir.foldl (fun s e => (s.settle e.line e.key).serveHeld e.line e.key) s
    let s : State := { s with
      dieFailed := s.dieFailed &&& ~~~ BitVec.twoPow 4 d
      dieInc := vset s.dieInc d (vget s.dieInc d 0 + 1)
      l1 := s.l1.filter fun x => decide (x.cluster / 8 ≠ d)
      l2 := s.l2.filter fun x => decide (x.die ≠ d) }
    .next (s.service 6 1 d 0)
  else .next s

/-- UNCORRECTABLE_ERROR (R372, R415): pieces of a line of this device's memory are poisoned with source 3. -/
def execUncorrectableError (line : Nat) (pieces : BitVec 16) (s : State) : Host.Outcome State Fault Refusal :=
  if s.local (line * 128) ∧ offOf (line * 128) < hbmLimit ∧ pieces ≠ 0 then
    .next ((s.drainMaus.poisonAll line pieces 3).service 7 3 (sliceOf line) (line * 128))
  else .next s

/-- L1_SLICE_FAILURE (R112, R372): the slice cannot give up its dirty bytes, whose pieces are poisoned with source 3; its lines
are gone, and the next working position serves them from then on. -/
def execL1SliceFailure (cluster pos : Nat) (s : State) : Host.Outcome State Fault Refusal :=
  if cluster < 32 ∧ pos < 8 ∧ (cluster, pos) ∉ s.mgmt.l1Out then
    let s := s.drainMaus
    let xs := s.sliceLines cluster pos
    let s := s.loseDirty xs 3
    .next { s with
      l1 := s.l1.filter fun x => !decide (x ∈ xs)
      mgmt := { s.mgmt with l1Out := (cluster, pos) :: s.mgmt.l1Out } }
  else .next s

end Sys2Proof.Machine
end

