-- ==== Sys2Proof/Machine/Inflate.lean ====
section
/-! DEFINITION. Raw DEFLATE of RFC 1951, in which frames of method 1 hold their records (R387). -/

namespace Sys2Proof.Machine

/-- The bits of bytes, each byte's least significant bit first. -/
def bitsOf (bs : List Byte) : List Bool := bs.flatMap fun b => (List.range 8).map fun i => b.getLsbD i

/-- A number of n bits, least significant first. -/
def takeBits : Nat → List Bool → Option (Nat × List Bool)
  | 0, bs => some (0, bs)
  | _ + 1, [] => none
  | n + 1, b :: t => (takeBits n t).map fun r => ((if b then 1 else 0) + 2 * r.1, r.2)

/-- The symbols of a canonical code, those of each code length in order. -/
def symbolsAt (lens : List Nat) (len : Nat) : List Nat := (List.range lens.length).filter fun i => decide (lens.getD i 0 = len)

/-- One symbol of a canonical code: code is what has been read of it, first the first code of this length. -/
def decodeFrom (lens : List Nat) : Nat → Nat → Nat → Nat → List Bool → Option (Nat × List Bool)
  | 0, _, _, _, _ => none
  | _ + 1, _, _, _, [] => none
  | fuel + 1, len, code, first, b :: t =>
    let code := 2 * code + if b then 1 else 0
    let first := 2 * first
    let syms := symbolsAt lens len
    if code < first then none
    else match syms[code - first]? with
      | some x => some (x, t)
      | none => decodeFrom lens fuel (len + 1) code (first + syms.length) t

/-- One symbol of the code with given lengths. -/
def decodeSym (lens : List Nat) (bs : List Bool) : Option (Nat × List Bool) := decodeFrom lens 15 1 0 0 bs

/-- A code over-subscribes its lengths, which RFC 1951 does not allow. -/
def overSubscribed (lens : List Nat) : Bool :=
  decide (2 ^ 15 < ((List.range 15).map fun i => (symbolsAt lens (i + 1)).length * 2 ^ (14 - i)).sum)

/-- The base lengths and extra bits of length symbols 257 to 285. -/
def lengthBase : List Nat :=
  [3, 4, 5, 6, 7, 8, 9, 10, 11, 13, 15, 17, 19, 23, 27, 31, 35, 43, 51, 59, 67, 83, 99, 115, 131, 163, 195, 227, 258]
def lengthExtra : List Nat := [0, 0, 0, 0, 0, 0, 0, 0, 1, 1, 1, 1, 2, 2, 2, 2, 3, 3, 3, 3, 4, 4, 4, 4, 5, 5, 5, 5, 0]

/-- The base distances and extra bits of distance symbols 0 to 29. -/
def distBase : List Nat :=
  [1, 2, 3, 4, 5, 7, 9, 13, 17, 25, 33, 49, 65, 97, 129, 193, 257, 385, 513, 769, 1025, 1537, 2049, 3073, 4097, 6145, 8193,
   12289, 16385, 24577]
def distExtra : List Nat :=
  [0, 0, 0, 0, 1, 1, 2, 2, 3, 3, 4, 4, 5, 5, 6, 6, 7, 7, 8, 8, 9, 9, 10, 10, 11, 11, 12, 12, 13, 13]

/-- n bytes copied from a distance back; the output stands last byte first. -/
def copyBack (dist : Nat) : Nat → List Byte → Option (List Byte)
  | 0, out => some out
  | n + 1, out => match out[dist - 1]? with
    | some b => copyBack dist n (b :: out)
    | none => none

/-- The symbols of a compressed block up to its end; the output stands last byte first. -/
def inflateCodes (lit dst : List Nat) : Nat → List Bool → List Byte → Option (List Byte × List Bool)
  | 0, _, _ => none
  | fuel + 1, bs, out =>
    match decodeSym lit bs with
    | none => none
    | some (x, bs) =>
      if x < 256 then inflateCodes lit dst fuel bs (BitVec.ofNat 8 x :: out)
      else if x = 256 then some (out, bs)
      else do
        let base ← lengthBase[x - 257]?
        let extra ← takeBits (lengthExtra.getD (x - 257) 0) bs
        let d ← decodeSym dst extra.2
        let dbase ← distBase[d.1]?
        let dextra ← takeBits (distExtra.getD d.1 0) d.2
        let out ← copyBack (dbase + dextra.1) (base + extra.1) out
        inflateCodes lit dst fuel dextra.2 out

/-- The lengths of the fixed codes. -/
def fixedLit : List Nat := List.replicate 144 8 ++ List.replicate 112 9 ++ List.replicate 24 7 ++ List.replicate 8 8
def fixedDist : List Nat := List.replicate 30 5

/-- The order of the code lengths of the code length code. -/
def lengthOrder : List Nat := [16, 17, 18, 0, 8, 7, 9, 6, 10, 5, 11, 4, 12, 3, 13, 2, 14, 1, 15]

/-- n numbers of three bits. -/
def threeBits : Nat → List Bool → Option (List Nat × List Bool)
  | 0, bs => some ([], bs)
  | n + 1, bs => do
    let x ← takeBits 3 bs
    let r ← threeBits n x.2
    some (x.1 :: r.1, r.2)

/-- Code lengths up to a total, written with the code length code. -/
def readLengths (code : List Nat) (total : Nat) : Nat → List Bool → List Nat → Option (List Nat × List Bool)
  | 0, _, _ => none
  | fuel + 1, bs, acc =>
    if acc.length = total then some (acc, bs)
    else if total < acc.length then none
    else do
      let x ← decodeSym code bs
      if x.1 < 16 then readLengths code total fuel x.2 (acc ++ [x.1])
      else if x.1 = 16 then do
        let last ← acc.getLast?
        let r ← takeBits 2 x.2
        readLengths code total fuel r.2 (acc ++ List.replicate (3 + r.1) last)
      else if x.1 = 17 then do
        let r ← takeBits 3 x.2
        readLengths code total fuel r.2 (acc ++ List.replicate (3 + r.1) 0)
      else do
        let r ← takeBits 7 x.2
        readLengths code total fuel r.2 (acc ++ List.replicate (11 + r.1) 0)

/-- The codes of a dynamic block. -/
def dynamicCodes (bs : List Bool) : Option ((List Nat × List Nat) × List Bool) := do
  let hlit ← takeBits 5 bs
  let hdist ← takeBits 5 hlit.2
  let hclen ← takeBits 4 hdist.2
  let raw ← threeBits (hclen.1 + 4) hclen.2
  let code := (List.range 19).map fun i =>
    match (List.range (hclen.1 + 4)).find? fun k => decide (lengthOrder.getD k 19 = i) with
    | some k => raw.1.getD k 0
    | none => 0
  let n := hlit.1 + 257
  let all ← readLengths code (n + hdist.1 + 1) 400 raw.2 []
  if overSubscribed code || overSubscribed (all.1.take n) || overSubscribed (all.1.drop n) then none
  else some ((all.1.take n, all.1.drop n), all.2)

/-- The bytes of a stored block. -/
def storedBytes : Nat → List Bool → List Byte → Option (List Byte × List Bool)
  | 0, bs, out => some (out, bs)
  | n + 1, bs, out => do
    let x ← takeBits 8 bs
    storedBytes n x.2 (BitVec.ofNat 8 x.1 :: out)

/-- One block: whether it is the last, the output, what is left. -/
def inflateBlock (bs : List Bool) (out : List Byte) : Option (Bool × List Byte × List Bool) := do
  let last ← takeBits 1 bs
  let typ ← takeBits 2 last.2
  let fuel := bs.length
  match typ.1 with
  | 0 =>
    let n ← takeBits 16 (typ.2.drop (typ.2.length % 8))
    let m ← takeBits 16 n.2
    if n.1 + m.1 ≠ 65535 then none
    else
      let r ← storedBytes n.1 m.2 out
      some (decide (last.1 = 1), r.1, r.2)
  | 1 =>
    let r ← inflateCodes fixedLit fixedDist fuel typ.2 out
    some (decide (last.1 = 1), r.1, r.2)
  | 2 =>
    let c ← dynamicCodes typ.2
    let r ← inflateCodes c.1.1 c.1.2 fuel c.2 out
    some (decide (last.1 = 1), r.1, r.2)
  | _ => none

/-- Blocks up to the last. -/
def inflateBlocks : Nat → List Bool → List Byte → Option (List Byte)
  | 0, _, _ => none
  | fuel + 1, bs, out => match inflateBlock bs out with
    | some (true, out, _) => some out.reverse
    | some (false, out, bs) => inflateBlocks fuel bs out
    | none => none

/-- The bytes that a raw DEFLATE stream holds. -/
def inflate (bs : List Byte) : Option (List Byte) := inflateBlocks (8 * bs.length) (bitsOf bs) []

end Sys2Proof.Machine
end

