-- ==== Sys2Proof/Machine/ReplayLog.lean ====
section
/-! DEFINITION. Reading a session's frames and records (R385-R387, R391, R428). -/

namespace Sys2Proof.Machine

/-! ### Fields -/

/-- n bytes as a number. -/
def getN (n : Nat) (bs : List Byte) : Option (Nat × List Byte) :=
  if bs.length < n then none else some (fieldAt bs 0 n, bs.drop n)

/-- A V field of at most n bytes (R385). -/
def getV' : Nat → List Byte → Option (Nat × List Byte)
  | 0, _ => none
  | _ + 1, [] => none
  | n + 1, b :: t =>
    if b.toNat < 128 then some (b.toNat, t) else (getV' n t).map fun r => (b.toNat % 128 + 128 * r.1, r.2)

/-- A V field. -/
def getV (bs : List Byte) : Option (Nat × List Byte) := getV' 10 bs

/-- The number that a Z field holds. -/
def unZ (v : Nat) : Int := if v % 2 = 0 then (v / 2 : Nat) else -((v / 2 : Nat) : Int) - 1

/-- n items. -/
def getMany {α : Type} (f : List Byte → Option (α × List Byte)) : Nat → List Byte → Option (List α × List Byte)
  | 0, bs => some ([], bs)
  | n + 1, bs => match f bs with
    | some (x, t) => (getMany f n t).map fun r => (x :: r.1, r.2)
    | none => none

/-- Two fields. -/
def getPair (f g : List Byte → Option (Nat × List Byte)) (bs : List Byte) : Option ((Nat × Nat) × List Byte) :=
  match f bs with
  | some (x, t) => (g t).map fun r => ((x, r.1), r.2)
  | none => none

/-! ### Records: clocks still as the deltas that the records hold, a chunk's count as DCNT + 65,536 -/

/-- A chunk record after its kind (R385). -/
def getChunk (bs : List Byte) : Option (LogRec × List Byte) := do
  let fl ← getN 1 bs
  let ln ← getV fl.2
  let bl ← getV ln.2
  let ga ← getN 1 bl.2
  let cs ← getV ga.2
  let dclk ← getV cs.2
  let dcnt ← getV dclk.2
  let nclk ← getV dcnt.2
  let ntrap ← getV nclk.2
  let ndep ← getV ntrap.2
  let nfab ← getV ndep.2
  let clks ← getMany (getN 8) nclk.1 nfab.2
  let traps ← getMany (getPair getV (getN 1)) ntrap.1 clks.2
  let deps ← getMany (getPair (getN 4) getV) ndep.1 traps.2
  let fab ← getMany (getPair getV (getN 4)) nfab.1 deps.2
  let dig ← if fl.1.testBit 2 then (getN 8 fab.2).map fun r => (some (BitVec.ofNat 64 r.1), r.2) else some (none, fab.2)
  if 8 ≤ fl.1 then none
  else some (.chunk ln.1 bl.1 ga.1 cs.1 dclk.1 (unZ dcnt.1 + 65536).toNat (fl.1 % 4) (clks.1.map (BitVec.ofNat 64 ·)) traps.1
    (fab.1.map fun x => (x.1, BitVec.ofNat 32 x.2)) dig.1, dig.2)

/-- A job step or a job end after its kind (R386). -/
def getJob (step : Bool) (bs : List Byte) : Option (LogRec × List Byte) := do
  let ln ← getV bs
  let bl ← getV ln.2
  let ga ← getN 1 bl.2
  let la ← getN 1 ga.2
  let sq ← getV la.2
  let pos ← if step then getV sq.2 else some (0, sq.2)
  let dclk ← getV pos.2
  let first ← if la.1.testBit 7 then (getV dclk.2).map fun r => (some r.1, r.2) else some (none, dclk.2)
  if la.1 / 32 % 4 ≠ 0 then none
  else if step then some (.jobStep ln.1 bl.1 ga.1 (la.1 % 32) sq.1 pos.1 dclk.1 first.1, first.2)
  else some (.jobEnd ln.1 bl.1 ga.1 (la.1 % 32) sq.1 dclk.1 first.1, first.2)

/-- A record of one of the other kinds (R386). -/
def getOther (kind : Nat) (bs : List Byte) : Option (LogRec × List Byte) :=
  match kind with
  | 4 => do
    let ln ← getV bs
    let k ← getV ln.2
    let st ← getV k.2
    some (.drain ln.1 k.1 st.1, st.2)
  | 5 => do
    let src ← getN 1 bs
    let pl ← getN 1 src.2
    let ag ← getN 4 pl.2
    let ms ← getN 4 ag.2
    let st ← getV ms.2
    some (.arrival src.1 pl.1 (BitVec.ofNat 32 ag.1) (BitVec.ofNat 32 ms.1) st.1, st.2)
  | 6 => do
    let ln ← getV bs
    let q ← getN 1 ln.2
    let pk ← getV q.2
    let ad ← getN 16 pk.2
    let lb ← getV ad.2
    some (.begin ln.1 q.1 pk.1 (BitVec.ofNat 72 ad.1) lb.1, lb.2)
  | 7 => do
    let ln ← getV bs
    let st ← getN 1 ln.2
    some (.finish ln.1 st.1, st.2)
  | _ => none

/-- A record. -/
def getRecord (bs : List Byte) : Option (LogRec × List Byte) :=
  match bs with
  | [] => none
  | k :: t => match k.toNat with
    | 1 => getChunk t
    | 2 => getJob true t
    | 3 => getJob false t
    | n => getOther n t

/-- The records of a frame's body: they end where nothing but zero padding is left. -/
def getRecords : Nat → List Byte → Option (List LogRec)
  | 0, _ => none
  | fuel + 1, bs =>
    if bs.all (· = 0) then some []
    else match getRecord bs with
      | some (r, t) => (getRecords fuel t).map (r :: ·)
      | none => none

/-! ### Frames -/

/-- The records of one frame, with its method (R387, R428): none where its header, its length or its CRC is wrong, or where it
is not its source's next. -/
def frameRecords (seqs : Nat → Nat) (bs : List Byte) : Option (Nat × Nat × List LogRec) :=
  let n := fieldAt bs 0 4
  let src := fieldAt bs 4 2
  let method := fieldAt bs 6 1
  let body := (bs.take n).drop 16
  if n < 16 ∨ n % 64 ≠ 0 ∨ 65536 < n ∨ bs.length < n ∨ 36 < src ∨ ¬ zeroAt bs 7 1
      ∨ fieldAt bs 8 4 ≠ seqs src ∨ fieldAt bs 12 4 ≠ (crc32 body).toNat then none
  else match method with
    | 0 => (getRecords (body.length + 1) body).map fun rs => (n, src, rs)
    | 1 => (inflate body).bind fun x => (getRecords (x.length + 1) x).map fun rs => (n, src, rs)
    | 2 => if body.all (· = 0) then some (n, src, []) else none
    | _ => none

/-- Every frame of a buffer, in order. -/
def frames : Nat → (Nat → Nat) → List Byte → Option (List LogRec)
  | 0, _, _ => none
  | fuel + 1, seqs, bs =>
    if bs.isEmpty then some []
    else match frameRecords seqs bs with
      | some (n, src, rs) =>
        (frames fuel (fun k => if k = src then seqs k + 1 else seqs k) (bs.drop n)).map (rs ++ ·)
      | none => none

/-! ### Clocks -/

/-- Where a record stands among its job's: by position, its end last. -/
def LogRec.rank : LogRec → Nat
  | .jobStep _ _ _ _ _ pos _ _ => pos
  | .jobEnd _ _ _ _ _ _ _ => 2 ^ 128
  | _ => 0

/-- The records with each job's in their order. -/
def inOrder (rs : List LogRec) : List LogRec := (sortedBy (rs.map fun r => (r.rank, r))).map (·.2)

/-- LBASE of a launch. -/
def lbaseOf (rs : List LogRec) (n : Nat) : Nat :=
  (rs.findSome? fun r => match r with | .begin ln _ _ _ lb => if ln = n then some lb else none | _ => none).getD 0

/-- DCLK of a chunk of a gang up to a sequence number. -/
def LogRec.chunkDelta (n b g c : Nat) : LogRec → Nat
  | .chunk ln bl ga cs d _ _ _ _ _ _ => if ln = n ∧ bl = b ∧ ga = g ∧ cs ≤ c then d else 0
  | _ => 0

/-- The job that a record belongs to, its DCLK and its FCLK. -/
def LogRec.jobFields : LogRec → Option (List Nat × Nat × Option Nat)
  | .jobStep ln bl ga la sq _ d f => some ([ln, bl, ga, la, sq], d, f)
  | .jobEnd ln bl ga la sq d f => some ([ln, bl, ga, la, sq], d, f)
  | _ => none

/-- What a record adds to the clock of a job: DCLK and FCLK. -/
def LogRec.jobDelta (n b g l q : Nat) (r : LogRec) : Nat :=
  match r.jobFields with
  | some (x, d, f) => if x = [n, b, g, l, q] then d + f.getD 0 else 0
  | none => 0

/-- A record with its absolute clocks (R385, R386); i is its place. -/
def absolute (rs : List LogRec) (i : Nat) (r : LogRec) : LogRec :=
  let job (n b g l q : Nat) : Nat := lbaseOf rs n + ((rs.take (i + 1)).map (LogRec.jobDelta n b g l q)).sum
  match r with
  | .chunk n b g c _ k e clks traps fab dig =>
    .chunk n b g c (lbaseOf rs n + (rs.map (LogRec.chunkDelta n b g c)).sum) k e clks traps fab dig
  | .jobStep n b g l q pos _ f => .jobStep n b g l q pos (job n b g l q) (f.map (lbaseOf rs n + ·))
  | .jobEnd n b g l q _ f => .jobEnd n b g l q (job n b g l q) (f.map (lbaseOf rs n + ·))
  | r => r

/-- The log that a buffer of frames holds, if it is well formed (R428). -/
def readLog (bs : List Byte) : Option (List LogRec) :=
  (frames (bs.length + 1) (fun _ => 0) bs).map fun rs =>
    let rs := inOrder rs
    rs.mapIdx fun i r => absolute rs i r

end Sys2Proof.Machine
end

