-- ==== Sys2Proof/Machine/Replay.lean ====
section
/-! DEFINITION. Record sessions (R388-R390), replay: its start, its holds, its stops and its end (R391-R398, R428). -/

namespace Sys2Proof.Machine

/-! ### Sessions -/

/-- A session notice for every device that can be reached (R412): its session start as device time, and its HWM (log 15). -/
def State.sendNotices (s : State) (p : Nat) : State :=
  ((List.range 256).filter fun d => decide (d ≠ s.devId.toNat) && !(s.linksTo d).isEmpty).foldl (fun s d =>
    s.fabricSend { FabMsg.plain 8 d 0 0 with
      clk := BitVec.ofNat 32 (s.part p).hwm, data := BitVec.ofNat 1024 s.time }) s

/-- A session starts (R377, R388): every clock field of the partition is 0 with agent "none", and the ring is empty. -/
def State.startSession (s : State) (p : Nat) : State :=
  let zero (v : Vector Clocks 4) : Vector Clocks 4 := vset v p Clocks.none
  let s : State := { s with
    l3 := s.l3.map fun x => { x with clk := zero x.clk }
    l2 := s.l2.map fun x => { x with clk := zero x.clk }
    remote := s.remote.map fun x => { x with clk := zero x.clk }
    floor := s.floor.filter fun x => decide (x.1 ≠ p) }
  (s.modPart p fun P => { P with
    rrEn := true, rrHead := 0, rrTail := 0, rrStalled := false, rrClockEnd := false, rrWrapped := false, rrLost := 0, hwm := 0,
    lnums := 0, frames := [] }).sendNotices p

/-- A write of RRCTL (R388, R389), ignored while a queue of the partition is not stopped. -/
def State.writeRrctl (s : State) (p : Nat) (v : BitVec 64) : State :=
  if !(s.part p).idle then s
  else
    let n := v.extractLsb' 1 6
    let was := (s.part p).rrEn
    let s := s.modPart p fun P => { P with rrLog2sz := n, rrMode := v.getLsbD 7, rrDigest := v.getLsbD 8 }
    if v.getLsbD 0 then
      if !was && decide (26 ≤ n.toNat) && decide (n.toNat ≤ 36) && decide ((s.part p).rrBase.toNat % 2 ^ n.toNat = 0) then
        s.startSession p
      else s
    else if was then s.endSession p false
    else s

/-- SESSION_START (R388): a write of RRCTL with EN = 1. -/
def execSessionStart (p : Nat) (v : BitVec 64) (s : State) : Host.Outcome State Fault Refusal :=
  if p < partsOf s.code ∧ v.getLsbD 0 then .next (s.writeRrctl p v) else .next s

/-- SESSION_END (R388): a write of RRCTL with EN = 0. -/
def execSessionEnd (p : Nat) (v : BitVec 64) (s : State) : Host.Outcome State Fault Refusal :=
  if p < partsOf s.code ∧ ¬ v.getLsbD 0 then .next (s.writeRrctl p v) else .next s

/-- CHUNK_END (R382, R392): a gang has executed its chunk's instructions. -/
def execChunkEnd (u g : Nat) (s : State) : Host.Outcome State Fault Refusal :=
  if s.chunkDue u g then .next (s.endByCount u g) else .next s

/-- FRAME_CLOSE (R387). -/
def execFrameClose (p src : Nat) (s : State) : Host.Outcome State Fault Refusal :=
  if p < partsOf s.code then .next (s.closeFrame p src) else .next s

/-- CLOCK_END (R390): the next clock would pass the limit. -/
def execClockEnd (p : Nat) (s : State) : Host.Outcome State Fault Refusal :=
  if (s.part p).rrEn ∧ clockLimit < (s.part p).hwm + 1 then .next (s.endSession p true) else .next s

/-! ### Starting a replay -/

/-- A logged launch: number, queue slot, packet, record address, LBASE. -/
structure LogLaunch where
  number : Nat
  queue : Nat
  packet : Nat
  addr : Wide
  lbase : Nat

/-- A launch-begin record. -/
def LogRec.beginOf : LogRec → Option LogLaunch
  | .begin n q k a lb => some ⟨n, q, k, a, lb⟩
  | _ => none

/-- The logged launches in their order. -/
def Partition.logged (P : Partition) : List LogLaunch :=
  (sortedBy ((P.rpLog.filterMap LogRec.beginOf).map fun x => (x.number, x))).map (·.2)

/-- A replayed launch of a partition, and whether one is still there. -/
def State.replayed (s : State) (p : Nat) : List Launch := s.launches.filter fun L => decide (L.part = p) && L.noQueue

/-- The chunk counts of a launch become absolute: DCNT is the count minus CHUNK (R385). -/
def LogRec.counted (n chunk : Nat) : LogRec → LogRec
  | .chunk ln b g c clock k e clks traps fab dig =>
    .chunk ln b g c clock (if ln = n then k + chunk - 65536 else k) e clks traps fab dig
  | r => r

/-- What a fault record says of a replay's dispatch (R350). -/
def replaySource (x : LogLaunch) : FaultSrc := queueSource x.queue 0

/-- The next logged launch is dispatched (R392): after a GO with FREE as an ordinary one (R398). A translation fault holds the
dispatch until FRESUME (R351); a launch whose record or COMPLETION cannot be reached is passed over (log 25). -/
def State.replayDispatch (s : State) (p : Nat) : State :=
  let P := s.part p
  match P.logged[P.rpNext]? with
  | none => s
  | some x =>
    let pass (s : State) : State := s.modPart p fun P => { P with rpNext := P.rpNext + 1 }
    let wait (s : State) (a : Nat) (y : Place) : State :=
      (s.virtFault p a y (replaySource x)).modPart p fun P => { P with rpParked := true }
    match s.virtRead p x.addr.toNat 512 ⟨true, false, false⟩ with
    | (s, .error .away) => s
    | (s, .error (.at a y)) => if y.parks then wait s a y else pass (s.virtFault p a y (replaySource x))
    | (s, .ok bs) => match s.completionPlace p bs with
      | (true, some (a, y)) => pass (s.virtFault p a y (replaySource x))
      | (true, none) => pass s
      | (false, some (a, y)) => wait s a y
      | (false, none) => match s.launchData p bs with
        | (s, none) => s
        | (s, some d) =>
          let id := s.nextId
          let s := s.dispatch p (64 + x.queue) x.packet 0 0 0 x.addr.toNat bs d (if P.rpLeft then none else some x.number) true
          let s := s.modLaunch id fun L => { L with lbase := x.lbase }
          let chunk := ((s.launch? id).map fun L => L.r.chunk).getD 8192
          pass (s.modPart p fun P => { P with rpLog := P.rpLog.map (LogRec.counted x.number chunk) })

/-- A partition's replay has a logged launch to dispatch that does not wait on a translation fault. -/
def State.mayDispatch (s : State) (p : Nat) : Bool :=
  let P := s.part p
  decide (P.rpState = 1 ∨ P.rpState = 5) && !P.rpParked && decide (P.rpNext < P.logged.length)

/-- The chunk that RPBRK names: the lowest-numbered replayed launch that has not completed and whose number has its bits 23:0
(R397). -/
def State.breakClock (s : State) (p : Nat) : Option Nat :=
  let P := s.part p
  let b := P.rpBreak
  let lin := (b.extractLsb' 0 64).toNat
  let g := (b.extractLsb' 64 8).toNat
  let cs := (b.extractLsb' 96 32).toNat
  let live (n : Nat) : Bool := (s.replayed p).any fun L => decide (L.number = some n)
  let later := (P.logged.drop P.rpNext).map (·.number)
  match P.logged.find? fun x =>
      decide (x.number % 2 ^ 24 = (b.extractLsb' 72 24).toNat) && (live x.number || decide (x.number ∈ later)) with
  | none => none
  | some x => match P.logChunk x.number lin g cs with
    | none => none
    | some (i, c) =>
      let begun := decide ((i, false) ∈ P.rpDone) || s.blocks.any fun k =>
        decide (k.lin = lin) && ((s.launch? k.launch).map fun L => decide (L.part = p ∧ L.number = some x.number)).getD false
          && ((k.gangs[g]?).map fun G => !G.held && decide (G.chunk.map (·.cseq) = some cs)).getD false
      if begun ∨ c.clock ≤ P.rpCut.toNat then none else some c.clock

/-- An armed breakpoint sets the cut (R397). -/
def State.armBreak (s : State) (p : Nat) : State :=
  if !(s.part p).rpBrk then s
  else match s.breakClock p with
    | some K => s.modPart p fun P => { P with rpStop := some K, rpMoved := false }
    | none => s

/-- The frame buffer, read without parking (R428); no answer while another device's bytes are under way (R410). A buffer longer
than the memory of every device is not readable. -/
def State.replayBuffer (s : State) (p : Nat) : State × Option (Option (List Byte)) :=
  let P := s.part p
  if 2 ^ 52 < P.rpLen.toNat then (s, some none) else s.namedRead p P.rpSrc.toNat P.rpLen.toNat

/-- A GO from idle or ended (R391, R428). -/
def State.startReplay (s : State) (p : Nat) : State :=
  let s := s.modPart p fun P => { P with rpGo := false }
  if !(s.part p).idle || (s.part p).rrEn then s
  else match s.replayBuffer p with
    | (s, none) => s.modPart p fun P => { P with rpGo := true }
    | (s, some bs) => match bs.bind readLog with
      | none => s.modPart p fun P => { P with rpSrcErr := true }
      | some rs => (s.modPart p fun P => { P with
          rpSrcErr := false, rpState := 1, rpLog := rs, rpDone := [], rpNext := 0, rpLeft := false, rpStop := none, rpHalt := none,
          rpParked := false, rpCut := 0, rpDiv := 0, rpMoved := false, rpDetail := List.replicate 48 0, hwm := 0 }).armBreak p

/-- A block without holds. -/
def Block.freed (b : Block) : Block :=
  { b with gangs := b.gangs.map Gang.freed, jobs := b.jobs.map fun j => { j with held := false } }

/-- A partition leaves replay (R398): its replayed launches go on as ordinary ones. -/
def State.leaveReplay (s : State) (p : Nat) : State :=
  let mine (b : Block) : Bool := match s.launch? b.launch with
    | some L => decide (L.part = p) && L.noQueue | none => false
  ({ s with
      blocks := s.blocks.map fun b => if mine b then { b.freed with stop := none } else b,
      launches := s.launches.map fun L => if L.part = p ∧ L.noQueue then
        { L with number := none, saved := L.saved.map fun x => (x.1.freed, x.2) } else L } : State).modPart p fun P =>
    { P with rpState := 1, rpLeft := true, rpStop := none, rpHalt := none }

/-- A write of GO (R428). -/
def State.writeGo (s : State) (p : Nat) : State :=
  let P := s.part p
  match P.rpState.toNat with
  | 0 => s.startReplay p
  | 4 => s.startReplay p
  | 2 => if P.rpFree then s.leaveReplay p
      else (s.modPart p fun P => { P with rpState := 1, rpStop := none, rpHalt := none }).armBreak p
  | 3 => if P.rpFree then s.leaveReplay p else s
  | _ => s

/-- A write of RPCTL (R391, R397, R428): FREE and BRK, a breakpoint that is no longer armed being dropped; GO; HALT, which sets
a cut at HWM + 1. -/
def State.writeRpctl (s : State) (p : Nat) (v : BitVec 64) : State :=
  let s := s.modPart p fun P => { P with
    rpFree := v.getLsbD 3, rpBrk := v.getLsbD 2, rpStop := if v.getLsbD 2 then P.rpStop else none }
  let s := if v.getLsbD 0 then s.writeGo p else s
  let running := decide ((s.part p).rpState = 1 ∨ (s.part p).rpState = 5) && !(s.part p).rpLeft
  if !running then s
  else
    let s := if v.getLsbD 1 then s.modPart p fun P => { P with rpHalt := some (P.hwm + 1), rpMoved := false } else s
    s.armBreak p

/-- GO (R428). -/
def execGo (p : Nat) (v : BitVec 64) (s : State) : Host.Outcome State Fault Refusal :=
  if p < partsOf s.code ∧ v.getLsbD 0 then .next (s.writeRpctl p v) else .next s

/-- HALT (R397). -/
def execHalt (p : Nat) (v : BitVec 64) (s : State) : Host.Outcome State Fault Refusal :=
  if p < partsOf s.code ∧ v.getLsbD 1 then .next (s.writeRpctl p v) else .next s

/-! ### RPSEAL (R398) -/

/-- The bytes of a version-1 engine image whose size agrees with its tile count, where all of it translates (R293, R398); no
answer while another device's bytes are under way (R410). -/
def State.sealImage (s : State) (p a : Nat) : State × Option (Option (List Byte)) :=
  match s.namedRead p a 9 with
  | (s, none) => (s, none)
  | (s, some none) => (s, some none)
  | (s, some (some h)) =>
    let n := fieldAt h 8 1
    let size := 0x1840 + n * 16384
    if fieldAt h 0 4 ≠ 1 ∨ 8 < n ∨ fieldAt h 4 4 ≠ size ∨ (s.virtCheck p a size ⟨true, true, false⟩).isSome then (s, some none)
    else s.namedRead p a size

/-- A write of RPSEAL (R398): at a stop, the check value of a good image is computed anew. -/
def State.writeRpseal (s : State) (p : Nat) (v : BitVec 128) : State :=
  let a := (v.setWidth 72).toNat
  let s := s.modPart p fun P => { P with rpSeal := none }
  match if (s.part p).rpState = 2 then s.sealImage p a else (s, some none) with
  | (s, none) => s.modPart p fun P => { P with rpSeal := some v }
  | (s, some none) => s.modPart p fun P => { P with rpSealErr := true }
  | (s, some (some bs)) =>
    (s.virtWrite p ((a + 0x38) % 2 ^ 72) (bytesOf 8 (Config.checkValue (bs.take 0x38 ++ bs.drop 0x40)).toNat)).modPart p fun P =>
      { P with rpSealErr := false }

/-- RPSEAL (R398). -/
def execRpseal (p : Nat) (v : BitVec 128) (s : State) : Host.Outcome State Fault Refusal :=
  if p < partsOf s.code then .next (s.writeRpseal p v) else .next s

/-! ### Holds (R390, R392) -/

/-- A held gang may go on: in replay when its chunk's clock is clear, in a recording when its source keeps few enough frames. -/
def State.gangReleased (s : State) (u g : Nat) : Bool :=
  match s.block? u, s.launchOf u, s.gang? u g with
  | some b, some L, some G => G.held && (match G.chunk with
    | none => true
    | some c => match s.replayOf u with
      | some P => P.mayStart c.clock
      | none => !((s.part L.part).frame (clusterOf b.core)).full)
  | _, _, _ => false

/-- A held job may go on: when the clock that it waits for is clear. -/
def State.jobReleased (s : State) (u : Nat) (j : Job) : Bool :=
  j.held && match s.replayOf u, s.jobClock u j with
    | some P, some C => P.mayStart C (s.eventChunk u j.gang)
    | _, _ => true

/-- What begins at a clock in a replay raises the high-water clock (R379, R397). -/
def State.beginAt (s : State) (u C : Nat) : State :=
  match s.replayOf u, s.launchOf u with
  | some _, some L => s.raiseHwm L.part C
  | _, _ => s

/-- A job's next segment begins (R392). -/
def State.releaseJob (s : State) (u : Nat) (j : Job) : State :=
  match s.jobClock u j with
  | some C =>
    ((s.modJob u j.id fun x => { x with held := false, step := x.step + 1, prevClock := x.clock, clock := C }).jobSettle u j.id).beginAt u C
  | none => s.modJob u j.id fun x => { x with held := false }

/-- A held gang's chunk begins (R392). -/
def State.releaseGang (s : State) (u g : Nat) : State :=
  let s := s.modGang u g fun G => { G with held := false }
  match (s.gang? u g).bind (·.chunk) with
  | some c => s.beginAt u c.clock
  | none => s

/-- CHUNK_HOLD_RELEASE (R392): a gang, and the jobs that it issued, go on where their clocks are clear. -/
def execChunkHoldRelease (u g : Nat) (s : State) : Host.Outcome State Fault Refusal :=
  match s.block? u with
  | none => .next s
  | some b =>
    let s := if s.gangReleased u g then s.releaseGang u g else s
    .next ((b.jobs.filter fun j => decide (j.gang = g)).foldl (fun s j => if s.jobReleased u j then s.releaseJob u j else s) s)

/-! ### Stops (R397) -/

/-- A pending stop has been reached: everything below the cut has completed. -/
def State.stopReached (s : State) (p : Nat) : Bool :=
  let P := s.part p
  P.replaying && decide (P.rpState ≠ 2) && match P.stopAt with | some K => P.clear K | none => false

/-- The clock of a gang that would halt inside a region (R397). -/
def State.regionHalt (s : State) (p : Nat) : Option Nat :=
  (s.blocks.filter fun b => s.blockOf p b.uid).findSome? fun b => b.gangs.findSome? fun G =>
    if G.held && decide (G.inRegion ≠ 0) then G.chunk.map (·.clock) else none

/-- REPLAY_STOP (R397): a cut that falls inside a region is raised; otherwise every block is saved, and then STATE is 2. -/
def execReplayStop (p : Nat) (s : State) : Host.Outcome State Fault Refusal :=
  if !s.stopReached p then .next s
  else match s.regionHalt p with
    | some C => .next (s.modPart p fun P => { P with
        rpStop := P.rpStop.map (max (C + 1)), rpHalt := P.rpHalt.map (max (C + 1)), rpMoved := true })
    | none =>
      let s := s.stopBlocks p
      let s := (s.blocks.filter fun b => s.blockOf p b.uid && s.quiet b).foldl (fun s b => s.saveBlock b.uid false) s
      if s.blocks.any fun b => s.blockOf p b.uid then .next s
      else .next (s.modPart p fun P => { P with
        rpState := 2, rpStop := none, rpHalt := none, rpCut := BitVec.ofNat 32 (P.stopAt.getD 0) })

/-- A replay has ended (R391, R398): every logged launch has been dispatched and has completed. -/
def State.replayOver (s : State) (p : Nat) : Bool :=
  let P := s.part p
  decide (P.rpState = 1 ∨ P.rpState = 5) && decide (P.logged.length ≤ P.rpNext) && (s.replayed p).isEmpty

/-- STATE becomes 4. -/
def State.finishReplay (s : State) (p : Nat) : State := s.modPart p fun P => { P with rpState := 4, rpStop := none, rpHalt := none }

end Sys2Proof.Machine
end

