-- ==== Sys2Proof/Machine/ControlWindow.lean ====
section
/-! DEFINITION. A partition's control window as a whole: what each register reads as and what a write of it does (R3, R4, R307,
R308, R316, R338, R345, R388, R391). Offsets without a register read as zero and ignore writes (log 26). -/

namespace Sys2Proof.Machine

/-- QCTL as it reads (R308). -/
def Queue.ctl (Q : Queue) : Nat :=
  Q.st.toNat * 2 ^ 10 + Q.log2n.toNat * 2 ^ 4 + (if Q.policy then 8 else 0) + Q.prio.toNat * 2 + (if Q.en then 1 else 0)

/-- A slot's registers, by offset in the slot (R307). -/
def Queue.read (Q : Queue) : Nat → Nat
  | 0x00 => Q.ctl
  | 0x08 => Q.base.toNat % 2 ^ 64
  | 0x10 => Q.base.toNat / 2 ^ 64
  | 0x18 => Q.widx.toNat + Q.ridx.toNat * 2 ^ 32
  | 0x20 => Q.fault.toNat
  | 0x28 => Q.mark.toNat
  | 0x30 => Q.mtime.toNat
  | _ => 0

/-- RPSTAT (R391). -/
def Partition.rpStat (P : Partition) : Nat :=
  P.rpCut.toNat * 2 ^ 32 + P.rpDiv.toNat * 2 ^ 8 + (if P.rpMoved then 2 ^ 7 else 0) + (if P.rpSrcErr then 2 ^ 4 else 0)
    + (if P.rpSealErr then 2 ^ 3 else 0) + P.rpState.toNat

/-- Eight bytes of a partition's registers at an offset that is a multiple of 8. -/
def Partition.readUnit (P : Partition) (off : Nat) : Nat :=
  if off < 0x1000 then (vget P.queues (off / 64) Queue.reset).read (off % 64)
  else match off with
    | 0x1000 => P.ctxBase.toNat % 2 ^ 64
    | 0x1008 => P.ctxBase.toNat / 2 ^ 64
    | 0x1010 => P.ctxSize.toNat
    | 0x1100 => P.troot.toNat
    | 0x1108 => (if P.tinvalAll then 2 else 0) + P.tinvalLevel.toNat * 4 + (if P.tinvalBusy then 2 ^ 63 else 0)
    | 0x1110 => P.tiva.toNat % 2 ^ 64
    | 0x1118 => P.tiva.toNat / 2 ^ 64
    | 0x1120 => P.frBase.toNat
    | 0x1128 => P.frLog2n.toNat
    | 0x1130 => P.frHead.toNat + P.frTail.toNat * 2 ^ 32
    | 0x1138 => P.frOvf.toNat
    | 0x1148 => P.keyRet.toNat + (if P.keyBusy then 2 ^ 63 else 0)
    | 0x1150 => P.keyOwn.toNat % 2 ^ 64
    | 0x1158 => P.keyOwn.toNat / 2 ^ 64 % 2 ^ 64
    | 0x1160 => P.keyOwn.toNat / 2 ^ 128 % 2 ^ 64
    | 0x1168 => P.keyOwn.toNat / 2 ^ 192
    | 0x1200 => P.rrBase.toNat
    | 0x1208 => (if P.rrDigest then 2 ^ 8 else 0) + (if P.rrMode then 2 ^ 7 else 0) + P.rrLog2sz.toNat * 2 + (if P.rrEn then 1 else 0)
    | 0x1210 => P.rrHead.toNat
    | 0x1218 => P.rrTail.toNat
    | 0x1220 => (if P.rrStalled then 1 else 0) + (if P.rrClockEnd then 2 else 0) + (if P.rrWrapped then 4 else 0)
    | 0x1228 => P.rrLost.toNat
    | 0x1300 => (if P.rpFree then 8 else 0) + (if P.rpBrk then 4 else 0)
    | 0x1308 => P.rpSrc.toNat % 2 ^ 64
    | 0x1310 => P.rpSrc.toNat / 2 ^ 64
    | 0x1318 => P.rpLen.toNat
    | 0x1320 => P.rpBreak.toNat % 2 ^ 64
    | 0x1328 => P.rpBreak.toNat / 2 ^ 64
    | 0x1330 => P.rpStat
    | 0x1400 => P.dcBase.toNat
    | 0x1408 => P.dcSize.toNat
    | _ => if 0x1340 ≤ off ∧ off < 0x1370 then fieldAt P.rpDetail (off - 0x1340) 8 else 0

/-- n bytes of a partition's control window. -/
def State.ctlRead (s : State) (p off n : Nat) : List Byte :=
  (List.range n).map fun i => BitVec.ofNat 8 ((s.part p).readUnit ((off + i) / 8 * 8) / 256 ^ ((off + i) % 8))

/-- The low, or the high, part of a 72-bit pointer register replaced by a unit; bytes 9 to 15 are reserved (R98). -/
def pointerLow (a : Wide) (v : BitVec 64) : Wide := BitVec.ofNat 72 (a.toNat / 2 ^ 64 * 2 ^ 64 + v.toNat)
def pointerHigh (a : Wide) (v : BitVec 64) : Wide := BitVec.ofNat 72 (v.toNat % 256 * 2 ^ 64 + a.toNat % 2 ^ 64)

/-- Two chain areas share a byte (R316); an empty one shares none. -/
def overlaps (a n b m : Nat) : Bool := decide (0 < n ∧ 0 < m) && decide (a < b + m) && decide (b < a + n)

/-- A chain area that would overlap another partition's (R316). -/
def State.chainClash (s : State) (p base size : Nat) : Bool :=
  (List.range 4).any fun k => decide (k ≠ p) && overlaps base size ((s.part k).dcBase.toNat) ((s.part k).dcSize.toNat)

/-- A change of a register that is ignored while a queue of the partition is not stopped (R316, R338, R345, R388). -/
def State.whenIdle (s : State) (p : Nat) (f : Partition → Partition) : State := if (s.part p).idle then s.modPart p f else s

/-- A write of a queue slot's registers (R307). -/
def State.writeSlot (s : State) (p q off : Nat) (v : BitVec 64) : State :=
  match off with
  | 0x00 => s.writeQctl p q v
  | 0x08 => s.writeQbase p q ((pointerLow (s.queue p q).base v).setWidth 128)
  | 0x10 => s.writeQbase p q ((pointerHigh (s.queue p q).base v).setWidth 128)
  | 0x18 => s.modQueue p q fun Q => { Q with widx := v.setWidth 32 }
  | _ => s

/-- RPBRK has changed: an armed breakpoint is the one that it now names (R397). -/
def State.rearm (s : State) (p : Nat) : State :=
  let P := s.part p
  if P.rpBrk && decide (P.rpState = 1 ∨ P.rpState = 5) && !P.rpLeft then
    let K := s.breakClock p
    s.modPart p fun P => { P with rpStop := K, rpMoved := false }
  else s

/-- A write of the registers of the recorder, the replayer and the chain (R316, R388, R391). -/
def State.writeUpper (s : State) (p off : Nat) (v next : BitVec 64) : State :=
  match off with
  | 0x1200 => s.whenIdle p fun P => { P with rrBase := v.setWidth 52 &&& ~~~ (0x3FFFFFF#52) }
  | 0x1208 => s.writeRrctl p v
  | 0x1218 => s.modPart p fun P => { P with rrTail := v }
  | 0x1300 => s.writeRpctl p v
  | 0x1308 => s.modPart p fun P => { P with rpSrc := pointerLow P.rpSrc v }
  | 0x1310 => s.modPart p fun P => { P with rpSrc := pointerHigh P.rpSrc v }
  | 0x1318 => s.modPart p fun P => { P with rpLen := v }
  | 0x1320 => (s.modPart p fun P => { P with rpBreak := P.rpBreak.extractLsb' 64 64 ++ v }).rearm p
  | 0x1328 => (s.modPart p fun P => { P with rpBreak := v ++ P.rpBreak.extractLsb' 0 64 }).rearm p
  | 0x1370 => s.writeRpseal p (next ++ v)
  | 0x1400 =>
    let b := v.setWidth 52 &&& ~~~ (0xFFFF#52)
    if s.chainClash p b.toNat (s.part p).dcSize.toNat then s else s.whenIdle p fun P => { P with dcBase := b }
  | 0x1408 =>
    let n := v &&& ~~~ (0xFFFF#64)
    if 2 ^ 36 < v.toNat ∨ s.chainClash p (s.part p).dcBase.toNat n.toNat then s else s.whenIdle p fun P => { P with dcSize := n }
  | _ => s

/-- A write of eight bytes of the control window; next holds the eight bytes after them in the same write. -/
def State.writeUnit (s : State) (p off : Nat) (v next : BitVec 64) : State :=
  if off < 0x1000 then s.writeSlot p (off / 64) (off % 64) v
  else match off with
    | 0x1000 => s.whenIdle p fun P => { P with ctxBase := pointerLow P.ctxBase (v &&& ~~~ (0xFFFF#64)) }
    | 0x1008 => s.whenIdle p fun P => { P with ctxBase := pointerHigh P.ctxBase v }
    | 0x1010 => s.whenIdle p fun P => { P with ctxSize := v &&& ~~~ (0xFFFF#64) }
    | 0x1100 => s.whenIdle p fun P => { P with troot := v.setWidth 52 &&& ~~~ (0x1FFFF#52) }
    | 0x1108 => s.writeTinval p v
    | 0x1110 => s.modPart p fun P => { P with tiva := pointerLow P.tiva v }
    | 0x1118 => s.modPart p fun P => { P with tiva := pointerHigh P.tiva v }
    | 0x1120 => s.modPart p fun P => { P with frBase := v.setWidth 52 &&& ~~~ (0xFFF#52) }
    | 0x1128 =>
      let n := v.setWidth 4
      if (1 ≤ n.toNat ∧ n.toNat ≤ 5) ∨ n = 15 then s else s.modPart p fun P => { P with frLog2n := n }
    | 0x1130 => s.modPart p fun P => { P with frTail := v.extractLsb' 32 32 }
    | 0x1140 => s.writeFresume p v
    | 0x1148 => s.writeKeyret p v
    | _ => s.writeUpper p off v next

/-- The eight bytes of a unit after a write of some bytes from an offset on. -/
def mergedUnit (old unit off : Nat) (bs : List Byte) : BitVec 64 :=
  BitVec.ofNat 64 (ofBytes ((List.range 8).map fun i =>
    if off ≤ unit + i ∧ unit + i < off + bs.length then bs.getD (unit + i - off) 0 else BitVec.ofNat 8 (old / 256 ^ i)))

/-- A write of bytes of the control window: each unit that it touches, in ascending order. DESIGN CHOICE (log 52): of a register
that it covers in part the other bytes are taken from what the register reads as, and the whole of it counts as written. -/
def State.ctlWrite (s : State) (p off : Nat) (bs : List Byte) : State :=
  if bs.isEmpty then s
  else (List.range ((off + bs.length - 1) / 8 - off / 8 + 1)).foldl (fun s i =>
    let u := (off / 8 + i) * 8
    let next := if u + 8 < off + bs.length then mergedUnit 0 (u + 8) off bs else 0
    s.writeUnit p u (mergedUnit ((s.part p).readUnit u) u off bs) next) s

/-- REGISTER_WRITE (R3, R4): eight bytes at an offset, or four at the upper half of a unit. -/
def execRegisterWrite (p off : Nat) (v : BitVec 64) (s : State) : Host.Outcome State Fault Refusal :=
  if p < partsOf s.code then .next (s.ctlWrite p off (bytesOf (if off % 8 = 0 then 8 else 4) v.toNat)) else .next s

end Sys2Proof.Machine
end

