-- ==== Sys2Proof/Machine/VectorFloat.lean ====
section
/-! DEFINITION. Vector floating point (R254-R259), conversions (R260-R262). -/

namespace Sys2Proof.Machine

/-- The flags that lanes of an instruction raise (R68, R85), and the run's earliest enabled exception (R88). -/
def State.raiseFlags (s : State) (c : Ctx) (lanes : BitVec 32) (fl : Nat → BitVec 5) : State :=
  let or_ (f : Nat → BitVec 5) : BitVec 5 := (lanesOf lanes).foldl (fun x l => x ||| f l) 0
  let en l := fl l &&& c.L.r.fpEnables
  let m := maskOf fun l => lanes.getLsbD l && decide (en l ≠ 0)
  s.modGang c.u c.g fun G => { G with
    fpstat := G.fpstat ||| or_ fl,
    sheaf := G.sheaf.map fun S =>
      if S.fp.isNone ∧ m ≠ 0 then { S with fp := some { lanes := m, flags := or_ en, pc := c.pc, pos := c.pos } } else S }

/-- The bits of an operand: a register, or a pair (R64). -/
def Ctx.bits (c : Ctx) (wide : Bool) (code : BitVec 7) (l : Nat) : Nat :=
  if wide then (c.G.src64 code l).toNat else (c.G.src code l).toNat

/-- A floating-point result in each active lane, with its flags. -/
def fpOp (wide : Bool) (d : BitVec 7) (f : Ctx → Nat → Nat × BitVec 5) (c : Ctx) (s : State) : Eff :=
  .done ((s.modGang c.u c.g fun G => G.modLanes c.act fun l t =>
    if wide then t.setPair d.toNat (BitVec.ofNat 64 (f c l).1) else t.setReg d.toNat (BitVec.ofNat 32 (f c l).1)).raiseFlags
      c c.act fun l => (f c l).2)

/-- A format's operation on the operands of a lane, rounded once (R255). -/
def fpArith (F : Fmt) (wide : Bool) (h : Hdr) (codes : List (BitVec 7)) (f : List FVal → Exact × BitVec 5) (c : Ctx)
    (l : Nat) : Nat × BitVec 5 :=
  let e := f (codes.map fun k => F.operand h.ftz (c.bits wide k l))
  let r := roundFmt e.1 F h.rnd false h.ftz
  (r.1, e.2 ||| r.2)

/-- The same on both halves of packed operands (R259). -/
def fpPacked (F : Fmt) (h : Hdr) (codes : List (BitVec 7)) (f : List FVal → Exact × BitVec 5) (c : Ctx) (l : Nat) :
    Nat × BitVec 5 :=
  let half (k : Nat) : Nat × BitVec 5 :=
    let e := f (codes.map fun x => F.operand h.ftz (c.bits false x l / 2 ^ (16 * k) % 2 ^ 16))
    let r := roundFmt e.1 F h.rnd false h.ftz
    (r.1, e.2 ||| r.2)
  ((half 0).1 + 2 ^ 16 * (half 1).1, (half 0).2 ||| (half 1).2)

/-- The operations on lists of operands. -/
def opAdd (mode : Nat) : List FVal → Exact × BitVec 5
  | [x, y] => fAdd mode x y
  | _ => (.nan, 0)
def opSub (mode : Nat) : List FVal → Exact × BitVec 5
  | [x, y] => fAdd mode x y.negate
  | _ => (.nan, 0)
def opMul : List FVal → Exact × BitVec 5
  | [x, y] => fMul x y
  | _ => (.nan, 0)
def opFma (mode : Nat) : List FVal → Exact × BitVec 5
  | [x, y, z] => fFma mode x y z
  | _ => (.nan, 0)
def opDiv : List FVal → Exact × BitVec 5
  | [x, y] => fDiv x y
  | _ => (.nan, 0)

/-- ffun (R258): codes 0 to 4 are rounded functions, 5 to 7 abs, neg and rint. -/
def ffunOp (F : Fmt) (wide : Bool) (h : Hdr) (a : BitVec 7) (k : Nat) (c : Ctx) (l : Nat) : Nat × BitVec 5 :=
  let b := F.flush h.ftz (c.bits wide a l)
  let x := F.value b
  let rounded (e : Exact × BitVec 5) : Nat × BitVec 5 :=
    let r := roundFmt e.1 F h.rnd false h.ftz
    (r.1, e.2 ||| r.2)
  match k with
  | 0 => rounded (fEx2 x)
  | 1 => rounded (fLg2 x)
  | 2 => rounded (fRcp x)
  | 3 => rounded (fRsq x)
  | 4 => rounded (fSqrt x)
  | 5 => fSign F false b
  | 6 => fSign F true b
  | _ => fRint F h.rnd b

/-- fcmp (R257) in each active lane. -/
def fpCompare (F : Fmt) (wide : Bool) (h : Hdr) (p : BitVec 3) (k : BitVec 4) (a b : BitVec 7) (c : Ctx) (s : State) : Eff :=
  let r l := fCompare k.toNat (F.operand h.ftz (c.bits wide a l)) (F.operand h.ftz (c.bits wide b l))
  .done ((s.modGang c.u c.g fun G => G.modLanes c.act fun l t => t.setPred p (r l).1).raiseFlags c c.act fun l => (r l).2)

/-- FADD_F32 (R255). -/
def execFaddF32 (h : Hdr) (g : BitVec 3) (d a b : BitVec 7) (s : State) : Host.Outcome State Fault Refusal :=
  issue (.faddF32 h g d a b) h g (fpOp false d (fpArith .f32 false h [a, b] (opAdd h.rnd))) s

/-- FSUB_F32 (R255). -/
def execFsubF32 (h : Hdr) (g : BitVec 3) (d a b : BitVec 7) (s : State) : Host.Outcome State Fault Refusal :=
  issue (.fsubF32 h g d a b) h g (fpOp false d (fpArith .f32 false h [a, b] (opSub h.rnd))) s

/-- FMUL_F32 (R255). -/
def execFmulF32 (h : Hdr) (g : BitVec 3) (d a b : BitVec 7) (s : State) : Host.Outcome State Fault Refusal :=
  issue (.fmulF32 h g d a b) h g (fpOp false d (fpArith .f32 false h [a, b] opMul)) s

/-- FFMA_F32 (R255). -/
def execFfmaF32 (h : Hdr) (g : BitVec 3) (d a b : BitVec 7) (s : State) : Host.Outcome State Fault Refusal :=
  issue (.ffmaF32 h g d a b) h g (fpOp false d (fpArith .f32 false h [a, b, h.third d] (opFma h.rnd))) s

/-- FDIV_F32 (R255). -/
def execFdivF32 (h : Hdr) (g : BitVec 3) (d a b : BitVec 7) (s : State) : Host.Outcome State Fault Refusal :=
  issue (.fdivF32 h g d a b) h g (fpOp false d (fpArith .f32 false h [a, b] opDiv)) s

/-- FMIN_F32 (R256). -/
def execFminF32 (h : Hdr) (g : BitVec 3) (d a b : BitVec 7) (s : State) : Host.Outcome State Fault Refusal :=
  issue (.fminF32 h g d a b) h g
    (fpOp false d fun c l => fMinMax .f32 false h.ftz (c.bits false a l) (c.bits false b l)) s

/-- FMAX_F32 (R256). -/
def execFmaxF32 (h : Hdr) (g : BitVec 3) (d a b : BitVec 7) (s : State) : Host.Outcome State Fault Refusal :=
  issue (.fmaxF32 h g d a b) h g
    (fpOp false d fun c l => fMinMax .f32 true h.ftz (c.bits false a l) (c.bits false b l)) s

/-- FCMP_F32 (R257). -/
def execFcmpF32 (h : Hdr) (g p : BitVec 3) (k : BitVec 4) (a b : BitVec 7) (s : State) : Host.Outcome State Fault Refusal :=
  issue (.fcmpF32 h g p k a b) h g (fpCompare .f32 false h p k a b) s

/-- FFUN_F32 (R258). -/
def execFfunF32 (h : Hdr) (g : BitVec 3) (d a f : BitVec 7) (s : State) : Host.Outcome State Fault Refusal :=
  issue (.ffunF32 h g d a f) h g (fpOp false d (ffunOp .f32 false h a f.toNat)) s

/-- FADD_F64 (R255). -/
def execFaddF64 (h : Hdr) (g : BitVec 3) (d a b : BitVec 7) (s : State) : Host.Outcome State Fault Refusal :=
  issue (.faddF64 h g d a b) h g (fpOp true d (fpArith .f64 true h [a, b] (opAdd h.rnd))) s

/-- FSUB_F64 (R255). -/
def execFsubF64 (h : Hdr) (g : BitVec 3) (d a b : BitVec 7) (s : State) : Host.Outcome State Fault Refusal :=
  issue (.fsubF64 h g d a b) h g (fpOp true d (fpArith .f64 true h [a, b] (opSub h.rnd))) s

/-- FMUL_F64 (R255). -/
def execFmulF64 (h : Hdr) (g : BitVec 3) (d a b : BitVec 7) (s : State) : Host.Outcome State Fault Refusal :=
  issue (.fmulF64 h g d a b) h g (fpOp true d (fpArith .f64 true h [a, b] opMul)) s

/-- FFMA_F64 (R255). -/
def execFfmaF64 (h : Hdr) (g : BitVec 3) (d a b : BitVec 7) (s : State) : Host.Outcome State Fault Refusal :=
  issue (.ffmaF64 h g d a b) h g (fpOp true d (fpArith .f64 true h [a, b, h.third d] (opFma h.rnd))) s

/-- FDIV_F64 (R255). -/
def execFdivF64 (h : Hdr) (g : BitVec 3) (d a b : BitVec 7) (s : State) : Host.Outcome State Fault Refusal :=
  issue (.fdivF64 h g d a b) h g (fpOp true d (fpArith .f64 true h [a, b] opDiv)) s

/-- FMIN_F64 (R256). -/
def execFminF64 (h : Hdr) (g : BitVec 3) (d a b : BitVec 7) (s : State) : Host.Outcome State Fault Refusal :=
  issue (.fminF64 h g d a b) h g
    (fpOp true d fun c l => fMinMax .f64 false h.ftz (c.bits true a l) (c.bits true b l)) s

/-- FMAX_F64 (R256). -/
def execFmaxF64 (h : Hdr) (g : BitVec 3) (d a b : BitVec 7) (s : State) : Host.Outcome State Fault Refusal :=
  issue (.fmaxF64 h g d a b) h g
    (fpOp true d fun c l => fMinMax .f64 true h.ftz (c.bits true a l) (c.bits true b l)) s

/-- FCMP_F64 (R257). -/
def execFcmpF64 (h : Hdr) (g p : BitVec 3) (k : BitVec 4) (a b : BitVec 7) (s : State) : Host.Outcome State Fault Refusal :=
  issue (.fcmpF64 h g p k a b) h g (fpCompare .f64 true h p k a b) s

/-- FFUN_F64 (R258). -/
def execFfunF64 (h : Hdr) (g : BitVec 3) (d a f : BitVec 7) (s : State) : Host.Outcome State Fault Refusal :=
  issue (.ffunF64 h g d a f) h g (fpOp true d (ffunOp .f64 true h a f.toNat)) s

/-- FADD_F16X2 (R259). -/
def execFaddF16x2 (h : Hdr) (g : BitVec 3) (d a b : BitVec 7) (s : State) : Host.Outcome State Fault Refusal :=
  issue (.faddF16x2 h g d a b) h g (fpOp false d (fpPacked .f16 h [a, b] (opAdd h.rnd))) s

/-- FMUL_F16X2 (R259). -/
def execFmulF16x2 (h : Hdr) (g : BitVec 3) (d a b : BitVec 7) (s : State) : Host.Outcome State Fault Refusal :=
  issue (.fmulF16x2 h g d a b) h g (fpOp false d (fpPacked .f16 h [a, b] opMul)) s

/-- FFMA_F16X2 (R259). -/
def execFfmaF16x2 (h : Hdr) (g : BitVec 3) (d a b : BitVec 7) (s : State) : Host.Outcome State Fault Refusal :=
  issue (.ffmaF16x2 h g d a b) h g (fpOp false d (fpPacked .f16 h [a, b, h.third d] (opFma h.rnd))) s

/-- FADD_BF16X2 (R259). -/
def execFaddBf16x2 (h : Hdr) (g : BitVec 3) (d a b : BitVec 7) (s : State) : Host.Outcome State Fault Refusal :=
  issue (.faddBf16x2 h g d a b) h g (fpOp false d (fpPacked .bf16 h [a, b] (opAdd h.rnd))) s

/-- FMUL_BF16X2 (R259). -/
def execFmulBf16x2 (h : Hdr) (g : BitVec 3) (d a b : BitVec 7) (s : State) : Host.Outcome State Fault Refusal :=
  issue (.fmulBf16x2 h g d a b) h g (fpOp false d (fpPacked .bf16 h [a, b] opMul)) s

/-- FFMA_BF16X2 (R259). -/
def execFfmaBf16x2 (h : Hdr) (g : BitVec 3) (d a b : BitVec 7) (s : State) : Host.Outcome State Fault Refusal :=
  issue (.ffmaBf16x2 h g d a b) h g (fpOp false d (fpPacked .bf16 h [a, b, h.third d] (opFma h.rnd))) s

/-- The format codes in cvt's order (R164). -/
def cvtFormat (k : Nat) : Nat := [1, 2, 3, 4, 5, 6, 8, 9, 10, 11].getD k 2

/-- The source of a conversion from a format, in a lane's register or pair (R261). -/
def Ctx.cvtSrc (c : Ctx) (code : Nat) (a : BitVec 7) (l : Nat) : CvtSrc :=
  match fmtOf code with
  | some F => .flt F (c.bits (decide (code = 1)) a l % 2 ^ F.width)
  | none => .int (intValue (intFmtOf code).1 (intFmtOf code).2 (c.bits false a l))

/-- CVT (R260, R261). -/
def execCvt (h : Hdr) (g : BitVec 3) (d a f : BitVec 7) (s : State) : Host.Outcome State Fault Refusal :=
  let from_ := cvtFormat (f.toNat / 10)
  let to_ := cvtFormat (f.toNat % 10)
  issue (.cvt h g d a f) h g
    (fpOp (decide (to_ = 1)) d fun c l => convert (c.cvtSrc from_ a l) to_ h.rnd h.sat h.ftz) s

/-- The descriptor of a slot that an executing instruction names: it is bound (R91). -/
def Ctx.slot (c : Ctx) (x : BitVec 3) : SlotDesc :=
  (c.L.r.slots.getD x.toNat none).getD { fmt := 2, planes := 0, centre := false, scale := 0, ftz := false, rnd := 0 }

/-- CVTQ (R262). -/
def execCvtq (h : Hdr) (g : BitVec 3) (d a : BitVec 7) (x : BitVec 3) (s : State) : Host.Outcome State Fault Refusal :=
  issue (.cvtq h g d a x) h g (fun c s =>
    let D := c.slot x
    fpOp (decide (D.fmt = 1)) d (fun c l => convert (c.cvtSrc 2 a l) D.fmt D.rnd false D.ftz) c s) s

/-- CVTD (R262): a bit-plane element is read through PlaneRead (R82). -/
def execCvtd (h : Hdr) (g : BitVec 3) (d a : BitVec 7) (x : BitVec 3) (s : State) : Host.Outcome State Fault Refusal :=
  issue (.cvtd h g d a x) h g (fun c s =>
    let D := c.slot x
    fpOp false d (fun c l =>
      let src := match c.cvtSrc D.fmt a l with
        | .int n => if D.fmt = 0x10 ∨ D.fmt = 0x11 then .int (planeRead n D.planes D.centre) else .int n
        | y => y
      convert src 2 D.rnd false D.ftz) c s) s

end Sys2Proof.Machine
end

