-- ==== Sys2Proof/Machine/Exchange.lean ====
section
/-! DEFINITION. Lane exchange (R263-R266) and random numbers (R267). -/

namespace Sys2Proof.Machine

/-- VSHFL (R263): a lane that is no member is never read. -/
def execVshfl (h : Hdr) (g : BitVec 3) (d a b : BitVec 7) (s : State) : Host.Outcome State Fault Refusal :=
  issue (.vshfl h g d a b) h g (laneEff fun c l t =>
    let k := (c.G.src b l).toNat % 32
    t.setReg d.toNat ((c.G.lane (if c.members.getLsbD k then k else l)).reg a.toNat)) s

/-- A value for every active lane's register, or for a scalar register (R264, R266); nothing without an active lane. -/
def spread (h : Hdr) (d : BitVec 7) (x : Word) (c : Ctx) (s : State) : State :=
  if c.act = 0 then s
  else match h.ext with
    | some (.sca n) => s.modGang c.u c.g fun G => G.setSreg n.toNat (x.setWidth 72)
    | _ => s.modGang c.u c.g fun G => G.modLanes c.act fun _ t => t.setReg d.toNat x

/-- VFIRST (R264). -/
def execVfirst (h : Hdr) (g : BitVec 3) (d a : BitVec 7) (s : State) : Host.Outcome State Fault Refusal :=
  issue (.vfirst h g d a) h g (fun c s => .done (spread h d ((c.G.lane (lowest c.act)).reg a.toNat) c s)) s

/-- VBCAST (R264). -/
def execVbcast (h : Hdr) (g : BitVec 3) (d a : BitVec 7) (n : BitVec 5) (s : State) : Host.Outcome State Fault Refusal :=
  issue (.vbcast h g d a n) h g (fun c s =>
    .done (spread h d (if c.members.getLsbD n.toNat then (c.G.lane n.toNat).reg a.toNat else 0) c s)) s

/-- One step of a fold over lanes (R265, R266), by vred's function codes, and the flags it raises. -/
def foldStep (op : Nat) (acc x : Word) : Word × BitVec 5 :=
  match op with
  | 0 => (acc + x, 0)
  | 1 => (if x.toInt ≤ acc.toInt then x else acc, 0)
  | 2 => (if acc.toInt ≤ x.toInt then x else acc, 0)
  | 3 => (if x.toNat ≤ acc.toNat then x else acc, 0)
  | 4 => (if acc.toNat ≤ x.toNat then x else acc, 0)
  | 5 => (acc &&& x, 0)
  | 6 => (acc ||| x, 0)
  | 7 => (acc ^^^ x, 0)
  | 8 =>
    let e := fAdd 0 (Fmt.f32.value acc.toNat) (Fmt.f32.value x.toNat)
    let r := roundFmt e.1 .f32 0 false false
    (BitVec.ofNat 32 r.1, e.2 ||| r.2)
  | 9 => let r := fMinMax .f32 false false acc.toNat x.toNat; (BitVec.ofNat 32 r.1, r.2)
  | _ => let r := fMinMax .f32 true false acc.toNat x.toNat; (BitVec.ofNat 32 r.1, r.2)

/-- The prefixes of a fold over lanes: each lane with the fold before it, the fold with it, and its step's flags. -/
def foldLanes (op : Nat) : Option Word → List (Nat × Word) → List (Nat × Option Word × Word × BitVec 5)
  | _, [] => []
  | none, (l, x) :: t => (l, none, x, 0) :: foldLanes op (some x) t
  | some acc, (l, x) :: t =>
    let r := foldStep op acc x
    (l, some acc, r.1, r.2) :: foldLanes op (some r.1) t

/-- The active lanes' values of a register, ascending. -/
def Ctx.values (c : Ctx) (a : BitVec 7) : List (Nat × Word) := (lanesOf c.act).map fun l => (l, (c.G.lane l).reg a.toNat)

/-- The entry of a lane among the prefixes. -/
def foldAt (p : List (Nat × Option Word × Word × BitVec 5)) (l : Nat) : Option Word × Word × BitVec 5 :=
  ((p.find? fun e => decide (e.1 = l)).map (·.2)).getD (none, 0, 0)

/-- VSCAN (R265): codes 0 add, 1 addx, 2 to 5 minimum and maximum, 6 fadd.f32. -/
def execVscan (h : Hdr) (g : BitVec 3) (d a : BitVec 7) (o : BitVec 3) (s : State) : Host.Outcome State Fault Refusal :=
  issue (.vscan h g d a o) h g (fun c s =>
    let p := foldLanes ([0, 0, 1, 2, 3, 4, 8].getD o.toNat 0) none (c.values a)
    .done ((s.modGang c.u c.g fun G => G.modLanes c.act fun l t =>
      t.setReg d.toNat (if o = 1 then (foldAt p l).1.getD 0 else (foldAt p l).2.1)).raiseFlags c c.act
        fun l => (foldAt p l).2.2)) s

/-- The value and flags of a reduction of one lane (R266): fmin and fmax of a signalling NaN are invalid. -/
def singleRed (op : Nat) (x : Word) : Word × BitVec 5 :=
  if (op = 9 ∨ op = 10) ∧ (Fmt.f32.value x.toNat).isSnan then (BitVec.ofNat 32 Fmt.f32.nanBits, flagNV) else (x, 0)

/-- VRED (R266). -/
def execVred (h : Hdr) (g : BitVec 3) (d a f : BitVec 7) (s : State) : Host.Outcome State Fault Refusal :=
  issue (.vred h g d a f) h g (fun c s =>
    let p := foldLanes f.toNat none (c.values a)
    match p with
    | [(l, _, x, _)] => .done ((spread h d (singleRed f.toNat x).1 c s).raiseFlags c (BitVec.twoPow 32 l)
        fun _ => (singleRed f.toNat x).2)
    | _ => .done ((spread h d ((p.getLast?.map fun e => e.2.2.1).getD 0) c s).raiseFlags c c.act
        fun l => (foldAt p l).2.2)) s

/-- RandMix (R267). -/
def randMix (seed g k : Dword) : Word :=
  let x := seed ^^^ (g * 0x9E6C63D0676A9A99#64)
  let x := x + k * 0xC2B2AE3D27D4EB4F#64
  let x := (x ^^^ (x >>> 31)) * 0xBF58476D1CE4E5B9#64
  let x := (x ^^^ (x >>> 27)) * 0x94D049BB133111EB#64
  (x ^^^ (x >>> 33)).extractLsb' 0 32

/-- RAND (R267). -/
def execRand (h : Hdr) (g : BitVec 3) (d : BitVec 7) (s : State) : Host.Outcome State Fault Refusal :=
  issue (.rand h g d) h g (laneEff fun c l t =>
    { t.setReg d.toNat (randMix c.L.r.seed (BitVec.ofNat 64 ((c.B.lin * c.L.r.gangs + c.g) * 32 + l)) t.draw) with
      draw := t.draw + 1 }) s

end Sys2Proof.Machine
end

