-- ==== Sys2Proof/Machine/HostPort.lean ====
section
/-! DEFINITION. The host transport (R402-R405): packets in, operations in PSN order, responses, acknowledgements, resends. -/

namespace Sys2Proof

open Machine

/-! ### Frames (R402) -/

/-- A number that stands in a frame, highest byte first. -/
def beAt (bs : List Byte) (i n : Nat) : Nat := ofBytes ((bs.drop i).take n).reverse

/-- The sum of the 16-bit words of some bytes. -/
def sum16 : List Byte → Nat
  | a :: b :: t => a.toNat * 256 + b.toNat + sum16 t
  | [a] => a.toNat * 256
  | [] => 0

/-- What a port does with a frame: it takes the datagram, drops it, or drops and counts it. -/
inductive Verdict where
  | take | drop | count
  deriving DecidableEq, Repr

/-- The headers that extend an IPv6 header, the fragment header among them (log 55). -/
def extensionHeaders : List Nat := [0, 43, 44, 50, 51, 60, 135, 139, 140]

/-- The UDP segment of an IPv6 packet without extension headers. -/
def HostPkt.segment (k : HostPkt) : List Byte := (k.frame.drop 40).take (beAt k.frame 4 2)

/-- The checksum of a UDP segment over IPv6 holds. -/
def HostPkt.checksumOk (k : HostPkt) : Bool :=
  let seg := k.segment
  decide (beAt seg 6 2 ≠ 0) && decide ((sum16 ((k.frame.drop 8).take 32) + seg.length + 17 + sum16 seg) % 65535 = 0)

/-- What a port with some configured addresses does with a frame (R402). -/
def HostPkt.verdict (k : HostPkt) (addrs : List (BitVec 128)) : Verdict :=
  let f := k.frame
  let seg := k.segment
  if 9216 < f.length then .drop
  else if fieldAt f 0 1 / 16 = 4 then .count
  else if fieldAt f 0 1 / 16 ≠ 6 ∨ f.length < 40 then .drop
  else if fieldAt f 6 1 ∈ extensionHeaders then .count
  else if fieldAt f 6 1 ≠ 17 ∨ seg.length < 8 ∨ seg.length ≠ beAt f 4 2 ∨ beAt seg 4 2 ≠ seg.length then .drop
  else if !k.checksumOk || decide (beAt seg 2 2 ≠ 49760) then .count
  else if BitVec.ofNat 128 (fieldAt f 24 16) ∈ addrs then .take
  else .drop

/-- The sender of a datagram: its IPv6 address and its UDP port, as bytes in the order in which they stand in the frame. -/
def HostPkt.src (k : HostPkt) : BitVec 144 := BitVec.ofNat 144 (fieldAt k.frame 8 16 + fieldAt k.frame 40 2 * 2 ^ 128)

/-- The transport header, and the payload after it. -/
def HostPkt.hdr (k : HostPkt) : List Byte := (k.segment.drop 8).take 40
def HostPkt.payload (k : HostPkt) : List Byte := k.segment.drop 48

/-! ### Headers (R403) -/

/-- Fields of a transport header. -/
def HostPkt.op (k : HostPkt) : Nat := fieldAt k.hdr 1 1
def HostPkt.connNo (k : HostPkt) : Nat := fieldAt k.hdr 4 4
def HostPkt.psn (k : HostPkt) : BitVec 32 := BitVec.ofNat 32 (fieldAt k.hdr 8 4)
def HostPkt.apsn (k : HostPkt) : BitVec 32 := BitVec.ofNat 32 (fieldAt k.hdr 12 4)
def HostPkt.space (k : HostPkt) : Nat := fieldAt k.hdr 16 1
def HostPkt.nak (k : HostPkt) : Nat := fieldAt k.hdr 17 1
def HostPkt.len (k : HostPkt) : Nat := fieldAt k.hdr 20 4
def HostPkt.addr (k : HostPkt) : Nat := fieldAt k.hdr 24 9

/-- A malformed packet, or one that breaks a reserved-zero rule (R98, R403, R404). -/
def HostPkt.malformed (k : HostPkt) : Bool :=
  let data := decide (k.op = 1 ∨ k.op = 2)
  decide (k.hdr.length ≠ 40) || decide (fieldAt k.hdr 0 1 ≠ 1) || !decide (k.op = 1 ∨ k.op = 2 ∨ k.op = 4 ∨ k.op = 5)
    || !zeroAt k.hdr 2 2 || !zeroAt k.hdr 18 2 || !zeroAt k.hdr 33 7
    || (if data then decide (2 < k.space) || decide (k.len < 4) || decide (8192 < k.len) || decide (k.len % 4 ≠ 0)
        else decide (k.len ≠ 0))
    || decide (k.payload.length ≠ (if k.op = 1 then k.len else 0))
    || (if k.op = 5 then decide (k.nak = 0 ∨ 4 < k.nak) else decide (k.nak ≠ 0))

end Sys2Proof

namespace Sys2Proof.Machine

/-- A connection. -/
def State.conn (s : State) (c : Nat) : Conn := vget s.conns c Conn.reset

/-- The state with a connection changed. -/
def State.modConn (s : State) (c : Nat) (f : Conn → Conn) : State := { s with conns := vset s.conns c (f (s.conn c)) }

/-- One sequence number is ahead of another, modulo 2^32. -/
def ahead (x y : BitVec 32) : Bool := decide (x ≠ y) && decide ((x - y).toNat < 2 ^ 31)

/-! ### Sending -/

/-- A transport header (R403). -/
def hostHeader (op c : Nat) (psn apsn : BitVec 32) (space code len addr : Nat) : List Byte :=
  bytesOf 1 1 ++ bytesOf 1 op ++ bytesOf 2 0 ++ bytesOf 4 c ++ bytesOf 4 psn.toNat ++ bytesOf 4 apsn.toNat ++ bytesOf 1 space
    ++ bytesOf 1 code ++ bytesOf 2 0 ++ bytesOf 4 len ++ bytesOf 16 addr

/-- A packet without payload leaves on connection c: ACK and NAK carry the next own PSN without taking it (log 27). -/
def Conn.send (C : Conn) (c op code : Nat) : Conn :=
  { C with sent := hostHeader op c C.own C.expect 0 code 0 0 :: C.sent }

/-- A READ-RESP, as it leaves on connection c: it names the place that was read (log 27). -/
def Conn.response (C : Conn) (c : Nat) (x : HeldResp) : List Byte :=
  hostHeader 3 c x.psn C.expect x.space 0 x.data.length x.addr ++ x.data

/-- The answer to a READ leaves and is kept until it is acknowledged (R404). -/
def Conn.respond (C : Conn) (c : Nat) (k : HostPkt) (bs : List Byte) (time : Nat) : Conn :=
  let x : HeldResp := { psn := C.own, space := k.space, addr := k.addr, data := bs, time := time, tries := 0 }
  { C with sent := C.response c x :: C.sent, held := C.held ++ [x], own := C.own + 1 }

/-- Unacknowledged READ-RESP packets are sent again (R404). -/
def Conn.resend (C : Conn) (c : Nat) (time : Nat) (which : HeldResp → Bool) (again : Nat) : Conn :=
  { C with
    sent := ((C.held.filter which).reverse.map (C.response c)) ++ C.sent
    held := C.held.map fun x => if which x then { x with time := time, tries := x.tries + again } else x }

/-- An acknowledgement frees the packets below it (R403, R404). -/
def Conn.acknowledge (C : Conn) (apsn : BitVec 32) : Conn :=
  let held := C.held.filter fun x => !ahead apsn x.psn
  { C with held := if held.length < C.held.length then held.map fun x => { x with tries := 0 } else C.held }

/-! ### Operations (R405) -/

/-- An operation's packet leaves the queue of its connection. -/
def State.dropOp (s : State) (c : Nat) : State := s.modConn c fun C => { C with todo := C.todo.drop 1, parked := false, begun := false }

/-- An operation that cannot be performed at its address is answered with NAK code 2. -/
def State.badAddress (s : State) (c : Nat) : State := (s.dropOp c).modConn c fun C => C.send c 5 2

/-- A READ is answered. -/
def State.answerRead (s : State) (c : Nat) (k : HostPkt) (bs : List Byte) : State :=
  (s.dropOp c).modConn c fun C => C.respond c k bs s.time

/-- A host operation meets an address that does not translate: a fault parks it (R350, R351), Permission answers it (R403). Its
record's source code is a free value, since R350 gives none (log 5). -/
def State.hostStop (s : State) (c : Nat) (k : HostPkt) (a : Nat) (x : Place) : State :=
  let f : FaultSrc := { source := s.freeVal.toNat % 256, access := if k.op = 1 then 1 else 0, lin := 0, gang := 0, lane := 0, queue := 0 }
  let s := s.takeFree.virtFault (s.conn c).part a x f
  if x.parks then s.modConn c fun C => { C with parked := true, begun := false } else s.badAddress c

/-- A WRITE (R405): a release at .s, at the home of its line, which ends when every other device's home has acknowledged. -/
def State.hostWrite (s : State) (c : Nat) (k : HostPkt) : State :=
  let p := (s.conn c).part
  match k.space with
  | 0 =>
    if (s.conn c).begun then (if s.released then s.dropOp c else s.virtRelease)
    else match s.virtCheck p k.addr k.len ⟨false, true, false⟩ with
      | some (a, x) => s.hostStop c k a x
      | none =>
        let s := ((s.virtWrite p k.addr k.payload).modConn c fun C => { C with begun := true }).virtRelease
        if s.released then s.dropOp c else s
  | 1 => (s.ctlWrite p k.addr k.payload).dropOp c
  | _ => s.badAddress c

/-- A READ (R405): an acquire at .s, at the home of its line, whose dirty bytes are recalled. -/
def State.hostRead (s : State) (c : Nat) (k : HostPkt) : State :=
  let p := (s.conn c).part
  let s := if (s.conn c).begun then s else s.acquireRemote.modConn c fun C => { C with begun := true }
  match k.space with
  | 0 => match (s.virtRecall p k.addr k.len ⟨true, false, false⟩).virtRead p k.addr k.len ⟨true, false, false⟩ with
    | (s, .ok bs) => s.answerRead c k bs
    | (s, .error .away) => s
    | (s, .error (.at a x)) => s.hostStop c k a x
  | 1 => s.answerRead c k (s.ctlRead p k.addr k.len)
  | _ =>
    let P := s.part p
    if P.rrTail.toNat ≤ k.addr ∧ k.addr + k.len ≤ P.rrHead.toNat then
      s.answerRead c k ((List.range k.len).map fun i =>
        s.byteAt 0 (s.devId.toNat * 2 ^ 44 + P.rrBase.toNat % 2 ^ 44 + (k.addr + i) % P.ringBytes))
    else s.badAddress c

/-- A connection's first operation can go on: it does not wait for FRESUME, nor for acknowledgements (R351, R404). -/
def State.hostReady (s : State) (c : Nat) : Bool :=
  let C := s.conn c
  match C.todo.head? with
  | none => false
  | some k => !C.parked && !(decide (k.op = 2) && decide (4096 ≤ C.held.length))

/-- The connection's first operation, as far as it can be performed now. -/
def State.hostOp (s : State) (c : Nat) : State :=
  match (s.conn c).todo.head? with
  | none => s
  | some k => if !s.hostReady c then s else if k.op = 1 then s.hostWrite c k else s.hostRead c k

/-! ### Receiving (R402-R404) -/

/-- A packet whose PSN is next (R404): a WRITE or a READ joins its connection's operations and is acknowledged; an ACK has
done its work with APSN; a NAK of a gap brings the held responses again. -/
def State.hostAccept (s : State) (c : Nat) (k : HostPkt) : State :=
  if k.op = 1 ∨ k.op = 2 then
    s.modConn c fun C => { C with expect := C.expect + 1, gap := false, todo := C.todo ++ [k] }.send c 4 0
  else if k.op = 5 ∧ k.nak = 1 then s.modConn c fun C => C.resend c s.time (fun _ => true) 0
  else s

/-- A packet from a connection's host (R403, R404): in error every packet is answered with NAK code 3, a malformed one with NAK
code 4, the first of a gap with NAK code 1; a WRITE or READ that was received before is acknowledged again. -/
def State.hostReceive (s : State) (c : Nat) (k : HostPkt) : State :=
  let C := s.conn c
  if ¬ C.bound ∨ k.src ≠ C.addr ∨ k.connNo ≠ c then s
  else if C.error then s.modConn c fun C => C.send c 5 3
  else if k.malformed then
    let taken := decide (k.hdr.length = 40 ∧ k.psn = C.expect ∧ k.op ≠ 4 ∧ k.op ≠ 5)
    s.modConn c fun C => (if taken then { C with expect := C.expect + 1, gap := false } else C).send c 5 4
  else if k.psn = C.expect then (s.modConn c fun C => C.acknowledge k.apsn).hostAccept c k
  else if ahead k.psn C.expect then
    if C.gap then s else s.modConn c fun C => { C with gap := true }.send c 5 1
  else if k.op = 1 ∨ k.op = 2 then s.modConn c fun C => C.send c 4 0
  else s

/-- A frame at a host port: its event is that of its operation code; a code that none has is malformed. -/
def hostPacket (op c : Nat) (k : HostPkt) (s : State) : Host.Outcome State Fault Refusal :=
  if 256 ≤ c ∨ 2 ≤ k.port then .next s
  else match k.verdict (vget s.portAddrs k.port []) with
    | .drop => .next s
    | .count => .next { s with portDiscards := vset s.portDiscards k.port (vget s.portDiscards k.port 0 + 1) }
    | .take =>
      if k.op = op ∨ ¬ (k.op = 1 ∨ k.op = 2 ∨ k.op = 4 ∨ k.op = 5) then .next ((s.hostReceive c k).hostOp c)
      else .next s

/-- WRITE (R405): the packet, and the operation where none is before it. -/
def execWrite (c : Nat) (pkt : HostPkt) (s : State) : Host.Outcome State Fault Refusal := hostPacket 1 c pkt s

/-- READ (R405). -/
def execRead (c : Nat) (pkt : HostPkt) (s : State) : Host.Outcome State Fault Refusal := hostPacket 2 c pkt s

/-- ACK (R404). -/
def execAck (c : Nat) (pkt : HostPkt) (s : State) : Host.Outcome State Fault Refusal := hostPacket 4 c pkt s

/-- NAK (R404). -/
def execNak (c : Nat) (pkt : HostPkt) (s : State) : Host.Outcome State Fault Refusal := hostPacket 5 c pkt s

/-- A response that was sent 20 µs ago, which are 16,000 of device time (R404). -/
def HeldResp.due (x : HeldResp) (time : Nat) : Bool := decide (x.time + 16000 ≤ time)

/-- RESEND_TIMEOUT (R404): responses that were sent 20 µs ago are sent again; when one has been sent again 16 times the connection is
in error. -/
def execResendTimeout (c : Nat) (s : State) : Host.Outcome State Fault Refusal :=
  let C := s.conn c
  if 256 ≤ c ∨ C.error then .next s
  else if C.held.any fun x => x.due s.time && decide (16 ≤ x.tries) then .next (s.modConn c fun C => { C with error := true })
  else .next (s.modConn c fun C => C.resend c s.time (fun x => x.due s.time) 1)

end Sys2Proof.Machine
end

