-- ==== Sys2Proof/Machine/Fabric.lean ====
section
/-! DEFINITION. What arrives over the Axfen fabric (R406-R412): flits, requests to this device's homes, responses to its own
requests, and how a recording stamps them and a replay admits them (R383, R386, R392, R393). -/

namespace Sys2Proof.Machine

/-! ### Links (R406, R407) -/

/-- An idle flit leaves: it carries LACK and the credits that are owed. -/
def Link.idle (L : Link) : Link := L.emit 3 none

/-- The flits that the other end has not accepted, oldest first. -/
def Link.pending (L : Link) : List FlitIn := (L.held.filter fun f => !decide (2 ^ 15 ≤ (f.lseq - L.acked).toNat)).reverse

/-- A link is taken down (R407, R415): its flits and its waiting messages go out on other links of their routes. -/
def State.linkDown (s : State) (l : Nat) : State :=
  let L := vget s.links l Link.reset
  let ms := L.pending.filterMap (·.msg) ++ L.wait
  let s : State := { s with links := vset s.links l { L with up := false, wait := [], held := [] } }
  (ms.foldl (fun s m => s.handOver m) s).service 5 2 l 0

/-- The receiver asks for the flits from LACK on (log 28): they are sent again; more than 64 times in succession take the link
down (R407). -/
def State.resendFlits (s : State) (l : Nat) : State :=
  let L := vget s.links l Link.reset
  if 64 ≤ L.resends then s.linkDown l
  else { s with links := vset s.links l { L with resends := L.resends + 1, out := L.pending.reverse ++ L.out } }

/-! ### Admission (R409) -/

/-- Messages that came ahead of their sequence are admitted as far as the sequence goes. -/
def State.admitEarly (s : State) (src ch : Nat) : Nat → State
  | 0 => s
  | fuel + 1 =>
    let n := ((s.fseqIn.find? fun x => decide (x.1 = src ∧ x.2.1 = ch)).map (·.2.2)).getD 0
    match s.early.find? fun m => decide (m.src.toNat = src ∧ channelOf m.kind = ch ∧ m.fseq = n) with
    | none => s
    | some m => State.admitEarly { s with
        early := s.early.erase m, arrived := s.arrived ++ [m],
        fseqIn := (src, ch, n + 1) :: s.fseqIn.filter fun x => decide (¬ (x.1 = src ∧ x.2.1 = ch)) } src ch fuel

/-- A message is admitted in the order of its source, destination and channel (R409); one for another device, or one that was
admitted before, is dropped. -/
def State.admitted (s : State) (m : FabMsg) : State :=
  let src := m.src.toNat
  let ch := channelOf m.kind
  let n := ((s.fseqIn.find? fun x => decide (x.1 = src ∧ x.2.1 = ch)).map (·.2.2)).getD 0
  if m.dst ≠ s.devId ∨ ¬ (m.fseq = n ∨ ahead m.fseq n) then s
  else State.admitEarly { s with early := s.early ++ [m] } src ch (s.early.length + 1)

/-- A flit that is discarded: one whose CRC fails, or the first that comes ahead of its turn, has the receiver ask for the flits
from LACK on (R407, log 28). -/
def Link.discard (L : Link) (f : FlitIn) : Link :=
  if !f.crcOk || (!L.asking && decide ((f.lseq - L.lack).toNat < 2 ^ 15)) then { L.idle with asking := true } else L

/-- FLIT (R406, R407, R409): a flit whose CRC fails, or which is not the next one, is discarded; an accepted one returns
credits, acknowledges, and may carry a message. -/
def execFlit (l : Nat) (f : FlitIn) (s : State) : Host.Outcome State Fault Refusal :=
  let L := vget s.links l Link.reset
  if 18 ≤ l ∨ ¬ L.up ∨ ¬ s.linkEn.getLsbD l then .next s
  else if ¬ f.crcOk ∨ f.lseq ≠ L.lack then .next { s with links := vset s.links l (L.discard f) }
  else
    let asks := decide (f.vc = 3 ∧ f.lack ≠ L.lseq ∧ f.lack = L.acked)
    let L := { L with
      lack := L.lack + 1, acked := f.lack, asking := false, resends := if f.lack = L.acked then L.resends else 0,
      cred := Vector.ofFn fun (i : Fin 3) => vget L.cred i.val 0 + f.cred i.val }
    let L := L.drainWait
    match f.msg with
    | none =>
      let s : State := { s with links := vset s.links l L }
      .next (if asks then s.resendFlits l else s)
    | some m =>
      let ch := channelOf m.kind
      let L := { L with owed := vset L.owed ch (vget L.owed ch 0 + 1) }.idle
      .next (State.admitted { s with links := vset s.links l L } m)

/-! ### Stamps (R379, R383, R392) -/

/-- The partition whose recorder or replay a message concerns (log 29): the lowest-numbered one that records or replays and that
owns the message's key. -/
def State.partOfMsg (s : State) (m : FabMsg) : Option Nat :=
  (List.range (partsOf s.code)).find? fun p =>
    ((s.part p).rrEn || (s.part p).replaying) && (s.part p).keyOwn.getLsbD m.key.toNat

/-- Where a message arrives: 0 a home, 1 a proxy (R386). -/
def arrivalPlace (m : FabMsg) : Nat := if m.kind = 4 then 1 else 0

/-- A logged arrival of a message. -/
def LogRec.arrivalOf (m : FabMsg) : LogRec → Option Nat
  | .arrival src pl ag ms st =>
    if src = m.src.toNat ∧ pl = arrivalPlace m ∧ ag = m.agent ∧ ms = m.mseq then some st else none
  | _ => none

/-- The logged arrival of a message that has not been performed: place in the log and stamp. -/
def Partition.logArrival (P : Partition) (m : FabMsg) : Option (Nat × Nat) :=
  (List.range P.rpLog.length).findSome? fun i =>
    if (i, false) ∈ P.rpDone then none else (P.rpLog[i]?.bind (LogRec.arrivalOf m)).map fun st => (i, st)

/-- A message that has been admitted may be handled: in replay at its logged stamp (R392). -/
def State.mayHandle (s : State) (m : FabMsg) : Bool :=
  decide (m ∈ s.arrived) && match s.partOfMsg m with
    | none => true
    | some p =>
      let P := s.part p
      !P.replaying || !decide (m.kind.toNat ≤ 4) || (match P.logArrival m with
        | some x => P.mayStart x.2
        | none => true)

/-- An arrival takes its stamp and its record, and is an access of the line by a fabric agent where it reaches one (R379, R383,
R386); in replay its logged record has been performed. The stamp is 0 outside a session. -/
def State.arrive (s : State) (m : FabMsg) (write : Option Bool) : State × Nat :=
  match s.partOfMsg m with
  | none => (s, 0)
  | some p =>
    let P := s.part p
    if P.replaying then match P.logArrival m with
      | some x => ((s.raiseHwm p x.2).logDone p (x.1, false), x.2)
      | none => (s, 0)
    else
      let st := P.hwm + 1
      if clockLimit < st then (s.endSession p true, 0)
      else
        let line := lineOf m.pa.toNat
        let s := s.raiseHwm p st
        let s := match write with
          | some w => s.modHomeClocks line m.key.toNat fun v =>
              vset v p ((vget v p Clocks.none).record st (fabricAgent m.src.toNat) w)
          | none => s
        (s.logRecord p (32 + sliceOf line / 64) (bytesOf 1 5 ++ bytesOf 1 m.src.toNat ++ bytesOf 1 (arrivalPlace m)
          ++ bytesOf 4 m.agent.toNat ++ bytesOf 4 m.mseq.toNat ++ vField st), st)

/-- A message that is handled is there no more. -/
def State.takeMsg (s : State) (m : FabMsg) : State := { s with arrived := s.arrived.erase m }

/-! ### Requests to this device's homes (R410) -/

/-- A request whose key is not installed here, or whose address is no memory of this device, is answered with an error. -/
def State.refuses (s : State) (m : FabMsg) : Bool :=
  (decide (m.key ≠ 0) && !s.mgmt.keysUsed.getLsbD m.key.toNat) || !s.local m.pa.toNat || s.badPlace m.pa.toNat

/-- The answer to a request (R408, R410). -/
def answer (m : FabMsg) (kind : Nat) (data : BitVec 1024) (clk : Nat) : FabMsg :=
  { m with kind := BitVec.ofNat 8 kind, dst := m.src, data := data, clk := BitVec.ofNat 32 clk }

/-- A request of a kind is handled by f, or answered with an error. -/
def State.serve (s : State) (m : FabMsg) (kind : Nat) (write : Bool) (f : State → State × BitVec 1024) (reply : Nat) : State :=
  if m.kind.toNat ≠ kind ∨ ¬ s.mayHandle m then s
  else
    let s := s.takeMsg m
    if s.refuses m then
      let x := s.arrive m none
      x.1.fabricSend (answer m 7 0 x.2)
    else
      let x := (s.recallLine (lineOf m.pa.toNat) m.key.toNat).arrive m (some write)
      let y := f x.1
      y.1.fabricSend (answer m reply y.2 x.2)

/-- READ_MESSAGE (R410): an access of the host party at .s. -/
def execReadMessage (m : FabMsg) (s : State) : Host.Outcome State Fault Refusal :=
  .next (s.serve m 1 false (fun s => (s, s.lineData (lineOf m.pa.toNat) m.key.toNat)) 4)

/-- WRITE_MESSAGE (R410): the bytes under MASK. -/
def execWriteMessage (m : FabMsg) (s : State) : Host.Outcome State Fault Refusal :=
  .next (s.serve m 2 true (fun s => (s.writeMasked (lineOf m.pa.toNat) m.key.toNat m.data m.mask (wholePieces m.mask), 0)) 5)

/-- ATOMIC_MESSAGE (R129, R408, R410): on a poisoned piece it is discarded, as a reduction is, and its old value is a free one
(log 15). -/
def execAtomicMessage (m : FabMsg) (s : State) : Host.Outcome State Fault Refusal :=
  let op := m.aop
  .next (s.serve m 3 true (fun s =>
    let r := s.mauPerform (op.extractLsb' 0 4) (op.getLsbD 4) (lineOf m.pa.toNat * 128 + (op.extractLsb' 7 7).toNat) m.key.toNat
      (m.data.setWidth 64) (m.data.extractLsb' 64 64)
    match r.2 with
    | some v => (r.1, v.setWidth 1024)
    | none => (r.1.takeFree, r.1.freeVal.setWidth 1024)) 6)

/-! ### Responses to this device's requests (R410) -/

/-- The request that a response answers. -/
def State.requestOf (s : State) (m : FabMsg) : Option RemoteReq :=
  s.requests.find? fun r => decide (r.msg.tag = m.tag ∧ r.msg.dst = m.src)

/-- A request has been answered. -/
def State.closeReq (s : State) (r : RemoteReq) : State := { s with requests := s.requests.filter fun x => decide (x.msg.tag ≠ r.msg.tag) }

/-- A gang that waits for another device, with an access or with its fetch, goes on once none of its own requests, and none for its
line, is open. -/
def State.wakeRemote (s : State) : State :=
  { s with blocks := s.blocks.map fun b => { b with
      gangs := b.gangs.map fun G => match G.parked with
        | some x =>
          if (x.kind = 1 ∨ x.kind = 3) ∧ ¬ s.requests.any (fun r => decide (r.gang = some (b.uid, G.idx)
              ∨ (r.msg.kind = 1 ∧ lineOf r.msg.pa.toNat = lineOf x.va.toNat))) then { G with parked := none } else G
        | none => G } }

/-- A copy job goes on when none of its requests is open. -/
def State.wakeJob (s : State) (r : RemoteReq) : State :=
  match r.job with
  | some (u, j) => if s.requests.any fun x => decide (x.job = some (u, j)) then s else s.modJob u j fun x => { x with parked := false }
  | none => s

/-- A response fills a proxy copy, but for bytes that are still to be written back (R373). -/
def State.fillProxy (s : State) (line key : Nat) (data : BitVec 1024) : State :=
  let x := s.remoteLine line key
  s.setRemote { x with data := maskLine data (~~~ x.dirty) x.data, valid := BitVec.allOnes 128 }

/-- READ_RESPONSE (R373, R410): the proxy copy is filled, unless an acquire at .s has come since the read was sent (R132); in a
recording it is an arrival (R380, R412). -/
def execReadResponse (m : FabMsg) (s : State) : Host.Outcome State Fault Refusal :=
  if m.kind.toNat ≠ 4 ∨ ¬ s.mayHandle m then .next s
  else
    let s := s.takeMsg m
    match s.requestOf m with
    | none => .next s
    | some r =>
      if r.msg.kind ≠ 1 then .next s
      else
        let s := if r.stale then (s.arrive m none).1
          else ((s.fillProxy (lineOf r.msg.pa.toNat) r.msg.key.toNat m.data).arrive m (some true)).1
        .next (((s.closeReq r).wakeRemote).wakeJob r)

/-- WRITE_ACKNOWLEDGEMENT (R374, R410): the bytes that were sent are written back, unless they have changed since. -/
def execWriteAcknowledgement (m : FabMsg) (s : State) : Host.Outcome State Fault Refusal :=
  if m.kind.toNat ≠ 5 ∨ ¬ s.mayHandle m then .next s
  else
    let s := s.takeMsg m
    match s.requestOf m with
    | none => .next s
    | some r =>
      let x := s.remoteLine (lineOf r.msg.pa.toNat) r.msg.key.toNat
      let s := if r.msg.kind = 2 ∧ r.job.isNone then s.setRemote { x with
          dirty := (List.range 128).foldl (fun d i =>
            if r.msg.mask.getLsbD i ∧ lineByte x.data i = lineByte r.msg.data i then d &&& ~~~ BitVec.twoPow 128 i else d) x.dirty }
        else s
      .next (((s.closeReq r).wakeRemote).wakeJob r)

/-- A waiting atomg has its answer: the old value, or none for a failure. -/
def State.answerAtomic (s : State) (r : RemoteReq) (v : Option Dword) : State :=
  match r.gang with
  | some (u, g) =>
    let put (op : MauOp) : MauOp := if op.tag = some r.msg.tag then { op with answer := some v } else op
    s.modGang u g fun G => { G with away := G.away.map put }
  | none => s

/-- ATOMIC_RESPONSE (R410). -/
def execAtomicResponse (m : FabMsg) (s : State) : Host.Outcome State Fault Refusal :=
  if m.kind.toNat ≠ 6 ∨ ¬ s.mayHandle m then .next s
  else
    let s := s.takeMsg m
    match s.requestOf m with
    | none => .next s
    | some r => .next (((s.answerAtomic r (some (m.data.setWidth 64))).closeReq r).wakeRemote)

/-- A gang's read or release has failed: its access raises Permission when it goes on (R410). -/
def State.failGang (s : State) (r : RemoteReq) : State :=
  match r.gang with
  | some (u, g) => s.modGang u g fun G => match G.parked with
    | some x => if x.kind = 0 then G
        else { G with parked := some { x with kind := 2, va := BitVec.ofNat 72 (lineOf r.msg.pa.toNat * 128) } }
    | none => G
  | none => s

/-- A redg that has failed: its thread has gone on, so Permission comes as an asynchronous event (log 30). -/
def State.failReduction (s : State) (r : RemoteReq) : State :=
  match r.gang with
  | some (u, g) =>
    if ((s.gang? u g).map fun G => G.away.any fun op => decide (op.tag = some r.msg.tag)).getD false then s
    else s.queueEvent u g { lane := r.lane, cause := 0x06, tpc := r.pc, taddr := r.va.setWidth 64,
                            tinfo := BitVec.ofNat 64 (6 * 2 ^ 40 + r.va.toNat / 2 ^ 64 * 2 ^ 32 + 2 ^ r.lane), job := none }
  | none => s

/-- A job's remote access has failed (R240, R410). -/
def State.failRemoteJob (s : State) (r : RemoteReq) : State :=
  match r.job with
  | some (u, j) => match (s.block? u).bind (·.job? j) with
    | some x => if x.failed then s else (s.failJob u x 0x06 r.va.toNat).modJob u j fun x => { x with parked := false }
    | none => s
  | none => s

/-- A request that an error answers, or that nothing answers (R410): Permission with reason 6 on the access; a release's bytes
are given up, and the remote ones keep their values. -/
def State.failRequest (s : State) (r : RemoteReq) : State :=
  let s := s.closeReq r
  let line := lineOf r.msg.pa.toNat
  let key := r.msg.key.toNat
  let s := match r.msg.kind.toNat with
    | 1 => if r.gang.isNone ∧ r.job.isNone then { s with deadLines := (line, key) :: s.deadLines } else s.failGang r
    | 2 =>
      let x := s.remoteLine line key
      let s := if r.job.isNone then s.setRemote { x with valid := x.valid &&& ~~~ r.msg.mask, dirty := x.dirty &&& ~~~ r.msg.mask } else s
      s.failGang r
    | _ => (s.answerAtomic r none).failReduction r
  (s.failRemoteJob r).wakeRemote

/-- ERROR_RESPONSE (R410). -/
def execErrorResponse (m : FabMsg) (s : State) : Host.Outcome State Fault Refusal :=
  if m.kind.toNat ≠ 7 ∨ ¬ s.mayHandle m then .next s
  else
    let s := s.takeMsg m
    match s.requestOf m with
    | none => .next s
    | some r => .next (s.failRequest r)

/-- RESPONSE_TIMEOUT (R410): no response within 1 ms, which is 800,000 of device time. -/
def execResponseTimeout (tag : Nat) (s : State) : Host.Outcome State Fault Refusal :=
  match s.requests.find? fun r => decide (r.msg.tag.toNat = tag) with
  | some r => if r.sent + 800000 ≤ s.time then .next (s.failRequest r) else .next s
  | none => .next s

/-- SESSION_NOTICE (R412): it orders nothing. -/
def execSessionNotice (m : FabMsg) (s : State) : Host.Outcome State Fault Refusal :=
  if m.kind = 8 ∧ m ∈ s.arrived then .next { s.takeMsg m with sessions := s.sessions ++ [m] } else .next s

end Sys2Proof.Machine
end

