-- ==== Sys2Proof/Machine/Rejoin.lean ====
section
/-! DEFINITION. The rejoin sets (R46-R51, R189, R190). The active threads are every running member (R48). -/

namespace Sys2Proof.Machine

/-- Rejoin-Membership (R50). Its TINFO is open (log 5). -/
def membership (lanes : BitVec 32) (j : BitVec 4) (s : State) : Eff :=
  trapAll 0x0A (lanes ++ j.setWidth 32) s.freeVal s.takeFree

/-- JENTER (R49). -/
def execJenter (h : Hdr) (j : BitVec 4) (s : State) : Host.Outcome State Fault Refusal :=
  issue (.jenter h j) h 7 (gangEff fun c G => G.setM j.toNat (G.m j.toNat ||| c.run)) s

/-- JQUIT (R49). -/
def execJquit (h : Hdr) (j : BitVec 4) (s : State) : Host.Outcome State Fault Refusal :=
  issue (.jquit h j) h 7 (gangEff fun c G => G.jquit j.toNat c.run) s

/-- jwait's arrival on a set by the members of b (R49): every arrived member is released, or the members block. -/
def Gang.jwait (G : Gang) (j : Nat) (b : BitVec 32) (pc : Word) : Gang :=
  let a := G.a j ||| b
  if a = G.m j then (G.setA j 0).wake a
  else (G.setA j a).modLanes b fun _ t => { t with st := .blocked (.jwait j pc), waitCount := 0 }

/-- JWAIT (R49, R50). -/
def execJwait (h : Hdr) (j : BitVec 4) (s : State) : Host.Outcome State Fault Refusal :=
  issue (.jwait h j) h 7 (fun c s =>
    if c.run &&& ~~~ c.G.m j.toNat ≠ 0 then membership (c.run &&& ~~~ c.G.m j.toNat) j s
    else gangEff (fun c G => G.jwait j.toNat c.run c.wpc) c s) s

/-- JCLR (R49, R50). -/
def execJclr (h : Hdr) (j : BitVec 4) (s : State) : Host.Outcome State Fault Refusal :=
  issue (.jclr h j) h 7 (fun c s =>
    if c.G.a j.toNat ≠ 0 then membership c.run j s else gangEff (fun _ G => G.setM j.toNat 0) c s) s

/-- JMASK (R49, R51). -/
def execJmask (h : Hdr) (j : BitVec 4) (d : BitVec 6) (s : State) : Host.Outcome State Fault Refusal :=
  issue (.jmask h j d) h 7 (gangEff fun _ G => G.setSreg d.toNat ((G.m j.toNat).setWidth 72)) s

/-- JARR (R49, R51). -/
def execJarr (h : Hdr) (j : BitVec 4) (d : BitVec 6) (s : State) : Host.Outcome State Fault Refusal :=
  issue (.jarr h j d) h 7 (gangEff fun _ G => G.setSreg d.toNat ((G.a j.toNat).setWidth 72)) s

/-- JLOAD (R49, R50). -/
def execJload (h : Hdr) (j : BitVec 4) (a : BitVec 6) (s : State) : Host.Outcome State Fault Refusal :=
  issue (.jload h j a) h 7 (fun c s =>
    if c.G.a j.toNat ≠ 0 then membership c.run j s
    else gangEff (fun _ G => G.setM j.toNat ((G.sreg a.toNat).extractLsb' 0 32 &&& G.live)) c s) s

end Sys2Proof.Machine
end

