-- ==== Sys2Proof/Machine/Scalar.lean ====
section
/-! DEFINITION. Scalar arithmetic (R198-R201) and sfirst (R206). -/

namespace Sys2Proof.Machine

/-- Bits 63:0 of a scalar register. -/
def Gang.s64 (G : Gang) (n : BitVec 6) : Dword := (G.sreg n.toNat).extractLsb' 0 64

/-- A 64-bit scalar result: bits 71:64 are cleared (R63). -/
def Gang.setS64 (G : Gang) (n : BitVec 6) (x : Dword) : Gang := G.setSreg n.toNat (x.setWidth 72)

/-- A scalar operation on two 64-bit operands (R198). -/
def salu (d a b : BitVec 6) (f : Dword → Dword → Dword) : Ctx → State → Eff :=
  gangEff fun _ G => G.setS64 d (f (G.s64 a) (G.s64 b))

/-- SADD (R198). -/
def execSadd (h : Hdr) (d a b : BitVec 6) (s : State) : Host.Outcome State Fault Refusal :=
  issue (.sadd h d a b) h 7 (salu d a b fun x y => x + y) s

/-- SSUB (R198). -/
def execSsub (h : Hdr) (d a b : BitVec 6) (s : State) : Host.Outcome State Fault Refusal :=
  issue (.ssub h d a b) h 7 (salu d a b fun x y => x - y) s

/-- SMUL (R198). -/
def execSmul (h : Hdr) (d a b : BitVec 6) (s : State) : Host.Outcome State Fault Refusal :=
  issue (.smul h d a b) h 7 (salu d a b fun x y => x * y) s

/-- SMULH_N (R198). -/
def execSmulhN (h : Hdr) (d a b : BitVec 6) (s : State) : Host.Outcome State Fault Refusal :=
  issue (.smulhN h d a b) h 7 (salu d a b fun x y => BitVec.ofNat 64 (x.toNat * y.toNat / 2 ^ 64)) s

/-- SMULH_I (R198). -/
def execSmulhI (h : Hdr) (d a b : BitVec 6) (s : State) : Host.Outcome State Fault Refusal :=
  issue (.smulhI h d a b) h 7 (salu d a b fun x y => BitVec.ofInt 64 (x.toInt * y.toInt / 2 ^ 64)) s

/-- SAND (R198). -/
def execSand (h : Hdr) (d a b : BitVec 6) (s : State) : Host.Outcome State Fault Refusal :=
  issue (.sand h d a b) h 7 (salu d a b fun x y => x &&& y) s

/-- SOR (R198). -/
def execSor (h : Hdr) (d a b : BitVec 6) (s : State) : Host.Outcome State Fault Refusal :=
  issue (.sor h d a b) h 7 (salu d a b fun x y => x ||| y) s

/-- SXOR (R198). -/
def execSxor (h : Hdr) (d a b : BitVec 6) (s : State) : Host.Outcome State Fault Refusal :=
  issue (.sxor h d a b) h 7 (salu d a b fun x y => x ^^^ y) s

/-- SANDN (R198). -/
def execSandn (h : Hdr) (d a b : BitVec 6) (s : State) : Host.Outcome State Fault Refusal :=
  issue (.sandn h d a b) h 7 (salu d a b fun x y => x &&& ~~~y) s

/-- SSHL (R198). -/
def execSshl (h : Hdr) (d a b : BitVec 6) (s : State) : Host.Outcome State Fault Refusal :=
  issue (.sshl h d a b) h 7 (salu d a b fun x y => if y.toNat < 64 then x <<< y.toNat else 0) s

/-- SSHR_N (R198). -/
def execSshrN (h : Hdr) (d a b : BitVec 6) (s : State) : Host.Outcome State Fault Refusal :=
  issue (.sshrN h d a b) h 7 (salu d a b fun x y => if y.toNat < 64 then x >>> y.toNat else 0) s

/-- SSHR_I (R198). -/
def execSshrI (h : Hdr) (d a b : BitVec 6) (s : State) : Host.Outcome State Fault Refusal :=
  issue (.sshrI h d a b) h 7 (salu d a b fun x y => x.sshiftRight (min y.toNat 63)) s

/-- SMIN_I (R198). -/
def execSminI (h : Hdr) (d a b : BitVec 6) (s : State) : Host.Outcome State Fault Refusal :=
  issue (.sminI h d a b) h 7 (salu d a b fun x y => if x.toInt ≤ y.toInt then x else y) s

/-- SMAX_I (R198). -/
def execSmaxI (h : Hdr) (d a b : BitVec 6) (s : State) : Host.Outcome State Fault Refusal :=
  issue (.smaxI h d a b) h 7 (salu d a b fun x y => if x.toInt ≤ y.toInt then y else x) s

/-- SMIN_N (R198). -/
def execSminN (h : Hdr) (d a b : BitVec 6) (s : State) : Host.Outcome State Fault Refusal :=
  issue (.sminN h d a b) h 7 (salu d a b fun x y => if x.toNat ≤ y.toNat then x else y) s

/-- SMAX_N (R198). -/
def execSmaxN (h : Hdr) (d a b : BitVec 6) (s : State) : Host.Outcome State Fault Refusal :=
  issue (.smaxN h d a b) h 7 (salu d a b fun x y => if x.toNat ≤ y.toNat then y else x) s

/-- SADDA (R198): 72 bits. -/
def execSadda (h : Hdr) (d a b : BitVec 6) (s : State) : Host.Outcome State Fault Refusal :=
  issue (.sadda h d a b) h 7 (gangEff fun _ G => G.setSreg d.toNat (G.sreg a.toNat + (G.s64 b).signExtend 72)) s

/-- SMOV (R198): 72 bits. -/
def execSmov (h : Hdr) (d a : BitVec 6) (s : State) : Host.Outcome State Fault Refusal :=
  issue (.smov h d a) h 7 (gangEff fun _ G => G.setSreg d.toNat (G.sreg a.toNat)) s

/-- The number of one bits. -/
def onesIn {n : Nat} (x : BitVec n) : Nat := ((List.range n).filter fun i => x.getLsbD i).length

/-- SPOPC (R198). -/
def execSpopc (h : Hdr) (d a : BitVec 6) (s : State) : Host.Outcome State Fault Refusal :=
  issue (.spopc h d a) h 7 (gangEff fun _ G => G.setS64 d (BitVec.ofNat 64 (onesIn (G.s64 a)))) s

/-- SADDI (R199). -/
def execSaddi (h : Hdr) (d a : BitVec 6) (i : BitVec 12) (s : State) : Host.Outcome State Fault Refusal :=
  issue (.saddi h d a i) h 7 (gangEff fun _ G => G.setS64 d (G.s64 a + BitVec.ofInt 64 (h.immOf i true))) s

/-- SSHLI (R199). -/
def execSshli (h : Hdr) (d a n : BitVec 6) (s : State) : Host.Outcome State Fault Refusal :=
  issue (.sshli h d a n) h 7 (gangEff fun _ G => G.setS64 d (G.s64 a <<< n.toNat)) s

/-- SLI (R199). -/
def execSli (h : Hdr) (d : BitVec 6) (i : BitVec 18) (s : State) : Host.Outcome State Fault Refusal :=
  issue (.sli h d i) h 7 (gangEff fun _ G => G.setS64 d (BitVec.ofInt 64 (h.immOf i true))) s

/-- SADDAI (R199): 72 bits. -/
def execSaddai (h : Hdr) (d a : BitVec 6) (i : BitVec 12) (s : State) : Host.Outcome State Fault Refusal :=
  issue (.saddai h d a i) h 7 (gangEff fun _ G => G.setSreg d.toNat (G.sreg a.toNat + BitVec.ofInt 72 (h.immOf i true))) s

/-- SCMP (R200). -/
def execScmp (h : Hdr) (p : BitVec 3) (a b k : BitVec 6) (s : State) : Host.Outcome State Fault Refusal :=
  issue (.scmp h p a b k) h 7 (memberEff fun c _ t => t.setPred p (compareInt k.toNat (c.G.s64 a) (c.G.s64 b))) s

/-- SFIRST (R206): the lowest member, the sheaf being full. -/
def execSfirst (h : Hdr) (d : BitVec 6) (a : BitVec 7) (s : State) : Host.Outcome State Fault Refusal :=
  issue (.sfirst h d a) h 7 (gangEff fun c G => G.setSreg d.toNat (((G.lane (lowest c.members)).reg a.toNat).setWidth 72)) s

end Sys2Proof.Machine
end

