-- ==== Sys2Proof/Machine/ScalarMem.lean ====
section
/-! DEFINITION. Scalar memory accesses (R202-R204) and the parameter space (R205). -/

namespace Sys2Proof.Machine

/-- The address of a scalar access (R203). -/
def scalarEa (c : Ctx) (a : BitVec 6) (i : BitVec 9) : Nat :=
  wrapTo 72 ((c.G.sreg a.toNat).toNat + c.h.immOf i true * 8)

/-- An access made once for the sheaf: its one address, under the lowest member's name. -/
def scalarAt (c : Ctx) (ea : Nat) : List (Nat × Nat) := [(lowest c.members, ea)]

/-- A pointer that stands at an address (R98): Pointer-Format when a byte of 9 to 15 is not zero; its TINFO is open
(log 5). -/
def pointerEff (d : BitVec 6) (addr : Nat) (bs : List Byte) (c : Ctx) (s : State) : Eff :=
  if zeroAt bs 9 7 then .done (s.modGang c.u c.g fun G => G.setSreg d.toNat (BitVec.ofNat 72 (fieldAt bs 0 9)))
  else memTrap 0x07 addr s.freeVal s.takeFree

/-- A scalar load of n bytes (R203). -/
def scalarLoad (n : Nat) (a : BitVec 6) (i : BitVec 9) (k : List Byte → Nat → Ctx → State → Eff) (c : Ctx) (s : State) : Eff :=
  let ea := scalarEa c a i
  match globalCheck c { Access.load n with scalar := true } (scalarAt c ea) s with
  | .error e => e
  | .ok (s, xs) =>
    let cl := clusterOf c.B.core
    let s := s.gangAccess c.u c.g (spotItems xs n) false
    let bs := xs.flatMap fun x => s.loadAt cl x n
    k bs ea c (s.loaded cl xs n)

/-- A scalar store of bytes (R203). -/
def scalarStore (a : BitVec 6) (i : BitVec 9) (bs : Ctx → List Byte) (c : Ctx) (s : State) : Eff :=
  let b := bs c
  match globalCheck c { Access.store b.length with scalar := true } (scalarAt c (scalarEa c a i)) s with
  | .error e => e
  | .ok (s, xs) =>
    let s := s.gangAccess c.u c.g (spotItems xs b.length) true
    .done (xs.foldl (fun s x => s.storeAt c x b) s)

/-- What a scalar load of a width code writes (R203): zero- or sign-extended to 64 bits. -/
def scalarLoaded (w : BitVec 3) (bs : List Byte) : Wide :=
  match w.toNat with
  | 1 => ((BitVec.ofNat 8 (ofBytes bs)).signExtend 64).setWidth 72
  | 3 => ((BitVec.ofNat 16 (ofBytes bs)).signExtend 64).setWidth 72
  | _ => BitVec.ofNat 72 (ofBytes bs)

/-- SLD (R203). -/
def execSld (h : Hdr) (d a : BitVec 6) (w : BitVec 3) (i : BitVec 9) (s : State) : Host.Outcome State Fault Refusal :=
  issue (.sld h d a w i) h 7 (scalarLoad (widthBytes w) a i fun bs _ c s =>
    .done (s.modGang c.u c.g fun G => G.setSreg d.toNat (scalarLoaded w bs))) s

/-- SLDP (R203, R98). -/
def execSldp (h : Hdr) (d a : BitVec 6) (i : BitVec 9) (s : State) : Host.Outcome State Fault Refusal :=
  issue (.sldp h d a i) h 7 (scalarLoad 16 a i fun bs ea => pointerEff d ea bs) s

/-- SST (R203). -/
def execSst (h : Hdr) (d a : BitVec 6) (w : BitVec 3) (i : BitVec 9) (s : State) : Host.Outcome State Fault Refusal :=
  issue (.sst h d a w i) h 7 (scalarStore a i fun c => bytesOf (widthBytes w) (c.G.sreg d.toNat).toNat) s

/-- SSTP (R203, R98). -/
def execSstp (h : Hdr) (d a : BitVec 6) (i : BitVec 9) (s : State) : Host.Outcome State Fault Refusal :=
  issue (.sstp h d a i) h 7 (scalarStore a i fun c => bytesOf 16 (c.G.sreg d.toNat).toNat) s

/-- SLDPARAM (R205). -/
def execSldparam (h : Hdr) (d : BitVec 6) (w : BitVec 3) (o : BitVec 12) (s : State) : Host.Outcome State Fault Refusal :=
  issue (.sldparam h d w o) h 7 (fun c s =>
    let n := widthBytes w
    let bs := (c.L.r.param.drop o.toNat).take n
    if o.toNat % n ≠ 0 then memTrap 0x03 o.toNat (memInfo 0 0 c.members) s
    else if w = 6 then pointerEff d o.toNat bs c s
    else .done (s.modGang c.u c.g fun G => G.setSreg d.toNat (BitVec.ofNat 72 (ofBytes bs)))) s

end Sys2Proof.Machine
end

