-- ==== Sys2Proof/Machine/Sha512.lean ====
section
/-! DEFINITION. SHA-512 (FIPS 180-4), of which an attestation report holds that of the running image (R418). -/

namespace Sys2Proof.Machine

/-- The largest number below 2^n, added to x, whose k-th power does not pass v: bits are settled from the highest on. -/
def rootBits (k v : Nat) : Nat → Nat → Nat
  | 0, x => x
  | n + 1, x => rootBits k v n (if (x + 2 ^ n) ^ k ≤ v then x + 2 ^ n else x)

/-- The first 64 bits of the fractional part of the k-th root of p. -/
def rootFraction (k p : Nat) : Dword := BitVec.ofNat 64 (rootBits k (p * 2 ^ (64 * k)) 69 0)

/-- The first n primes, from a candidate on. -/
def primesFrom : Nat → Nat → List Nat
  | 0, _ => []
  | fuel + 1, c => (if (List.range c).any fun d => decide (2 ≤ d ∧ c % d = 0) then [] else [c]) ++ primesFrom fuel (c + 1)

/-- The primes below 410, which are the first 80. -/
def shaPrimes : List Nat := primesFrom 408 2

/-- The round constants: of the cube roots of the first 80 primes. -/
def shaK : List Dword := shaPrimes.map (rootFraction 3)

/-- The first hash value: of the square roots of the first eight primes. -/
def shaStart : List Dword := (shaPrimes.take 8).map (rootFraction 2)

/-- A 64-bit word rotated right. -/
def rotR (x : Dword) (n : Nat) : Dword := (x >>> n) ||| (x <<< (64 - n))

/-- The message schedule of a block from its 16 words. -/
def shaSchedule (w : List Dword) : List Dword :=
  (List.range 64).foldl (fun w i =>
    let a := w.getD (i + 14) 0
    let b := w.getD (i + 1) 0
    let s1 := rotR a 19 ^^^ rotR a 61 ^^^ (a >>> 6)
    let s0 := rotR b 1 ^^^ rotR b 8 ^^^ (b >>> 7)
    w ++ [s1 + w.getD (i + 9) 0 + s0 + w.getD i 0]) w

/-- One round. -/
def shaRound (h : List Dword) (k w : Dword) : List Dword :=
  let v (i : Nat) : Dword := h.getD i 0
  let s1 := rotR (v 4) 14 ^^^ rotR (v 4) 18 ^^^ rotR (v 4) 41
  let ch := (v 4 &&& v 5) ^^^ (~~~ (v 4) &&& v 6)
  let t1 := v 7 + s1 + ch + k + w
  let s0 := rotR (v 0) 28 ^^^ rotR (v 0) 34 ^^^ rotR (v 0) 39
  let mj := (v 0 &&& v 1) ^^^ (v 0 &&& v 2) ^^^ (v 1 &&& v 2)
  [t1 + (s0 + mj), v 0, v 1, v 2, v 3 + t1, v 4, v 5, v 6]

/-- Eight bytes, most significant first. -/
def shaWord (bs : List Byte) : Dword := BitVec.ofNat 64 (ofBytes bs.reverse)

/-- One block of 128 bytes. -/
def shaBlock (h : List Dword) (bs : List Byte) : List Dword :=
  let w := shaSchedule ((List.range 16).map fun i => shaWord ((bs.drop (8 * i)).take 8))
  let r := (List.range 80).foldl (fun x i => shaRound x (shaK.getD i 0) (w.getD i 0)) h
  (List.range 8).map fun i => h.getD i 0 + r.getD i 0

/-- The padded message. -/
def shaPad (bs : List Byte) : List Byte :=
  let z := (239 - bs.length % 128) % 128
  bs ++ [0x80#8] ++ List.replicate z 0 ++ (bytesOf 16 (8 * bs.length)).reverse

/-- The blocks of a message. -/
def shaBlocks (h : List Dword) : Nat → List Byte → List Dword
  | 0, _ => h
  | n + 1, bs => shaBlocks (shaBlock h (bs.take 128)) n (bs.drop 128)

/-- SHA-512 of a list of bytes: 64 bytes. -/
def sha512 (bs : List Byte) : List Byte :=
  let m := shaPad bs
  (shaBlocks shaStart (m.length / 128) m).flatMap fun w => (bytesOf 8 w.toNat).reverse

end Sys2Proof.Machine
end

