-- ==== Sys2Proof/Machine/Service.lean ====
section
/-! DEFINITION. The management port's commands, bring-up, repair in service, firmware, identity, keys, power and cooling
(R12, R13, R18, R354, R403, R404, R409, R413-R420). -/

namespace Sys2Proof.Machine

/-! ### The management port (R413) -/

/-- A request in sequence carries its command out and is answered: 0 and its content, or 1 when it is refused (log 31); one at
or below the last accepted sequence number is discarded and counted. A request whose signature does not hold is discarded in the
same way, and is given here as sequence number 0. -/
def State.command (s : State) (seq first : Nat) (run : State → Option (State × List Byte)) : State :=
  if s.mgmt.step < first then s
  else if seq ≤ s.mgmt.lastSeq then { s with mgmt := { s.mgmt with discarded := s.mgmt.discarded + 1 } }
  else
    let s : State := { s with mgmt := { s.mgmt with lastSeq := seq } }
    match run s with
    | some (s, bs) => { s with mgmt := { s.mgmt with reply := some (0, bs) } }
    | none => { s with mgmt := { s.mgmt with reply := some (1, []) } }

/-- A command without content in its answer, carried out where a condition holds. -/
def State.setting (s : State) (seq : Nat) (ok : State → Bool) (f : State → State) : State :=
  s.command seq 4 fun s => if ok s then some (f s, []) else none

/-- Some queue of the device runs: STATE 1, or 3 while it stops (R308, R354). -/
def State.queueRuns (s : State) : Bool :=
  s.parts.toList.any fun P => P.queues.toList.any fun q => decide (q.st = 1 ∨ q.st = 3)

/-- PARTCFG (R354, R413). -/
def execPartcfg (seq code : Nat) (s : State) : Host.Outcome State Fault Refusal :=
  .next (s.setting seq (fun s => decide (code ≤ 2) && !s.queueRuns) fun s => { s with code := BitVec.ofNat 2 code })

/-- CONNBIND (R403). -/
def execConnbind (seq c p : Nat) (addr : BitVec 144) (s : State) : Host.Outcome State Fault Refusal :=
  .next (s.setting seq (fun s => decide (c < 256) && decide (p < partsOf s.code)) fun s =>
    s.modConn c fun _ => { Conn.reset with part := p, addr := addr, bound := true })

/-- CONNRESET (R404). -/
def execConnreset (seq c : Nat) (s : State) : Host.Outcome State Fault Refusal :=
  .next (s.setting seq (fun _ => decide (c < 256)) fun s =>
    s.modConn c fun C => { C with error := false, held := C.held.map fun x => { x with tries := 0 } })

/-- The dies' caches give up all that they hold. -/
def State.emptyDies (s : State) : State :=
  let s := (List.range 32).foldl (fun s cl => s.releaseCluster cl) s
  let s := s.l2.foldl (fun s x => s.recallLine x.line x.key) s
  { s with l1 := [], l2 := [], dir := [], tlb := [], tables := [] }

/-- The device takes another number: its caches are written back first, and what stands beside its memory's lines goes with them
to their new addresses (R352, R409). -/
def State.renumber (s : State) (id : BitVec 8) : State :=
  if s.devId = id then s
  else
    let old := s.devId.toNat
    let s := s.emptyDies
    let s := s.l3.foldl (fun s x => s.l3Drop x.line x.key) s
    { s with
      devId := id
      remote := s.remote.filter fun x => decide (devOf (x.line * 128) ≠ id.toNat)
      lines := s.lines.map fun m =>
        if m.line / 2 ^ 37 = old then { m with line := id.toNat * 2 ^ 37 + m.line % 2 ^ 37 } else m }

/-- FABCFG (R409): FABCTL, whose DEVID is ignored while a queue runs, and some ROUTE masks. -/
def execFabcfg (seq : Nat) (ctl : BitVec 64) (routes : List (Nat × BitVec 18)) (s : State) : Host.Outcome State Fault Refusal :=
  .next (s.setting seq (fun _ => true) fun s =>
    let s := if s.queueRuns then s else s.renumber (ctl.setWidth 8)
    { s with
      linkEn := ctl.extractLsb' 8 18
      routes := routes.foldl (fun r x => vset r x.1 x.2) s.routes })

/-! ### Keys (R419) -/

/-- What was written under a slot's earlier key pair does not read back under another one (R355, log 9). -/
def State.otherPair (s : State) (id : Nat) (blob : List Byte) : State :=
  if s.mgmt.keyPairs.any fun x => decide (x.1 = id ∧ x.2 ≠ blob) then
    { s with lines := s.lines.map fun m => if m.key % 256 = id then { m with key := m.key + 256 } else m }
  else s

/-- KEYINST (R419). -/
def execKeyinst (seq id p : Nat) (blob : List Byte) (s : State) : Host.Outcome State Fault Refusal :=
  .next (s.setting seq (fun s => decide (id ≠ 0) && decide (id < 256) && decide (p < partsOf s.code)
      && !s.mgmt.keysUsed.getLsbD id && Config.keyUnwraps blob) fun s =>
    let s := s.otherPair id blob
    let s : State := { s with mgmt := { s.mgmt with
      keysUsed := s.mgmt.keysUsed ||| BitVec.twoPow 256 id
      keyPairs := (id, blob) :: s.mgmt.keyPairs.filter fun x => decide (x.1 ≠ id) } }
    s.modPart p fun P => { P with keyOwn := P.keyOwn ||| BitVec.twoPow 256 id })

/-! ### The spare pool (R415) -/

/-- The frames of the pool at its fullest, and those that stand for one channel. -/
def poolLimit : Nat := 49152

/-- The channel, with its slice, of a 64 KiB frame of this device (R352). -/
def channelOfFrame (f : Nat) : Nat := sliceOf (f * 512)

/-- The list after a declaration from a starting index on, which an entry of zero ends; none where an entry is refused (log 31):
one that is no memory of this device, is listed already, or lies on a retired channel; nor may a frame in use leave the list. -/
def Mgmt.poolAfter (m : Mgmt) (start : Nat) (frames : List (BitVec 64)) : Option (List (Nat × Bool)) :=
  let es := (frames.takeWhile fun e => decide (e ≠ 0)).map BitVec.toNat
  let stop := start + es.length
  let tail := if es.length < frames.length then [] else m.pool.drop stop
  let left := m.pool.take start ++ tail
  let gone := if es.length < frames.length then m.pool.drop start else (m.pool.drop start).take es.length
  let good (e : Nat) : Bool := decide (e * 2 ^ 16 < hbmLimit) && !left.any (fun x => decide (x.1 = e))
    && !m.retired.any fun r => decide (r.1 = channelOfFrame e)
  if start ≤ m.pool.length ∧ frames.length ≤ 1024 ∧ stop ≤ poolLimit ∧ es.all good = true ∧ es.Nodup
      ∧ gone.any (fun x => x.2) = false then
    some (m.pool.take start ++ es.map (fun e => (e, false)) ++ tail)
  else none

/-- SPAREPOOL (R415). -/
def execSparepool (seq start : Nat) (frames : List (BitVec 64)) (s : State) : Host.Outcome State Fault Refusal :=
  .next (s.command seq 4 fun s => (s.mgmt.poolAfter start frames).map fun pool =>
    ({ s with mgmt := { s.mgmt with pool := pool } }, []))

/-! ### Firmware (R417) -/

/-- FWSTAGE (R417): a valid image that the fused counter does not refuse stands in flash beside the running one. -/
def execFwstage (seq : Nat) (version engine : BitVec 32) (image : List Byte) (s : State) : Host.Outcome State Fault Refusal :=
  .next (s.setting seq (fun s => Config.signatureValid (bytesOf 4 version.toNat ++ bytesOf 4 engine.toNat ++ image)
      && decide (s.mgmt.fwFused.toNat ≤ version.toNat)) fun s =>
    { s with mgmt := { s.mgmt with fwStaged := some (version, engine, image) } })

/-- A partition has contexts that its cores would have to restore: saved ones, or those that its blocks would save (R294,
R417). -/
def State.holdsContexts (s : State) (p : Nat) : Bool :=
  s.launches.any fun L => decide (L.part = p)
    && (!L.saved.isEmpty || s.blocks.any fun b => decide (b.launch = L.id))

/-- FWAPPLY (R417): each partition's blocks are pre-empted and resume under the staged image; one that holds contexts is not
updated while the engine image version changes, and is named in the answer. -/
def execFwapply (seq : Nat) (s : State) : Host.Outcome State Fault Refusal :=
  .next (s.command seq 4 fun s => match s.mgmt.fwStaged with
    | none => none
    | some (version, engine, image) =>
      let ps := List.range (partsOf s.code)
      let held := ps.filter fun p => decide ((s.part p).engine ≠ engine) && s.holdsContexts p
      let moved := ps.filter fun p => !decide (p ∈ held)
      let s := s.migrate fun c => moved.any fun p => decide (dieOf c ∈ diesOf s.code p)
      let s := ((List.range 4).filter fun p => !decide (p ∈ held)).foldl (fun s p =>
        s.modPart p fun P => { P with engine := engine }) s
      some ({ s with mgmt := { s.mgmt with
        fwVersion := version, fwEngine := engine, fwImage := image, fwHeld := held
        fwStaged := if held.isEmpty then none else s.mgmt.fwStaged } }, held.map (BitVec.ofNat 8)))

/-! ### What the controller returns -/

/-- A service record (R416). -/
def ServiceRec.bytes (r : ServiceRec) : List Byte :=
  bytesOf 8 r.time ++ bytesOf 1 r.kind ++ bytesOf 1 r.result ++ bytesOf 6 r.unit ++ bytesOf 8 r.pa ++ bytesOf 8 r.count

/-- SVCREAD (R414-R416): the step at which bring-up stopped, the service records from one on, and the spare-pool list, in a
layout of the model's own (log 31). It is answered once the controller runs. -/
def execSvcread (seq first : Nat) (s : State) : Host.Outcome State Fault Refusal :=
  .next (s.command seq 1 fun s =>
    let m := s.mgmt
    let rs := m.records.drop first
    some (s, bytesOf 8 m.failedStep ++ bytesOf 4 rs.length ++ bytesOf 4 m.pool.length ++ rs.flatMap ServiceRec.bytes
      ++ m.pool.flatMap fun x => bytesOf 8 (x.1 + if x.2 then 2 ^ 63 else 0)))

/-- The code of an entry's STATE (R360). -/
def DirState.code : DirState → Nat
  | .i => 0
  | .s => 1
  | .e => 2
  | .m => 3
  | .o => 4
  | .p => 5
  | .busy => 7

/-- A directory entry's 64 bits (R360). -/
def DirEntry.bits (e : DirEntry) : Nat :=
  e.line % 2 ^ 45 * 2 ^ 19 + e.key % 256 * 2 ^ 11 + e.st.code * 2 ^ 8 + e.sharers.toNat * 2 ^ 4 + e.owner.toNat * 4
    + (if e.priv then 2 else 0) + (if e.remote then 1 else 0)

/-- DIRDUMP (R360): the entries of one slice that hold a line. -/
def execDirdump (seq sl : Nat) (s : State) : Host.Outcome State Fault Refusal :=
  .next (s.command seq 4 fun s =>
    if sl < 256 then
      some (s, (s.dir.filter fun e => decide (sliceOf e.line = sl) && decide (e.st ≠ .i)).flatMap fun e => bytesOf 8 e.bits)
    else none)

/-- Bytes 0 to 167 of an attestation report (R418). -/
def State.report (s : State) (nonce : List Byte) : List Byte :=
  padTo 168 (nonce ++ bytesOf 4 s.mgmt.fwVersion.toNat ++ bytesOf 4 s.mgmt.fwFused.toNat ++ sha512 s.mgmt.fwImage
    ++ bytesOf 1 s.code.toNat ++ bytesOf 32 s.mgmt.keysUsed.toNat)

/-- ATTEST (R418): the report and its signature over the SHA-512 of it. -/
def execAttest (seq : Nat) (nonce : List Byte) (s : State) : Host.Outcome State Fault Refusal :=
  .next (s.command seq 4 fun s =>
    if nonce.length = 32 then
      let sig := Config.attestSignature (sha512 (s.report nonce))
      some (s, s.report nonce ++ (List.range 64).map fun i => sig.getD i 0)
    else none)

/-! ### Power and cooling (R420) -/

/-- POWCAP (R420). -/
def execPowcap (seq watts : Nat) (s : State) : Host.Outcome State Fault Refusal :=
  .next (s.setting seq (fun _ => decide (1200 ≤ watts) && decide (watts ≤ 2600)) fun s =>
    { s with mgmt := { s.mgmt with capWatts := watts } })

/-- THROTTLE (R420): the arithmetic clock falls by 50 MHz. -/
def execThrottle (s : State) : Host.Outcome State Fault Refusal :=
  .next { s with mgmt := { s.mgmt with clockMHz := if 50 < s.mgmt.clockMHz then s.mgmt.clockMHz - 50 else s.mgmt.clockMHz } }

/-- THERMAL_STOP (R420): every block is pre-empted, and no block is placed until the device has cooled. -/
def execThermalStop (d : Nat) (s : State) : Host.Outcome State Fault Refusal :=
  if s.mgmt.thermal then .next s
  else
    let s := (s.migrate fun _ => true).service 8 2 d 0
    .next { s with mgmt := { s.mgmt with thermal := true } }

/-- THERMAL_RESUME (R420): the blocks resume; dies that had been powered down, which they are once every block is saved,
restart with empty caches, whose dirty bytes were written back before. -/
def execThermalResume (s : State) : Host.Outcome State Fault Refusal :=
  if s.mgmt.thermal then
    let s := if s.blocks.isEmpty then s.emptyDies else s
    .next { s with mgmt := { s.mgmt with thermal := false } }
  else .next s

/-! ### Bring-up (R414) -/

/-- Failed cores replaced by the spares of their clusters as far as those reach (R414, R415). -/
def Mgmt.replace (m : Mgmt) (cores : List Nat) : Mgmt :=
  cores.foldl (fun m c =>
    if 256 ≤ c ∨ c ∈ m.failedCores then m
    else if clusterOf c ∈ m.sparesUsed then
      { m with failedCores := c :: m.failedCores, l1Out := (clusterOf c, c % 8) :: m.l1Out }
    else { m with sparesUsed := clusterOf c :: m.sparesUsed }) m

/-- The highest valid version starts (R417): the staged image passed its verification. -/
def Mgmt.boot (m : Mgmt) : Mgmt :=
  match m.fwStaged with
  | some (version, engine, image) =>
    if m.fwVersion.toNat < version.toNat then
      { m with fwVersion := version, fwEngine := engine, fwImage := image, fwStaged := none, fwHeld := [] }
    else m
  | none => m

/-- POWER_ON (R414): bring-up runs to its end, or to a step that fails, whose code SVCREAD gives. -/
def execPowerOn (fail : Nat) (badCores : List Nat) (s : State) : Host.Outcome State Fault Refusal :=
  if s.mgmt.step = 4 then .next s
  else if 1 ≤ fail ∧ fail ≤ 4 then
    .next { s with mgmt := { (if fail = 1 then s.mgmt else s.mgmt.boot) with step := fail - 1, failedStep := fail } }
  else
    let m := s.mgmt.boot
    .next { s with
      time := 0
      parts := s.parts.map fun P => { P with engine := m.fwEngine }
      mgmt := { m.replace badCores with step := 4, failedStep := 0 } }

/-- POWER_FAILURE (R417): everything but flash, fuses and the model's own counters is lost, until the next bring-up. -/
def execPowerFailure (s : State) : Host.Outcome State Fault Refusal :=
  let m := s.mgmt
  .next { State.reset with
    tick := s.tick, freeCtr := s.freeCtr
    mgmt := { Mgmt.reset with
      step := 0, fwVersion := m.fwVersion, fwEngine := m.fwEngine, fwImage := m.fwImage, fwStaged := m.fwStaged,
      fwFused := m.fwFused, lastSeq := m.lastSeq } }

/-! ### Repair in service (R415) -/

/-- A slice position of a cluster is lost after its dirty bytes have gone to the L2; the next working one serves its lines
(R112). -/
def State.losePosition (s : State) (cluster pos : Nat) : State :=
  if (cluster, pos) ∈ s.mgmt.l1Out then s
  else
    let xs := s.sliceLines cluster pos
    let s := xs.foldl (fun s x => s.writeBack cluster x.line x.key) s
    let gone (x : L1Line) : Bool := xs.any fun y => decide (y.cluster = x.cluster ∧ y.line = x.line ∧ y.key = x.key)
    { s with
      l1 := s.l1.filter fun x => !gone x
      mgmt := { s.mgmt with l1Out := (cluster, pos) :: s.mgmt.l1Out } }

/-- CORE_FAILURE (R13, R112, R319, R415): the cluster's spare takes the core's place, or the cluster goes on without it. -/
def execCoreFailure (core : Nat) (s : State) : Host.Outcome State Fault Refusal :=
  if 256 ≤ core ∨ core ∈ s.mgmt.failedCores then .next s
  else
    let cl := clusterOf core
    let s : State := (({ s with tlb := s.tlb.filter fun t => decide (t.core ≠ core) } : State)).migrate fun c => decide (c = core)
    if cl ∉ s.mgmt.sparesUsed then
      let s : State := { s with mgmt := { s.mgmt with sparesUsed := cl :: s.mgmt.sparesUsed } }
      .next (s.service 1 1 core 0)
    else
      let s := s.losePosition cl (core % 8)
      let s : State := { s with mgmt := { s.mgmt with failedCores := core :: s.mgmt.failedCores } }
      .next (s.repositioned.service 1 2 core 0)

/-- A slice writes its dirty lines back to HBM4 and drops its lines, with FLOOR (R377); those that an L2 holds go on with their new
home (log 8). -/
def State.emptySlice (s : State) (sl : Nat) : State :=
  (s.l3.filter fun x => decide (sliceOf x.line = sl)).foldl (fun s x =>
    if (s.holdersOf x.line x.key).isEmpty && !s.tracked x.line x.key then s.l3Drop x.line x.key
    else (s.hbmPut x).modL3 x.line x.key fun y => { y with dirty := false }) s

/-- SLICE_FAILURE (R415): the partner slice serves both channels; without it there is no repair. -/
def execSliceFailure (sl : Nat) (s : State) : Host.Outcome State Fault Refusal :=
  if 256 ≤ sl ∨ sl ∈ s.mgmt.slicesOut then .next s
  else if (sl ^^^ 1) ∈ s.mgmt.slicesOut then .next (s.service 2 3 sl 0)
  else
    let s := s.emptySlice sl
    let s : State := { s with mgmt := { s.mgmt with slicesOut := sl :: s.mgmt.slicesOut } }
    .next (s.service 2 2 sl 0)

/-- ROW_ERRORS (R415): the row is copied to one of the channel's 64 spare rows. -/
def execRowErrors (ch row : Nat) (s : State) : Host.Outcome State Fault Refusal :=
  if 256 ≤ ch then .next s
  else if 64 ≤ (s.mgmt.rows.filter fun x => decide (x.1 = ch)).length then .next (s.service 3 3 ch 0)
  else
    let s : State := { s with mgmt := { s.mgmt with rows := (ch, row) :: s.mgmt.rows } }
    .next (s.service 3 1 ch 0)

/-- CHANNEL_FAILURE (R415): the channel's frames move to free frames of the pool, none of them on the channel itself; with too
few, the retirement is not made. -/
def execChannelFailure (ch : Nat) (s : State) : Host.Outcome State Fault Refusal :=
  if 256 ≤ ch ∨ s.mgmt.retired.any (fun r => decide (r.1 = ch)) then .next s
  else
    let free := s.mgmt.pool.filter fun x => !x.2 && decide (channelOfFrame x.1 ≠ ch)
    if free.length < poolLimit then .next (s.service 4 3 ch 0)
    else
      let s : State := { s with mgmt := { s.mgmt with
        retired := (ch, free.map (·.1)) :: s.mgmt.retired
        pool := s.mgmt.pool.map fun x => if channelOfFrame x.1 ≠ ch then (x.1, true) else x } }
      .next (s.service 4 1 ch 0)

/-- LINK_LANE_FAILURE (R415): a link with fewer working lanes runs on 4 of them, or on 2, or is taken down. -/
def execLinkLaneFailure (l lanes : Nat) (s : State) : Host.Outcome State Fault Refusal :=
  let L := vget s.links l Link.reset
  if 18 ≤ l ∨ ¬ L.up ∨ L.lanes ≤ lanes then .next s
  else if lanes < 2 then .next (s.linkDown l)
  else
    let s : State := { s with links := vset s.links l { L with lanes := if 4 ≤ lanes then 4 else 2 } }
    .next (s.service 5 2 l 0)

end Sys2Proof.Machine
end

