-- ==== Sys2Proof/Machine/Special.lean ====
section
/-! DEFINITION. Predicates and elect (R191, R192), reggrow (R193, R70), special registers (R194, R195), the device clock
(R196, R197). -/

namespace Sys2Proof.Machine

/-- PAND (R192). -/
def execPand (h : Hdr) (g d a b : BitVec 3) (s : State) : Host.Outcome State Fault Refusal :=
  issue (.pand h g d a b) h g (laneEff fun _ _ t => t.setPred d (t.pred a && t.pred b)) s

/-- POR (R192). -/
def execPor (h : Hdr) (g d a b : BitVec 3) (s : State) : Host.Outcome State Fault Refusal :=
  issue (.por h g d a b) h g (laneEff fun _ _ t => t.setPred d (t.pred a || t.pred b)) s

/-- PXOR (R192). -/
def execPxor (h : Hdr) (g d a b : BitVec 3) (s : State) : Host.Outcome State Fault Refusal :=
  issue (.pxor h g d a b) h g (laneEff fun _ _ t => t.setPred d (t.pred a != t.pred b)) s

/-- PANDN (R192). -/
def execPandn (h : Hdr) (g d a b : BitVec 3) (s : State) : Host.Outcome State Fault Refusal :=
  issue (.pandn h g d a b) h g (laneEff fun _ _ t => t.setPred d (t.pred a && !t.pred b)) s

/-- PNOT (R192). -/
def execPnot (h : Hdr) (g d a : BitVec 3) (s : State) : Host.Outcome State Fault Refusal :=
  issue (.pnot h g d a) h g (laneEff fun _ _ t => t.setPred d (!t.pred a)) s

/-- PMOV (R192). -/
def execPmov (h : Hdr) (g d : BitVec 3) (a : BitVec 7) (s : State) : Host.Outcome State Fault Refusal :=
  issue (.pmov h g d a) h g (laneEff fun _ _ t => t.setPred d (decide (t.reg a.toNat ≠ 0))) s

/-- PGET (R192). -/
def execPget (h : Hdr) (g : BitVec 3) (d : BitVec 6) (a : BitVec 3) (s : State) : Host.Outcome State Fault Refusal :=
  issue (.pget h g d a) h g (gangEff fun c G => G.setSreg d.toNat ((c.act &&& G.guardMask a).setWidth 72)) s

/-- ELECT (R192). -/
def execElect (h : Hdr) (g d : BitVec 3) (s : State) : Host.Outcome State Fault Refusal :=
  issue (.elect h g d) h g (laneEff fun c l t => t.setPred d (decide (l = lowest c.act))) s

/-- A vector budget that reggrow may ask for (R70). -/
def budgetOk (n : Nat) : Bool := decide (n % 8 = 0) && decide (16 ≤ n) && decide (n ≤ 112)

/-- REGGROW (R70, R193): the gang's threads block until the request is granted. -/
def execReggrow (h : Hdr) (n : BitVec 9) (s : State) : Host.Outcome State Fault Refusal :=
  issue (.reggrow h n) h 7 (fun c s =>
    if !budgetOk n.toNat then trapOpen 0x0E s
    else if n.toNat ≤ c.G.vb then .done s
    else .done (s.modGang c.u c.g fun G =>
      { G.modLanes G.eligible fun _ t => { t with st := .blocked .reggrow, waitCount := 0 } with
        grow := some (n.toNat, s.time) })) s

/-- A per-gang special register (R67). -/
def Ctx.gangSpecial (c : Ctx) (n : Nat) : Word :=
  let lin := c.B.lin
  match n with
  | 0x20 => BitVec.ofNat 32 c.g
  | 0x21 => BitVec.ofNat 32 c.G.role
  | 0x22 => BitVec.ofNat 32 c.G.vb
  | 0x23 => BitVec.ofNat 32 c.G.sb
  | 0x24 => c.G.live
  | 0x25 => c.G.fpstat.setWidth 32
  | 0x26 => c.G.spfault
  | 0x27 => BitVec.ofNat 32 (lin % c.L.r.gridX)
  | 0x28 => BitVec.ofNat 32 (lin / c.L.r.gridX % c.L.r.gridY)
  | 0x29 => BitVec.ofNat 32 (lin / c.L.r.gridX / c.L.r.gridY)
  | 0x2A => BitVec.ofNat 32 lin
  | 0x2B => BitVec.ofNat 32 (lin / 2 ^ 32)
  | 0x2C => BitVec.ofNat 32 c.L.r.gridX
  | 0x2D => BitVec.ofNat 32 c.L.r.gridY
  | 0x2E => BitVec.ofNat 32 c.L.r.gridZ
  | 0x2F => BitVec.ofNat 32 c.L.r.gangs
  | 0x30 => BitVec.ofNat 32 (vcoreOf lin)
  | _ => 0

/-- The global index of a thread (R67, GTID). -/
def Ctx.gtid (c : Ctx) (l : Nat) : Nat := (c.B.lin * c.L.r.gangs + c.g) * 32 + l

/-- A per-thread special register of lane l (R67). -/
def Ctx.threadSpecial (c : Ctx) (n l : Nat) (t : Lane) : Word :=
  match n with
  | 0x00 => BitVec.ofNat 32 l
  | 0x01 => c.wpc
  | 0x02 => t.lnk
  | 0x03 => t.draw.extractLsb' 0 32
  | 0x04 => t.draw.extractLsb' 32 32
  | 0x05 => BitVec.ofNat 32 (c.gtid l)
  | 0x06 => BitVec.ofNat 32 (c.gtid l / 2 ^ 32)
  | 0x08 => t.tcause.extractLsb' 0 32
  | 0x09 => t.tpc.extractLsb' 0 32
  | 0x0A => t.taddr.extractLsb' 0 32
  | 0x0B => t.taddr.extractLsb' 32 32
  | 0x0C => t.tinfo.extractLsb' 0 32
  | 0x0D => t.tinfo.extractLsb' 32 32
  | _ => 0

/-- SGET (R195). -/
def execSget (h : Hdr) (d n : BitVec 6) (s : State) : Host.Outcome State Fault Refusal :=
  issue (.sget h d n) h 7 (gangEff fun c G => G.setSreg d.toNat ((c.gangSpecial n.toNat).setWidth 72)) s

/-- SSET (R68, R195): FPSTAT, the only register it writes. -/
def execSset (h : Hdr) (a n : BitVec 6) (s : State) : Host.Outcome State Fault Refusal :=
  issue (.sset h a n) h 7 (gangEff fun _ G => { G with fpstat := (G.sreg a.toNat).extractLsb' 0 5 }) s

/-- VGET_GANG (R195). -/
def execVgetGang (h : Hdr) (d : BitVec 7) (n : BitVec 6) (s : State) : Host.Outcome State Fault Refusal :=
  issue (.vgetGang h d n) h 7 (memberEff fun c _ t => t.setReg d.toNat (c.gangSpecial n.toNat)) s

/-- VGET_THREAD (R195). -/
def execVgetThread (h : Hdr) (g : BitVec 3) (d : BitVec 7) (n : BitVec 6) (s : State) : Host.Outcome State Fault Refusal :=
  issue (.vgetThread h g d n) h g (laneEff fun c l t => t.setReg d.toNat (c.threadSpecial n.toNat l t)) s

/-- CLK_SCALAR (R196). -/
def execClkScalar (h : Hdr) (d : BitVec 6) (s : State) : Host.Outcome State Fault Refusal :=
  issue (.clkScalar h d) h 7 (fun c s =>
    gangEff (fun _ G => G.setSreg d.toNat ((s.clkValue c.u c.g).setWidth 72)) c (s.clkLog c.u c.g)) s

/-- CLK_VECTOR (R196). -/
def execClkVector (h : Hdr) (d : BitVec 7) (s : State) : Host.Outcome State Fault Refusal :=
  issue (.clkVector h d) h 7 (fun c s =>
    memberEff (fun _ _ t => t.setPair d.toNat (s.clkValue c.u c.g)) c (s.clkLog c.u c.g)) s

end Sys2Proof.Machine
end

