-- ==== Sys2Proof/Machine/VectorInt.lean ====
section
/-! DEFINITION. Vector integer arithmetic, comparison and selection (R248-R253). -/

namespace Sys2Proof.Machine

/-- A 32-bit operation on two operands in each active lane (R245, R249). -/
def v3 (d a b : BitVec 7) (f : Word → Word → Word) : Ctx → State → Eff :=
  laneEff fun c l t => t.setReg d.toNat (f (t.reg a.toNat) (c.G.src b l))

/-- A 32-bit operation on one operand and a number in each active lane (R250, R251). -/
def v2 (d a : BitVec 7) (f : Word → Word) : Ctx → State → Eff :=
  laneEff fun _ _ t => t.setReg d.toNat (f (t.reg a.toNat))

/-- The shifts of R249: the whole of y counts. -/
def shl32 (x y : Word) : Word := if y.toNat < 32 then x <<< y.toNat else 0
def shrN32 (x y : Word) : Word := if y.toNat < 32 then x >>> y.toNat else 0
def shrI32 (x y : Word) : Word := x.sshiftRight (min y.toNat 31)

/-- IADD (R249). -/
def execIadd (h : Hdr) (g : BitVec 3) (d a b : BitVec 7) (s : State) : Host.Outcome State Fault Refusal :=
  issue (.iadd h g d a b) h g (v3 d a b fun x y => x + y) s

/-- ISUB (R249). -/
def execIsub (h : Hdr) (g : BitVec 3) (d a b : BitVec 7) (s : State) : Host.Outcome State Fault Refusal :=
  issue (.isub h g d a b) h g (v3 d a b fun x y => x - y) s

/-- IMUL_LO (R249). -/
def execImulLo (h : Hdr) (g : BitVec 3) (d a b : BitVec 7) (s : State) : Host.Outcome State Fault Refusal :=
  issue (.imulLo h g d a b) h g (v3 d a b fun x y => x * y) s

/-- IMULH_I32 (R249). -/
def execImulhI32 (h : Hdr) (g : BitVec 3) (d a b : BitVec 7) (s : State) : Host.Outcome State Fault Refusal :=
  issue (.imulhI32 h g d a b) h g (v3 d a b fun x y => BitVec.ofInt 32 (x.toInt * y.toInt / 2 ^ 32)) s

/-- IMULH_N32 (R249). -/
def execImulhN32 (h : Hdr) (g : BitVec 3) (d a b : BitVec 7) (s : State) : Host.Outcome State Fault Refusal :=
  issue (.imulhN32 h g d a b) h g (v3 d a b fun x y => BitVec.ofNat 32 (x.toNat * y.toNat / 2 ^ 32)) s

/-- IAND (R249). -/
def execIand (h : Hdr) (g : BitVec 3) (d a b : BitVec 7) (s : State) : Host.Outcome State Fault Refusal :=
  issue (.iand h g d a b) h g (v3 d a b fun x y => x &&& y) s

/-- IOR (R249). -/
def execIor (h : Hdr) (g : BitVec 3) (d a b : BitVec 7) (s : State) : Host.Outcome State Fault Refusal :=
  issue (.ior h g d a b) h g (v3 d a b fun x y => x ||| y) s

/-- IXOR (R249). -/
def execIxor (h : Hdr) (g : BitVec 3) (d a b : BitVec 7) (s : State) : Host.Outcome State Fault Refusal :=
  issue (.ixor h g d a b) h g (v3 d a b fun x y => x ^^^ y) s

/-- ISHL (R249). -/
def execIshl (h : Hdr) (g : BitVec 3) (d a b : BitVec 7) (s : State) : Host.Outcome State Fault Refusal :=
  issue (.ishl h g d a b) h g (v3 d a b fun x y => shl32 x y) s

/-- ISHR_N (R249). -/
def execIshrN (h : Hdr) (g : BitVec 3) (d a b : BitVec 7) (s : State) : Host.Outcome State Fault Refusal :=
  issue (.ishrN h g d a b) h g (v3 d a b fun x y => shrN32 x y) s

/-- ISHR_I (R249). -/
def execIshrI (h : Hdr) (g : BitVec 3) (d a b : BitVec 7) (s : State) : Host.Outcome State Fault Refusal :=
  issue (.ishrI h g d a b) h g (v3 d a b fun x y => shrI32 x y) s

/-- IMIN_I32 (R249). -/
def execIminI32 (h : Hdr) (g : BitVec 3) (d a b : BitVec 7) (s : State) : Host.Outcome State Fault Refusal :=
  issue (.iminI32 h g d a b) h g (v3 d a b fun x y => if x.toInt ≤ y.toInt then x else y) s

/-- IMAX_I32 (R249). -/
def execImaxI32 (h : Hdr) (g : BitVec 3) (d a b : BitVec 7) (s : State) : Host.Outcome State Fault Refusal :=
  issue (.imaxI32 h g d a b) h g (v3 d a b fun x y => if x.toInt ≤ y.toInt then y else x) s

/-- IMIN_N32 (R249). -/
def execIminN32 (h : Hdr) (g : BitVec 3) (d a b : BitVec 7) (s : State) : Host.Outcome State Fault Refusal :=
  issue (.iminN32 h g d a b) h g (v3 d a b fun x y => if x.toNat ≤ y.toNat then x else y) s

/-- IMAX_N32 (R249). -/
def execImaxN32 (h : Hdr) (g : BitVec 3) (d a b : BitVec 7) (s : State) : Host.Outcome State Fault Refusal :=
  issue (.imaxN32 h g d a b) h g (v3 d a b fun x y => if x.toNat ≤ y.toNat then y else x) s

/-- IMAD (R249). -/
def execImad (h : Hdr) (g : BitVec 3) (d a b : BitVec 7) (s : State) : Host.Outcome State Fault Refusal :=
  issue (.imad h g d a b) h g
    (laneEff fun c l t => t.setReg d.toNat (t.reg a.toNat * c.G.src b l + c.G.src (h.third d) l)) s

/-- IADD64 (R249). -/
def execIadd64 (h : Hdr) (g : BitVec 3) (d a b : BitVec 7) (s : State) : Host.Outcome State Fault Refusal :=
  issue (.iadd64 h g d a b) h g (laneEff fun c l t => t.setPair d.toNat (t.pair a.toNat + c.G.src64 b l)) s

/-- IMADW (R249). -/
def execImadw (h : Hdr) (g : BitVec 3) (d a b : BitVec 7) (s : State) : Host.Outcome State Fault Refusal :=
  issue (.imadw h g d a b) h g (laneEff fun c l t => t.setPair d.toNat
    (c.G.src64 (h.third d) l + BitVec.ofInt 64 ((t.reg a.toNat).toInt * (c.G.src b l).toInt))) s

/-- ICMP (R253): in a region, a tagged operand records a constraint (R143). -/
def execIcmp (h : Hdr) (g p : BitVec 3) (k : BitVec 4) (a b : BitVec 7) (s : State) : Host.Outcome State Fault Refusal :=
  issue (.icmp h g p k a b) h g (laneEff fun c l t =>
    let r := compareInt k.toNat (t.reg a.toNat) (c.G.src b l)
    (t.constrain a b k (t.reg a.toNat) (c.G.src b l) r).setPred p r) s

/-- ISEL (R249): never guarded; the guard field selects. -/
def execIsel (h : Hdr) (p : BitVec 3) (d a b : BitVec 7) (s : State) : Host.Outcome State Fault Refusal :=
  issue (.isel h p d a b) h 7
    (memberEff fun c l t => t.setReg d.toNat (if t.pred p then t.reg a.toNat else c.G.src b l)) s

/-- Leading and trailing zero bits; 32 for zero (R251). -/
def clz32 (x : Word) : Nat := if x = 0 then 32 else 31 - x.toNat.log2
def ctz32 (x : Word) : Nat := ((List.range 32).find? fun i => x.getLsbD i).getD 32

/-- The bits in reverse (R251). -/
def brev32 (x : Word) : Word :=
  (List.range 32).foldl (fun r i => if x.getLsbD i then r ||| BitVec.twoPow 32 (31 - i) else r) 0

/-- The unary operations of ibit by function code (R164, R251). -/
def ibitOp (f : Nat) (x : Word) : Word :=
  match f with
  | 0 => BitVec.ofNat 32 (popcount x)
  | 1 => BitVec.ofNat 32 (clz32 x)
  | 2 => BitVec.ofNat 32 (ctz32 x)
  | 3 => brev32 x
  | 4 => ~~~x
  | 5 => 0 - x
  | 6 => if x.msb then 0 - x else x
  | 7 => x
  | 8 => (x.extractLsb' 0 8).signExtend 32
  | 9 => (x.extractLsb' 0 16).signExtend 32
  | 10 => (x.extractLsb' 0 8).setWidth 32
  | _ => (x.extractLsb' 0 16).setWidth 32

/-- IBIT (R251). -/
def execIbit (h : Hdr) (g : BitVec 3) (d a f : BitVec 7) (s : State) : Host.Outcome State Fault Refusal :=
  issue (.ibit h g d a f) h g (v2 d a (ibitOp f.toNat)) s

/-- The position and length of a control word of ibfe and ibfi (R249). -/
def fieldPos (y : Word) : Nat := y.toNat % 32
def fieldLen (y : Word) : Nat := min (y.toNat / 2 ^ 8 % 2 ^ 6) (32 - fieldPos y)

/-- ibfe (R249). -/
def bitExtract (x y : Word) : Word :=
  let n := fieldLen y
  let f := x.toNat / 2 ^ fieldPos y % 2 ^ n
  if y.getLsbD 16 ∧ 0 < n ∧ 2 ^ (n - 1) ≤ f then BitVec.ofInt 32 ((f : Int) - 2 ^ n) else BitVec.ofNat 32 f

/-- ibfi (R249). -/
def bitInsert (x y z : Word) : Word :=
  let m : Word := BitVec.ofNat 32 ((2 ^ fieldLen y - 1) * 2 ^ fieldPos y)
  (z &&& ~~~m) ||| ((x <<< fieldPos y) &&& m)

/-- IBFE (R249). -/
def execIbfe (h : Hdr) (g : BitVec 3) (d a b : BitVec 7) (s : State) : Host.Outcome State Fault Refusal :=
  issue (.ibfe h g d a b) h g (v3 d a b bitExtract) s

/-- IBFI (R249). -/
def execIbfi (h : Hdr) (g : BitVec 3) (d a b : BitVec 7) (s : State) : Host.Outcome State Fault Refusal :=
  issue (.ibfi h g d a b) h g (laneEff fun c l t =>
    t.setReg d.toNat (bitInsert (t.reg a.toNat) (c.G.src b l) (c.G.src (h.third d) l))) s

/-- The active lanes whose divisor is zero (R252). -/
def zeroDivisors (c : Ctx) (b : BitVec 7) : BitVec 32 := maskOf fun l => c.act.getLsbD l && decide (c.G.src b l = 0)

/-- A division in each active lane, or Integer-Divide when some divisor is zero (R252). -/
def vdiv (d a b : BitVec 7) (f : Word → Word → Word) (c : Ctx) (s : State) : Eff :=
  let z := zeroDivisors c b
  if z ≠ 0 then trapAll 0x09 (z.setWidth 64) (BitVec.ofNat 64 (lowest z)) s else v3 d a b f c s

/-- IDIV_I32 (R252). -/
def execIdivI32 (h : Hdr) (g : BitVec 3) (d a b : BitVec 7) (s : State) : Host.Outcome State Fault Refusal :=
  issue (.idivI32 h g d a b) h g (vdiv d a b fun x y => BitVec.ofInt 32 (x.toInt.tdiv y.toInt)) s

/-- IDIV_N32 (R252). -/
def execIdivN32 (h : Hdr) (g : BitVec 3) (d a b : BitVec 7) (s : State) : Host.Outcome State Fault Refusal :=
  issue (.idivN32 h g d a b) h g (vdiv d a b fun x y => BitVec.ofNat 32 (x.toNat / y.toNat)) s

/-- IREM_I32 (R252). -/
def execIremI32 (h : Hdr) (g : BitVec 3) (d a b : BitVec 7) (s : State) : Host.Outcome State Fault Refusal :=
  issue (.iremI32 h g d a b) h g (vdiv d a b fun x y => BitVec.ofInt 32 (x.toInt.tmod y.toInt)) s

/-- IREM_N32 (R252). -/
def execIremN32 (h : Hdr) (g : BitVec 3) (d a b : BitVec 7) (s : State) : Host.Outcome State Fault Refusal :=
  issue (.iremN32 h g d a b) h g (vdiv d a b fun x y => BitVec.ofNat 32 (x.toNat % y.toNat)) s

/-- IADDI (R250). -/
def execIaddi (h : Hdr) (g : BitVec 3) (d a i : BitVec 7) (s : State) : Host.Outcome State Fault Refusal :=
  issue (.iaddi h g d a i) h g (v2 d a fun x => x + BitVec.ofInt 32 (h.immOf i true)) s

/-- ISHLI (R250). -/
def execIshli (h : Hdr) (g : BitVec 3) (d a : BitVec 7) (n : BitVec 5) (s : State) : Host.Outcome State Fault Refusal :=
  issue (.ishli h g d a n) h g (v2 d a fun x => shl32 x (n.setWidth 32)) s

/-- ISHRI_N (R250). -/
def execIshriN (h : Hdr) (g : BitVec 3) (d a : BitVec 7) (n : BitVec 5) (s : State) : Host.Outcome State Fault Refusal :=
  issue (.ishriN h g d a n) h g (v2 d a fun x => shrN32 x (n.setWidth 32)) s

/-- ISHRI_I (R250). -/
def execIshriI (h : Hdr) (g : BitVec 3) (d a : BitVec 7) (n : BitVec 5) (s : State) : Host.Outcome State Fault Refusal :=
  issue (.ishriI h g d a n) h g (v2 d a fun x => shrI32 x (n.setWidth 32)) s

end Sys2Proof.Machine
end

