-- ==== Sys2Proof/Machine/Dispatch.lean ====
section
/-! DEFINITION. One arm per instruction: the call of its meaning. -/

namespace Sys2Proof.Machine

/-- What an instruction or an event does. -/
def exec (i : Instr) (s : State) : Host.Outcome State Fault Refusal :=
  match i with
  | .bra h g o => Sys2Proof.Machine.execBra h g o s
  | .call h g o => Sys2Proof.Machine.execCall h g o s
  | .nop h g => Sys2Proof.Machine.execNop h g s
  | .ret h g => Sys2Proof.Machine.execRet h g s
  | .exit h g => Sys2Proof.Machine.execExit h g s
  | .exitQ h g => Sys2Proof.Machine.execExitQ h g s
  | .yield h g => Sys2Proof.Machine.execYield h g s
  | .tret h g => Sys2Proof.Machine.execTret h g s
  | .brx h g t => Sys2Proof.Machine.execBrx h g t s
  | .callx h g t => Sys2Proof.Machine.execCallx h g t s
  | .bkpt h g c => Sys2Proof.Machine.execBkpt h g c s
  | .trap h g c => Sys2Proof.Machine.execTrap h g c s
  | .jenter h j => Sys2Proof.Machine.execJenter h j s
  | .jquit h j => Sys2Proof.Machine.execJquit h j s
  | .jwait h j => Sys2Proof.Machine.execJwait h j s
  | .jclr h j => Sys2Proof.Machine.execJclr h j s
  | .jmask h j srcv => Sys2Proof.Machine.execJmask h j srcv s
  | .jarr h j srcv => Sys2Proof.Machine.execJarr h j srcv s
  | .jload h j srcv => Sys2Proof.Machine.execJload h j srcv s
  | .pand h g d a b => Sys2Proof.Machine.execPand h g d a b s
  | .por h g d a b => Sys2Proof.Machine.execPor h g d a b s
  | .pxor h g d a b => Sys2Proof.Machine.execPxor h g d a b s
  | .pandn h g d a b => Sys2Proof.Machine.execPandn h g d a b s
  | .pnot h g d a => Sys2Proof.Machine.execPnot h g d a s
  | .pmov h g d a => Sys2Proof.Machine.execPmov h g d a s
  | .pget h g srcv a => Sys2Proof.Machine.execPget h g srcv a s
  | .elect h g d => Sys2Proof.Machine.execElect h g d s
  | .reggrow h n => Sys2Proof.Machine.execReggrow h n s
  | .sget h d n => Sys2Proof.Machine.execSget h d n s
  | .sset h a n => Sys2Proof.Machine.execSset h a n s
  | .vgetGang h d n => Sys2Proof.Machine.execVgetGang h d n s
  | .vgetThread h g d n => Sys2Proof.Machine.execVgetThread h g d n s
  | .clkScalar h d => Sys2Proof.Machine.execClkScalar h d s
  | .clkVector h d => Sys2Proof.Machine.execClkVector h d s
  | .sadd h d a b => Sys2Proof.Machine.execSadd h d a b s
  | .ssub h d a b => Sys2Proof.Machine.execSsub h d a b s
  | .smul h d a b => Sys2Proof.Machine.execSmul h d a b s
  | .smulhN h d a b => Sys2Proof.Machine.execSmulhN h d a b s
  | .smulhI h d a b => Sys2Proof.Machine.execSmulhI h d a b s
  | .sand h d a b => Sys2Proof.Machine.execSand h d a b s
  | .sor h d a b => Sys2Proof.Machine.execSor h d a b s
  | .sxor h d a b => Sys2Proof.Machine.execSxor h d a b s
  | .sandn h d a b => Sys2Proof.Machine.execSandn h d a b s
  | .sshl h d a b => Sys2Proof.Machine.execSshl h d a b s
  | .sshrN h d a b => Sys2Proof.Machine.execSshrN h d a b s
  | .sshrI h d a b => Sys2Proof.Machine.execSshrI h d a b s
  | .sminI h d a b => Sys2Proof.Machine.execSminI h d a b s
  | .smaxI h d a b => Sys2Proof.Machine.execSmaxI h d a b s
  | .sminN h d a b => Sys2Proof.Machine.execSminN h d a b s
  | .smaxN h d a b => Sys2Proof.Machine.execSmaxN h d a b s
  | .sadda h d a b => Sys2Proof.Machine.execSadda h d a b s
  | .smov h d a => Sys2Proof.Machine.execSmov h d a s
  | .spopc h d a => Sys2Proof.Machine.execSpopc h d a s
  | .saddi h d a immv => Sys2Proof.Machine.execSaddi h d a immv s
  | .sshli h d a n => Sys2Proof.Machine.execSshli h d a n s
  | .sli h d immv => Sys2Proof.Machine.execSli h d immv s
  | .scmp h p a b c => Sys2Proof.Machine.execScmp h p a b c s
  | .saddai h d a immv => Sys2Proof.Machine.execSaddai h d a immv s
  | .sld h d a w immv => Sys2Proof.Machine.execSld h d a w immv s
  | .sldp h d a immv => Sys2Proof.Machine.execSldp h d a immv s
  | .sst h d a w immv => Sys2Proof.Machine.execSst h d a w immv s
  | .sstp h d a immv => Sys2Proof.Machine.execSstp h d a immv s
  | .sldparam h d w o => Sys2Proof.Machine.execSldparam h d w o s
  | .sfirst h d a => Sys2Proof.Machine.execSfirst h d a s
  | .iadd h g d a b => Sys2Proof.Machine.execIadd h g d a b s
  | .isub h g d a b => Sys2Proof.Machine.execIsub h g d a b s
  | .imulLo h g d a b => Sys2Proof.Machine.execImulLo h g d a b s
  | .imulhI32 h g d a b => Sys2Proof.Machine.execImulhI32 h g d a b s
  | .imulhN32 h g d a b => Sys2Proof.Machine.execImulhN32 h g d a b s
  | .imad h g d a b => Sys2Proof.Machine.execImad h g d a b s
  | .iand h g d a b => Sys2Proof.Machine.execIand h g d a b s
  | .ior h g d a b => Sys2Proof.Machine.execIor h g d a b s
  | .ixor h g d a b => Sys2Proof.Machine.execIxor h g d a b s
  | .ishl h g d a b => Sys2Proof.Machine.execIshl h g d a b s
  | .ishrN h g d a b => Sys2Proof.Machine.execIshrN h g d a b s
  | .ishrI h g d a b => Sys2Proof.Machine.execIshrI h g d a b s
  | .iminI32 h g d a b => Sys2Proof.Machine.execIminI32 h g d a b s
  | .imaxI32 h g d a b => Sys2Proof.Machine.execImaxI32 h g d a b s
  | .iminN32 h g d a b => Sys2Proof.Machine.execIminN32 h g d a b s
  | .imaxN32 h g d a b => Sys2Proof.Machine.execImaxN32 h g d a b s
  | .iadd64 h g d a b => Sys2Proof.Machine.execIadd64 h g d a b s
  | .imadw h g d a b => Sys2Proof.Machine.execImadw h g d a b s
  | .icmp h g p c a b => Sys2Proof.Machine.execIcmp h g p c a b s
  | .isel h srcv d a b => Sys2Proof.Machine.execIsel h srcv d a b s
  | .ibit h g d a f => Sys2Proof.Machine.execIbit h g d a f s
  | .ibfe h g d a b => Sys2Proof.Machine.execIbfe h g d a b s
  | .ibfi h g d a b => Sys2Proof.Machine.execIbfi h g d a b s
  | .idivI32 h g d a b => Sys2Proof.Machine.execIdivI32 h g d a b s
  | .idivN32 h g d a b => Sys2Proof.Machine.execIdivN32 h g d a b s
  | .iremI32 h g d a b => Sys2Proof.Machine.execIremI32 h g d a b s
  | .iremN32 h g d a b => Sys2Proof.Machine.execIremN32 h g d a b s
  | .iaddi h g d a immv => Sys2Proof.Machine.execIaddi h g d a immv s
  | .ishli h g d a n => Sys2Proof.Machine.execIshli h g d a n s
  | .ishriN h g d a n => Sys2Proof.Machine.execIshriN h g d a n s
  | .ishriI h g d a n => Sys2Proof.Machine.execIshriI h g d a n s
  | .vshfl h g d a b => Sys2Proof.Machine.execVshfl h g d a b s
  | .vfirst h g d a => Sys2Proof.Machine.execVfirst h g d a s
  | .vbcast h g d a n => Sys2Proof.Machine.execVbcast h g d a n s
  | .vscan h g d a o => Sys2Proof.Machine.execVscan h g d a o s
  | .vred h g d a f => Sys2Proof.Machine.execVred h g d a f s
  | .faddF32 h g d a b => Sys2Proof.Machine.execFaddF32 h g d a b s
  | .fsubF32 h g d a b => Sys2Proof.Machine.execFsubF32 h g d a b s
  | .fmulF32 h g d a b => Sys2Proof.Machine.execFmulF32 h g d a b s
  | .ffmaF32 h g d a b => Sys2Proof.Machine.execFfmaF32 h g d a b s
  | .fminF32 h g d a b => Sys2Proof.Machine.execFminF32 h g d a b s
  | .fmaxF32 h g d a b => Sys2Proof.Machine.execFmaxF32 h g d a b s
  | .fcmpF32 h g p c a b => Sys2Proof.Machine.execFcmpF32 h g p c a b s
  | .ffunF32 h g d a f => Sys2Proof.Machine.execFfunF32 h g d a f s
  | .fdivF32 h g d a b => Sys2Proof.Machine.execFdivF32 h g d a b s
  | .faddF64 h g d a b => Sys2Proof.Machine.execFaddF64 h g d a b s
  | .fsubF64 h g d a b => Sys2Proof.Machine.execFsubF64 h g d a b s
  | .fmulF64 h g d a b => Sys2Proof.Machine.execFmulF64 h g d a b s
  | .ffmaF64 h g d a b => Sys2Proof.Machine.execFfmaF64 h g d a b s
  | .fminF64 h g d a b => Sys2Proof.Machine.execFminF64 h g d a b s
  | .fmaxF64 h g d a b => Sys2Proof.Machine.execFmaxF64 h g d a b s
  | .fcmpF64 h g p c a b => Sys2Proof.Machine.execFcmpF64 h g p c a b s
  | .ffunF64 h g d a f => Sys2Proof.Machine.execFfunF64 h g d a f s
  | .fdivF64 h g d a b => Sys2Proof.Machine.execFdivF64 h g d a b s
  | .faddF16x2 h g d a b => Sys2Proof.Machine.execFaddF16x2 h g d a b s
  | .fmulF16x2 h g d a b => Sys2Proof.Machine.execFmulF16x2 h g d a b s
  | .ffmaF16x2 h g d a b => Sys2Proof.Machine.execFfmaF16x2 h g d a b s
  | .faddBf16x2 h g d a b => Sys2Proof.Machine.execFaddBf16x2 h g d a b s
  | .fmulBf16x2 h g d a b => Sys2Proof.Machine.execFmulBf16x2 h g d a b s
  | .ffmaBf16x2 h g d a b => Sys2Proof.Machine.execFfmaBf16x2 h g d a b s
  | .cvt h g d a f => Sys2Proof.Machine.execCvt h g d a f s
  | .cvtq h g d a srcv => Sys2Proof.Machine.execCvtq h g d a srcv s
  | .cvtd h g d a srcv => Sys2Proof.Machine.execCvtd h g d a srcv s
  | .rand h g d => Sys2Proof.Machine.execRand h g d s
  | .ldg h g t o b w => Sys2Proof.Machine.execLdg h g t o b w s
  | .stg h g t o b w => Sys2Proof.Machine.execStg h g t o b w s
  | .ldgAcq h g t o b w => Sys2Proof.Machine.execLdgAcq h g t o b w s
  | .stgRel h g t o b w => Sys2Proof.Machine.execStgRel h g t o b w s
  | .lds h g t o immv w => Sys2Proof.Machine.execLds h g t o immv w s
  | .sts h g t o immv w => Sys2Proof.Machine.execSts h g t o immv w s
  | .atomg h g t o b f => Sys2Proof.Machine.execAtomg h g t o b f s
  | .redg h g t o b f => Sys2Proof.Machine.execRedg h g t o b f s
  | .redgDet h g t o b f => Sys2Proof.Machine.execRedgDet h g t o b f s
  | .atoms h g t o f => Sys2Proof.Machine.execAtoms h g t o f s
  | .reds h g t o f => Sys2Proof.Machine.execReds h g t o f s
  | .fence h o c => Sys2Proof.Machine.execFence h o c s
  | .fencer h o c a b => Sys2Proof.Machine.execFencer h o c a b s
  | .barArrive h g srcv => Sys2Proof.Machine.execBarArrive h g srcv s
  | .barWait h g srcv => Sys2Proof.Machine.execBarWait h g srcv s
  | .barArrwait h g srcv => Sys2Proof.Machine.execBarArrwait h g srcv s
  | .barCredit h g srcv w => Sys2Proof.Machine.execBarCredit h g srcv w s
  | .pfg h g o b l => Sys2Proof.Machine.execPfg h g o b l s
  | .bufFill h g n => Sys2Proof.Machine.execBufFill h g n s
  | .bufTake h g n => Sys2Proof.Machine.execBufTake h g n s
  | .bufFree h g n => Sys2Proof.Machine.execBufFree h g n s
  | .copy h g c t => Sys2Proof.Machine.execCopy h g c t s
  | .mma h g c t a b z x => Sys2Proof.Machine.execMma h g c t a b z x s
  | .accread h g d a t => Sys2Proof.Machine.execAccread h g d a t s
  | .accwrite h g d a t => Sys2Proof.Machine.execAccwrite h g d a t s
  | .apatch h g d a hi lo t => Sys2Proof.Machine.execApatch h g d a hi lo t s
  | .accctlClear h g t => Sys2Proof.Machine.execAccctlClear h g t s
  | .accctlSave h g c t => Sys2Proof.Machine.execAccctlSave h g c t s
  | .accctlLoad h g c t => Sys2Proof.Machine.execAccctlLoad h g c t s
  | .accctlWait h g t => Sys2Proof.Machine.execAccctlWait h g t s
  | .accctlOvf h g d t => Sys2Proof.Machine.execAccctlOvf h g d t s
  | .rbegin h g o => Sys2Proof.Machine.execRbegin h g o s
  | .rld h g t o b => Sys2Proof.Machine.execRld h g t o b s
  | .rst h g t o b w => Sys2Proof.Machine.execRst h g t o b w s
  | .rend h g => Sys2Proof.Machine.execRend h g s
  | .rabort h g immv => Sys2Proof.Machine.execRabort h g immv s
  | .rstat h g d => Sys2Proof.Machine.execRstat h g d s
  | .issueRound u g => Sys2Proof.Machine.execIssueRound u g s
  | .forcedSwitch u g => Sys2Proof.Machine.execForcedSwitch u g s
  | .loadResponse u g k => Sys2Proof.Machine.execLoadResponse u g k s
  | .placeBlock a core => Sys2Proof.Machine.execPlaceBlock a core s
  | .gangDrain u g => Sys2Proof.Machine.execGangDrain u g s
  | .blockStall u => Sys2Proof.Machine.execBlockStall u s
  | .reggrowGrant core quad => Sys2Proof.Machine.execReggrowGrant core quad s
  | .eviction core quad => Sys2Proof.Machine.execEviction core quad s
  | .waiterTimeout core quad => Sys2Proof.Machine.execWaiterTimeout core quad s
  | .l1WriteBack cluster line => Sys2Proof.Machine.execL1WriteBack cluster line s
  | .mauAtomic u g k => Sys2Proof.Machine.execMauAtomic u g k s
  | .updateArrival a k => Sys2Proof.Machine.execUpdateArrival a k s
  | .drain a => Sys2Proof.Machine.execDrain a s
  | .commit u g => Sys2Proof.Machine.execCommit u g s
  | .copyJobStart u j => Sys2Proof.Machine.execCopyJobStart u j s
  | .copyBeat u j => Sys2Proof.Machine.execCopyBeat u j s
  | .copyCompletion u j => Sys2Proof.Machine.execCopyCompletion u j s
  | .mmaJobStart u j => Sys2Proof.Machine.execMmaJobStart u j s
  | .mmaGroup u j => Sys2Proof.Machine.execMmaGroup u j s
  | .mmaCompletion u j => Sys2Proof.Machine.execMmaCompletion u j s
  | .accAction u j => Sys2Proof.Machine.execAccAction u j s
  | .tableWalk core p va => Sys2Proof.Machine.execTableWalk core p va s
  | .engineEventDelivery u g l => Sys2Proof.Machine.execEngineEventDelivery u g l s
  | .preemptionRequest us => Sys2Proof.Machine.execPreemptionRequest us s
  | .openRunTimeout u g => Sys2Proof.Machine.execOpenRunTimeout u g s
  | .queueStart p q v => Sys2Proof.Machine.execQueueStart p q v s
  | .queueTeardown p q v => Sys2Proof.Machine.execQueueTeardown p q v s
  | .qbaseWrite p q v => Sys2Proof.Machine.execQbaseWrite p q v s
  | .qwidxWrite p q v => Sys2Proof.Machine.execQwidxWrite p q v s
  | .packetFetch p q => Sys2Proof.Machine.execPacketFetch p q s
  | .launch p q => Sys2Proof.Machine.execLaunch p q s
  | .waitsig p q => Sys2Proof.Machine.execWaitsig p q s
  | .signalReread p q => Sys2Proof.Machine.execSignalReread p q s
  | .setsig p q => Sys2Proof.Machine.execSetsig p q s
  | .mark p q => Sys2Proof.Machine.execMark p q s
  | .flush p q => Sys2Proof.Machine.execFlush p q s
  | .launchCompletion a => Sys2Proof.Machine.execLaunchCompletion a s
  | .traceRecord a core quad final => Sys2Proof.Machine.execTraceRecord a core quad final s
  | .tinvalPage p v => Sys2Proof.Machine.execTinvalPage p v s
  | .tinvalAll p v => Sys2Proof.Machine.execTinvalAll p v s
  | .invalidationComplete p => Sys2Proof.Machine.execInvalidationComplete p s
  | .fresume p v => Sys2Proof.Machine.execFresume p v s
  | .keyRetire p v => Sys2Proof.Machine.execKeyRetire p v s
  | .keyRetireComplete p => Sys2Proof.Machine.execKeyRetireComplete p s
  | .registerWrite p off v => Sys2Proof.Machine.execRegisterWrite p off v s
  | .getS line d => Sys2Proof.Machine.execGetS line d s
  | .getM line d => Sys2Proof.Machine.execGetM line d s
  | .putE line d => Sys2Proof.Machine.execPutE line d s
  | .putM line d => Sys2Proof.Machine.execPutM line d s
  | .putP line d => Sys2Proof.Machine.execPutP line d s
  | .fwdS line o d => Sys2Proof.Machine.execFwdS line o d s
  | .fwdM line o d => Sys2Proof.Machine.execFwdM line o d s
  | .inv line d => Sys2Proof.Machine.execInv line d s
  | .backInv line d => Sys2Proof.Machine.execBackInv line d s
  | .recall line d => Sys2Proof.Machine.execRecall line d s
  | .data line d m => Sys2Proof.Machine.execData line d m s
  | .invAck line d => Sys2Proof.Machine.execInvAck line d s
  | .fwdAck line d => Sys2Proof.Machine.execFwdAck line d s
  | .maskReq line d m => Sys2Proof.Machine.execMaskReq line d m s
  | .maskGrant line d => Sys2Proof.Machine.execMaskGrant line d s
  | .maskUpd line d m => Sys2Proof.Machine.execMaskUpd line d m s
  | .dieFailure d => Sys2Proof.Machine.execDieFailure d s
  | .dieReadmit d => Sys2Proof.Machine.execDieReadmit d s
  | .uncorrectableError line pieces => Sys2Proof.Machine.execUncorrectableError line pieces s
  | .write c pkt => Sys2Proof.Machine.execWrite c pkt s
  | .read c pkt => Sys2Proof.Machine.execRead c pkt s
  | .ack c pkt => Sys2Proof.Machine.execAck c pkt s
  | .nak c pkt => Sys2Proof.Machine.execNak c pkt s
  | .resendTimeout c => Sys2Proof.Machine.execResendTimeout c s
  | .flit l f => Sys2Proof.Machine.execFlit l f s
  | .readMessage m => Sys2Proof.Machine.execReadMessage m s
  | .writeMessage m => Sys2Proof.Machine.execWriteMessage m s
  | .atomicMessage m => Sys2Proof.Machine.execAtomicMessage m s
  | .readResponse m => Sys2Proof.Machine.execReadResponse m s
  | .writeAcknowledgement m => Sys2Proof.Machine.execWriteAcknowledgement m s
  | .atomicResponse m => Sys2Proof.Machine.execAtomicResponse m s
  | .errorResponse m => Sys2Proof.Machine.execErrorResponse m s
  | .responseTimeout tag => Sys2Proof.Machine.execResponseTimeout tag s
  | .sessionNotice m => Sys2Proof.Machine.execSessionNotice m s
  | .partcfg seq code => Sys2Proof.Machine.execPartcfg seq code s
  | .connbind seq c p addr => Sys2Proof.Machine.execConnbind seq c p addr s
  | .connreset seq c => Sys2Proof.Machine.execConnreset seq c s
  | .fabcfg seq ctl routes => Sys2Proof.Machine.execFabcfg seq ctl routes s
  | .keyinst seq id p blob => Sys2Proof.Machine.execKeyinst seq id p blob s
  | .sparepool seq start frames => Sys2Proof.Machine.execSparepool seq start frames s
  | .fwstage seq version engine image => Sys2Proof.Machine.execFwstage seq version engine image s
  | .fwapply seq => Sys2Proof.Machine.execFwapply seq s
  | .svcread seq first => Sys2Proof.Machine.execSvcread seq first s
  | .dirdump seq slice => Sys2Proof.Machine.execDirdump seq slice s
  | .attest seq nonce => Sys2Proof.Machine.execAttest seq nonce s
  | .powcap seq watts => Sys2Proof.Machine.execPowcap seq watts s
  | .powerOn fail badCores => Sys2Proof.Machine.execPowerOn fail badCores s
  | .coreFailure core => Sys2Proof.Machine.execCoreFailure core s
  | .sliceFailure sl => Sys2Proof.Machine.execSliceFailure sl s
  | .rowErrors ch row => Sys2Proof.Machine.execRowErrors ch row s
  | .channelFailure ch => Sys2Proof.Machine.execChannelFailure ch s
  | .linkLaneFailure l lanes => Sys2Proof.Machine.execLinkLaneFailure l lanes s
  | .throttle  => Sys2Proof.Machine.execThrottle  s
  | .thermalStop d => Sys2Proof.Machine.execThermalStop d s
  | .thermalResume  => Sys2Proof.Machine.execThermalResume  s
  | .sessionStart p v => Sys2Proof.Machine.execSessionStart p v s
  | .sessionEnd p v => Sys2Proof.Machine.execSessionEnd p v s
  | .chunkEnd u g => Sys2Proof.Machine.execChunkEnd u g s
  | .frameClose p src => Sys2Proof.Machine.execFrameClose p src s
  | .clockEnd p => Sys2Proof.Machine.execClockEnd p s
  | .go p v => Sys2Proof.Machine.execGo p v s
  | .halt p v => Sys2Proof.Machine.execHalt p v s
  | .rpseal p v => Sys2Proof.Machine.execRpseal p v s
  | .chunkHoldRelease u g => Sys2Proof.Machine.execChunkHoldRelease u g s
  | .replayStop p => Sys2Proof.Machine.execReplayStop p s
  | .wordNotAnInstruction reason word idx len => Sys2Proof.Machine.execWordNotAnInstruction reason word idx len s
  | .l1SliceFailure cluster pos => Sys2Proof.Machine.execL1SliceFailure cluster pos s
  | .powerFailure  => Sys2Proof.Machine.execPowerFailure  s

end Sys2Proof.Machine
end

