-- ==== Sys2Proof/Machine/Schedule.lean ====
section
/-! DEFINITION. The event that comes next when the agenda names none and no sheaf is in issue (log 4): a queued engine event
goes first; the other kinds of events take turns. An event that would change nothing is passed over. -/

namespace Sys2Proof.Machine

/-- An event, by its meaning. -/
abbrev Event := State → Host.Outcome State Fault Refusal

/-- The state that an event leads to, where it changes something. -/
def State.tried (s : State) (e : Event) : Option State :=
  match e s with
  | .next t => if t = s then none else some t
  | _ => none

/-- Every gang, with its block. -/
def State.allGangs (s : State) : List (Block × Gang) := s.blocks.flatMap fun b => b.gangs.map fun G => (b, G)

/-- Engine events that can be delivered (R329, R330). -/
def State.deliveries (s : State) : List Event :=
  (s.allGangs.filter fun x => !x.2.events.isEmpty).flatMap fun x =>
    ((List.range 32).filter fun l => s.deliversTo x.1.uid x.2.idx x.2 l).map fun l => execEngineEventDelivery x.1.uid x.2.idx l

/-- A drain point that is reached is drained at once, after the updates that are still under way for it have arrived (R221). -/
def State.drains (s : State) : List Event :=
  (s.launches.filter s.drainDue).map fun L => match L.late with
    | some k => execUpdateArrival L.id k
    | none => execDrain L.id

/-- What a gang has under way: responses, atomics, commits, its drain. -/
def gangEvents (x : Block × Gang) : List Event :=
  (if x.2.resp.isEmpty then [] else [execLoadResponse x.1.uid x.2.idx 0])
    ++ (if x.2.mau.isEmpty then [] else [execMauAtomic x.1.uid x.2.idx 0])
    ++ (if (x.2.sheaf.bind (·.commit)).isSome then [execCommit x.1.uid x.2.idx] else [])
    ++ (if x.2.live = 0 ∧ ¬ x.2.drained then [execGangDrain x.1.uid x.2.idx] else [])
    ++ (if 65536 ≤ x.2.runs then [execForcedSwitch x.1.uid x.2.idx] else [])
    ++ (if x.1.stop.isSome ∧ x.2.sheaf.isSome ∧ ¬ x.2.cut then [execOpenRunTimeout x.1.uid x.2.idx] else [])

/-- What a job has next. -/
def jobEvents (b : Block) (j : Job) : List Event :=
  match j.kind with
  | .copy _ => [execCopyBeat b.uid j.id, execCopyCompletion b.uid j.id, execCopyJobStart b.uid j.id]
  | .mma _ => [execMmaGroup b.uid j.id, execMmaCompletion b.uid j.id, execMmaJobStart b.uid j.id]
  | .acc _ _ => [execAccAction b.uid j.id]

/-- The quadrants that hold gangs, with the time since which each has issued nothing from its chosen gang. -/
def State.quadTurns (s : State) : List (Nat × Nat × Nat) :=
  ((s.allGangs.map fun x => (x.1.core, x.2.idx % 4)).eraseDups.filterMap fun c => (s.chosen c.1 c.2).bind fun x =>
    (s.gang? x.1 x.2).map fun G => (G.lastIssue, x))

/-- The quadrant that has waited longest issues from the gang that it chooses (R30); without a ready gang, sheaves form at run
boundaries (R26). -/
def State.issues (s : State) : List Event :=
  match sortedBy s.quadTurns with
  | x :: _ => [execIssueRound x.2.1 x.2.2]
  | [] => (s.allGangs.filter fun x => x.2.sheaf.isNone && s.canIssue x.1.uid x.2.idx).map fun x => execIssueRound x.1.uid x.2.idx

/-- Quadrants whose gangs wait for registers. -/
def State.growing (s : State) : List Event :=
  ((s.allGangs.filter fun x => x.2.grow.isSome || x.2.evicted).map fun x => (x.1.core, x.2.idx % 4)).eraseDups.flatMap fun c =>
    [execReggrowGrant c.1 c.2, execEviction c.1 c.2]

/-- Queues that have something to do. -/
def State.queueEvents (s : State) : List Event :=
  (List.range (partsOf s.code)).flatMap fun p => (List.range 64).flatMap fun q =>
    let Q := s.queue p q
    (if s.mayFetch p q then [execPacketFetch p q] else [])
      ++ match Q.pending.map (·.typ) with
        | some 1 => [execLaunch p q]
        | some 2 => [execWaitsig p q, execSignalReread p q]
        | some 3 => [execSetsig p q]
        | some 4 => [execMark p q]
        | some 5 => [execFlush p q]
        | _ => []

/-- Launches: their updates, their drains, their trace records, their completion. -/
def State.launchEvents (s : State) : List Event :=
  s.launches.flatMap fun L =>
    (if L.inflight.isEmpty then [] else [execUpdateArrival L.id 0])
      ++ (L.traceQuads.flatMap fun x => [false, true].flatMap fun final =>
          if s.traceDue L x.1 x.2.1 final then [execTraceRecord L.id x.1 x.2.1 final] else [])
      ++ (if s.completes L then [execLaunchCompletion L.id] else [])

/-- Room is given to blocks, taken by priority, and blocks that are asked to stop are saved (R317, R320, R335). -/
def State.placeEvents (s : State) : List Event :=
  ((List.range (partsOf s.code)).flatMap fun p => (match s.nextPlacement p with | some (a, c) => [execPlaceBlock a c] | none => [])
      ++ match s.priorityVictims p with | [] => [] | us => [execPreemptionRequest us])
    ++ match (s.blocks.filter fun b => b.stop.isSome).map (·.uid) with | [] => [] | us => [execPreemptionRequest us]

/-- Blocks that can go no further (R39). -/
def State.stallEvents (s : State) : List Event := (s.blocks.filter Block.stalled).map fun b => execBlockStall b.uid

/-- A message that has been admitted. -/
def arrivedEvent (m : FabMsg) : List Event :=
  match m.kind.toNat with
  | 1 => [execReadMessage m]
  | 2 => [execWriteMessage m]
  | 3 => [execAtomicMessage m]
  | 4 => [execReadResponse m]
  | 5 => [execWriteAcknowledgement m]
  | 6 => [execAtomicResponse m]
  | 7 => [execErrorResponse m]
  | 8 => [execSessionNotice m]
  | _ => []

/-- Accesses of killed launches that have parked since (R351). -/
def State.killedEvents (s : State) : List Event :=
  (s.launches.filter fun L => decide (L.status = 4)).map fun L s => .next (s.discardParked L.id)

/-- Registers that report the end of something, and time limits. -/
def State.windowEvents (s : State) : List Event :=
  ((List.range 4).flatMap fun p =>
      (if (s.part p).tinvalBusy then [execInvalidationComplete p] else [])
        ++ (if (s.part p).keyBusy then [execKeyRetireComplete p] else []))
    ++ ((s.requests.filter fun r => decide (r.sent + 800000 ≤ s.time)).map fun r => execResponseTimeout r.msg.tag.toNat)
    ++ ((List.range 256).filter fun c => !(s.conn c).held.isEmpty).map fun c => execResendTimeout c

/-- Host operations that can go on. -/
def State.hostEvents (s : State) : List Event :=
  ((List.range 256).filter fun c => s.hostReady c).map fun c s => .next (s.hostOp c)

/-- The cluster caches' dirty bytes reach the L2 in time (R124). -/
def State.cacheEvents (s : State) : List Event :=
  match s.l1.find? fun x => decide (x.dirty ≠ 0) with
  | some x => [execL1WriteBack x.cluster x.line]
  | none => []

/-- A partition's recorder: the end of a session whose clocks are spent, closed frames for which the ring has room, which those of
an ended session are too (R390). -/
def State.recorderEvents (s : State) : List Event :=
  (List.range 4).flatMap fun p =>
    (if (s.part p).rrEn then [execClockEnd p] else []) ++ ((s.part p).frames.filter fun f => !f.kept.isEmpty).map fun f s =>
      .next ((s.flushKept p f.src ((s.part p).frame f.src).kept).modPart p fun P =>
        { P with rrStalled := !P.rrMode && P.frames.any FrameBuf.full })

/-- A logged arrival whose clock may start and whose message has not come (R393). -/
def State.lacksArrival (s : State) (p : Nat) : Bool :=
  let P := s.part p
  (List.range P.rpLog.length).any fun i => match P.rpLog[i]? with
    | some (.arrival src pl ag ms st) =>
      !decide ((i, false) ∈ P.rpDone) && P.mayStart st
        && !s.arrived.any fun m => ((LogRec.arrival src pl ag ms st).arrivalOf m).isSome
    | _ => false

/-- STATE tells whether a replay waits for another device's message (R393). -/
def State.noteArrival (s : State) (p : Nat) : State :=
  let st := (s.part p).rpState
  if st = 1 ∧ s.lacksArrival p then s.modPart p fun P => { P with rpState := 5 }
  else if st = 5 ∧ ¬ s.lacksArrival p then s.modPart p fun P => { P with rpState := 1 }
  else s

/-- A GO or an RPSEAL that waits for another device's memory (R410). -/
def State.replayWaits (s : State) (p : Nat) : List Event :=
  (if (s.part p).rpGo then [fun s => .next (s.startReplay p)] else [])
    ++ match (s.part p).rpSeal with | some v => [fun s => .next (s.writeRpseal p v)] | none => []

/-- A partition's replay: its dispatch, its holds, its stops, its end (R391-R393, R397). -/
def State.replayEvents (s : State) : List Event :=
  (List.range 4).flatMap s.replayWaits ++ (((List.range 4).filter fun p => (s.part p).replaying || decide ((s.part p).rpState = 1)).flatMap fun p =>
      (if s.mayDispatch p then [fun s => .next (s.replayDispatch p)] else [])
        ++ (if s.stopReached p then [execReplayStop p] else [])
        ++ (if s.replayOver p then [fun s => .next (s.finishReplay p)] else [])
        ++ [fun s => .next (s.noteArrival p)])
    ++ ((s.allGangs.filter fun x => x.2.held || x.1.jobs.any fun j => decide (j.gang = x.2.idx) && j.held).map fun x =>
      execChunkHoldRelease x.1.uid x.2.idx)
    ++ (s.allGangs.filter fun x => (s.replayOf x.1.uid).isSome).map fun x s => .next (s.noteChunk x.1.uid x.2.idx)

/-- A directory entry comes to have an uncorrectable error (R371): whether and which is open (log 24). What atomics on their way have
still to do is done first (log 53). -/
def State.directoryFault (s : State) : State :=
  match s.dir[s.freeVal.toNat % s.dir.length]? with
  | none => s
  | some e =>
    if !Config.directoryFails s.tick then s
    else
      let s := s.takeFree.drainMaus
      { s with dir := s.dir.map fun x => if x.line = e.line ∧ x.key = e.key then { x with bad := true } else x }

/-- The kinds of events that take turns. -/
def eventKinds : List (State → List Event) :=
  [fun s => s.allGangs.flatMap gangEvents, State.issues, fun s => s.blocks.flatMap fun b => b.jobs.flatMap (jobEvents b),
    State.launchEvents, State.growing, State.placeEvents, State.stallEvents, State.killedEvents, State.queueEvents,
    fun s => s.arrived.flatMap arrivedEvent, State.windowEvents, State.hostEvents, State.recorderEvents, State.replayEvents,
    State.cacheEvents, fun _ => [fun s => .next s.directoryFault]]

/-! ### Room in the caches (R9, R12, R373) -/

/-- A line leaves an L2 that holds too many (R373): what another device's home does not have yet is written back first. -/
def State.shedL2 (s : State) (x : L2Line) : Option State :=
  if s.local (x.line * 128) then some (s.evictL2 x)
  else
    let s := s.collectDie x.die x.line x.key
    let r := s.remoteLine x.line x.key
    if r.dirty = 0 then
      let s := s.evictL2 x
      some (if (s.holdersOf x.line x.key).isEmpty then s.setRemote { r with valid := 0 } else s)
    else if s.outstanding 2 x.line x.key then none
    else some (s.sendRequest (writeRequest r) none none)

/-- A cache that holds more lines than it has room for gives one up: before anything else happens (log 8). -/
def State.makeRoom (s : State) : Option State :=
  match s.l1Victim with
  | some x => some (s.takeFree.evictL1 x)
  | none => match s.l2Victim.bind s.takeFree.shedL2 with
    | some t => some t
    | none => s.l3Victim.map fun x => s.takeFree.l3Drop x.line x.key

/-- The first event of a kind that changes something. -/
def State.tryKind (s : State) (k : State → List Event) : Option State := (k s).findSome? s.tried

/-- The device's own next event: it has none before it is up (R414). A queued engine event goes first; the kinds take turns,
each one after the kind that was served last. -/
def State.nextEvent (s : State) : State :=
  if s.mgmt.step ≠ 4 then s
  else match s.deliveries.findSome? s.tried with
    | some t => t
    | none =>
      let n := eventKinds.length
      ((List.range n).findSome? fun j =>
        let k := (s.turn + j) % n
        (s.tryKind (eventKinds.getD k fun _ => [])).map fun t => { t with turn := k + 1 }).getD s

end Sys2Proof.Machine
end

