-- ==== Sys2Proof/Machine/Step.lean ====
section
/-! DEFINITION. One step of the device: room is made in a cache that holds too much; else the first event of the agenda; else a
drain that is due; else the next group of the gang in issue; else the device's own next event (log 4). -/

namespace Sys2Proof.Machine

/-- Time passes in each step (R196, log 6), and the quadrants count it (R322); a device that is not up has no time. -/
def State.tickOn (s : State) : State :=
  let n := if s.mgmt.step = 4 then 1 + Config.elapsed s.tick else 0
  { s.countCycles n with tick := s.tick + 1, time := s.time + n }

/-- A fetched group runs (R169): an instruction, or the fault of a group that is none. -/
def runGroup (x : Except State (State × DecRes)) : Host.Outcome State Fault Refusal :=
  match x with
  | .error s => .next s
  | .ok (s, .ok i _) => exec i s
  | .ok (s, .illegal reason word idx n none) => execWordNotAnInstruction (BitVec.ofNat 8 reason) word idx n s
  | .ok (s, .illegal reason word idx n i) => .next (s.illegalGroup reason word idx n i)
  | .ok (s, .pfxEnd i n) => .next (s.prefixEnd i n)
  | .ok (s, .more) => .next { s with cur := none }

/-- One step. An entry of the agenda that is an encoded instruction is no event and is dropped. -/
def step (s : State) : Host.Outcome State Fault Refusal :=
  let s := s.tickOn
  match s.makeRoom with
  | some t => .next t
  | none =>
    match s.agenda with
    | i :: rest => if i.hdr.isSome then .next { s with agenda := rest } else exec i { s with agenda := rest }
    | [] =>
      match s.drains with
      | e :: _ => e s
      | [] =>
        match s.cur with
        | some _ => runGroup s.fetch
        | none => .next s.nextEvent

/-! ### Placing one instruction where the next step fetches it (log 12) -/

/-- A launch record of one block of one gang with every budget at its largest, a handler at PC 0x100 and an F16 slot 0. -/
def probeRecord : LaunchRec :=
  { addr := 0, det := false, record := false, debug := false, fpEnables := 0, codeBase := 0, entry := 0, handler := 0x100,
    gridX := 1, gridY := 1, gridZ := 1, gangs := 1, accn := 8, scratch := 786432, stackStride := 16, stackBase := 0x100000,
    affsel := 0, affmul := 0, affTable := [], chunk := 8192, seed := 0, completion := 0x200000,
    slots := [some { fmt := 3, planes := 0, centre := false, scale := 0, ftz := false, rnd := 0 },
      none, none, none, none, none, none, none],
    bufs := List.replicate 16 (0, 0), roles := List.replicate 32 0, budgets := List.replicate 4 (112, 64), watch := [],
    trace := 0, traceLen := 0, param := List.replicate 4096 0 }

/-- The launch of the probe. -/
def probeLaunch : Launch :=
  { Launch.start 0 0 0 0 0 0 0 0 0 probeRecord with next := 1, positions := List.range 256 }

/-- The block of the probe: its gang's 32 threads are in issue at PC 0. -/
def probeBlock : Block :=
  { Block.start probeLaunch 0 0 0 0 0 none with
    gangs := [{ Gang.start probeLaunch 0 0 none with
      sheaf := some { members := BitVec.allOnes 32, out := 0, pc := 0, pos := 0, fp := none, commit := none } }] }

/-- A translation of the first 16 TiB onto themselves, with every permission (R343): the table of level 3 at 0x20000 and
that of level 2 at 0x40000. -/
def probeTables (m : List Host.Cell) : List Host.Cell :=
  writeLE (writeLE m 0x20000 8 0x40001) 0x40000 8 0x1F

/-- The state with an instruction placed where step fetches next: a launch with one gang whose sheaf stands at virtual
address 0, the translation of that address, and the instruction's words there (log 12). The partition's queue 0 shows the
launch as dispatched. -/
def State.withFetchWord (s : State) (nbits w : Nat) : State :=
  { s with
    agenda := [], cur := some (0, 0), nextId := 1,
    mem := writeLE (probeTables s.mem) 0 96 (w % 2 ^ nbits), lines := [], l3 := [], l2 := [], l1 := [], dir := [],
    tlb := [], tables := [],
    blocks := [probeBlock], launches := [probeLaunch], holders := [],
    parts := vset s.parts 0 { s.part 0 with troot := 0x20000, keyOwn := (s.part 0).keyOwn ||| 1 } }

end Sys2Proof.Machine
end

