-- ==== Sys2Proof/Safety.lean ====
section
/-! DEFINITION. The terms in which claims speak: the invariants of a well-kept machine, when an encoded instruction may
have its own effect, and what it leaves unchanged. -/

namespace Sys2Proof

/-- The memory is in canonical form: addresses strictly rise and no listed byte is zero. -/
def Safety.memOk (s : Machine.State) : Prop := Machine.Memory.wf s.mem = true

/-- Every block's scratchpad is in canonical form. -/
def Safety.spadsOk (s : Machine.State) : Prop := ∀ b ∈ s.blocks, Machine.Memory.wf b.spad = true

/-- A run of steps never stops. -/
def Safety.neverStops (s : Machine.State) : Prop := ∀ k, ∃ t, core.run k s = .next t

end Sys2Proof

namespace Sys2Proof.Safety
open Sys2Proof.Machine

/-- No region of an active thread overflows its constraints at an icmp (R143). -/
def roomForConstraint (i : Instr) (c : Ctx) : Prop :=
  match i with
  | .icmp _ _ _ _ a b => ∀ l < 32, c.act.getLsbD l = true → (c.G.lane l).wouldConstrain a b = true →
      ∀ r, (c.G.lane l).region = some r → r.cons.length < 16
  | _ => True

/-- The instruction i, with header h and guard g, may have its own effect in state s, in the context c: its gang is in issue,
and none of the checks and waits that come before an instruction's effect applies (R29-R37, R61, R140, R145, R166). -/
structure Ready (i : Instr) (h : Hdr) (g : BitVec 3) (s : State) (c : Ctx) : Prop where
  /-- The gang is in issue, and its sheaf does not wait at a rend. -/
  issues : s.focus.map (fun x => (x.1, x.2.1)) = some (c.u, c.g)
  /-- c is what the sheaf, its gang, block and launch say. -/
  context : s.ctx c.u c.g h h.words g = some c
  /-- Some member still runs. -/
  runs : c.run ≠ 0
  /-- The recorder's chunk goes on, and a replay neither holds the gang nor aborts its regions here (R157, R382, R392). -/
  chunkOpen : s.chunkDue c.u c.g = false
  unlogged : s.loggedTrap c.u c.g ≠ some 0x40
  notHeld : c.G.held = false
  inOrder : c.G.chunk = none ∨ c.G.mau = []
  /-- The word is an instruction in this launch, and a barrier object's register is not a token still to come (R91, R116, R156,
  R230). -/
  objectFree : i.objectPending c.G = false
  isInstr : i.illegalHere c = none
  /-- The run keeps its structure (R31, R32). -/
  ends : i.mustEnd = true → h.e = true
  fits : c.pos + c.n ≤ 24 ∧ (c.pos + c.n = 24 → h.e = true)
  /-- A running member in a region has words left, and the instruction is legal for it if it is active (R140, R145). -/
  words : ∀ l < 32, c.run.getLsbD l = true → ∀ r, (c.G.lane l).region = some r → r.count + c.n ≤ 64
  legal : c.act &&& c.G.inRegion ≠ 0 → i.regionLegal = true
  constraints : roomForConstraint i c
  /-- A full sheaf where one is needed (R37), and registers within the budgets (R61, R66). -/
  full : i.needsFull = true → c.G.fullSheaf = true
  budget : i.exhausts c.G c.L.r.accn = false
  /-- No register that the instruction names waits for a write, nothing that is performed before it is under way, and no access
  of the gang waits (R29, R120, R350). -/
  board : i.waits c.G c.L.r.slots c.members = false
  ordered : i.awaits c.G = false
  notParked : c.G.isParked = false
  accFree : c.B.accBusy c.g = false
  /-- The recorder owes no read for the members or for a token (R381). -/
  woken : ∀ l < 32, c.run.getLsbD l = true → (c.G.lane l).woken = none
  tokens : c.G.chunk = none ∨ ∀ r ∈ i.sregs, ∀ x ∈ c.B.clocks, x.1 ≠ (Item.token c.g r).code
  /-- No enabled FP exception of the run withholds the instruction (R88). -/
  notWithheld : i.withheld = true → ∀ S, c.G.sheaf = some S → S.fp = none

/-- What follows an instruction's effect: the quadrant chooses its next instruction (R30), or with E = 1 the run ends (R31). -/
def after (c : Ctx) (t : State) : State := if c.h.e then t.endRun c.u c.g false else { t with cur := none }

/-- The run has gone on past the group (R31), whose words the recorder has counted (R169). -/
structure Moved (c : Ctx) (G' : Gang) : Prop where
  sheaf : G'.sheaf = c.G.sheaf.map fun S => { S with pc := c.after, pos := S.pos + c.n }
  chunk : G'.chunk = c.G.chunk.map fun k => { k with count := k.count + c.n }

/-- A thread keeps everything but its vector registers, its predicates, the bookkeeping of its open region (R142, R145), and
the watch pass, which the next instruction of its run clears (R333). -/
def KeptLane (c : Ctx) (G' : Gang) (l : Nat) : Prop :=
  let t := c.G.lane l
  let t' := G'.lane l
  t' = { t with v := t'.v, p := t'.p, region := t'.region, watchPass := t'.watchPass } ∧
    t'.region.isSome = t.region.isSome ∧ t'.watchPass = (t.watchPass && !c.run.getLsbD l)

/-- The vector registers of a gang are as before, but that register d of the active lanes holds val. -/
def VectorIs (c : Ctx) (G' : Gang) (d : Nat) (val : Nat → Word) : Prop :=
  ∀ l < 32, ∀ r < 112, (G'.lane l).reg r = if c.act.getLsbD l ∧ r = d then val l else (c.G.lane l).reg r

/-- The vector registers of a gang are as before, but that the pair d of the active lanes holds val (R62). -/
def PairIs (c : Ctx) (G' : Gang) (d : Nat) (val : Nat → Dword) : Prop :=
  ∀ l < 32, ∀ r < 112, (G'.lane l).reg r =
    if c.act.getLsbD l ∧ r = d then (val l).extractLsb' 0 32
    else if c.act.getLsbD l ∧ r = d + 1 then (val l).extractLsb' 32 32
    else (c.G.lane l).reg r

/-- The vector registers of a gang are as before. -/
def VectorsKept (c : Ctx) (G' : Gang) : Prop := ∀ l < 32, (G'.lane l).v = (c.G.lane l).v

/-- The predicates of a gang are as before, but that predicate d of the lanes of m holds val; a write to p7 is
discarded (R65). -/
def PredIs (c : Ctx) (G' : Gang) (m : BitVec 32) (d : BitVec 3) (val : Nat → Bool) : Prop :=
  ∀ l < 32, ∀ q : BitVec 3, (G'.lane l).pred q = if m.getLsbD l ∧ q = d ∧ d ≠ 7 then val l else (c.G.lane l).pred q

/-- The predicates of a gang are as before. -/
def PredsKept (c : Ctx) (G' : Gang) : Prop := ∀ l < 32, (G'.lane l).p = (c.G.lane l).p

/-- The outcome is a next state in which the gang alone has changed, by a function F: its run has gone on, its threads keep
what KeptLane says, and P holds of the new gang. -/
def GangOnly (o : Host.Outcome State Fault Refusal) (s : State) (c : Ctx) (P : Gang → Prop) : Prop :=
  ∃ F : Gang → Gang, o = .next (after c (s.modGang c.u c.g F)) ∧ Moved c (F c.G) ∧ (∀ l < 32, KeptLane c (F c.G) l) ∧ P (F c.G)

/-- Besides its threads and its run the gang is as before. -/
def GangKept (c : Ctx) (G' : Gang) : Prop :=
  G' = { c.G with lanes := G'.lanes, sheaf := G'.sheaf, chunk := G'.chunk }

/-- Besides its threads, its run and its scalar registers the gang is as before. -/
def GangKeptButScalars (c : Ctx) (G' : Gang) : Prop :=
  G' = { c.G with lanes := G'.lanes, sheaf := G'.sheaf, chunk := G'.chunk, s := G'.s }

/-- Besides its threads and its run, and the flags of FPSTAT, the gang is as before. -/
def GangKeptButFlags (c : Ctx) (G' : Gang) : Prop :=
  G' = { c.G with lanes := G'.lanes, sheaf := G'.sheaf, chunk := G'.chunk, fpstat := G'.fpstat }

/-- An instruction has written register d of its active lanes, and nothing else. -/
def WritesVector (o : Host.Outcome State Fault Refusal) (s : State) (c : Ctx) (d : BitVec 7) (val : Nat → Word) : Prop :=
  GangOnly o s c fun G' => GangKept c G' ∧ PredsKept c G' ∧ VectorIs c G' d.toNat val

/-- An instruction has written the pair d of its active lanes, and nothing else. -/
def WritesPair (o : Host.Outcome State Fault Refusal) (s : State) (c : Ctx) (d : BitVec 7) (val : Nat → Dword) : Prop :=
  GangOnly o s c fun G' => GangKept c G' ∧ PredsKept c G' ∧ PairIs c G' d.toNat val

/-- An instruction has written predicate d of the lanes of m, and nothing else. -/
def WritesPred (o : Host.Outcome State Fault Refusal) (s : State) (c : Ctx) (m : BitVec 32) (d : BitVec 3)
    (val : Nat → Bool) : Prop :=
  GangOnly o s c fun G' => GangKept c G' ∧ VectorsKept c G' ∧ PredIs c G' m d val

/-- An instruction has written scalar register d, and nothing else. -/
def WritesScalar (o : Host.Outcome State Fault Refusal) (s : State) (c : Ctx) (d : BitVec 6) (val : Wide) : Prop :=
  GangOnly o s c fun G' => GangKeptButScalars c G' ∧ VectorsKept c G' ∧ PredsKept c G' ∧
    ∀ r < 64, G'.sreg r = if r = d.toNat then val else c.G.sreg r

/-- Wherever the instruction may have its own effect, it writes register d of its active lanes. -/
def VectorResult (i : Instr) (h : Hdr) (g : BitVec 3) (d : BitVec 7) (val : Ctx → Nat → Word) : Prop :=
  ∀ s c, Ready i h g s c → WritesVector (exec i s) s c d (val c)

/-- Wherever the instruction may have its own effect, it writes the pair d of its active lanes. -/
def PairResult (i : Instr) (h : Hdr) (g : BitVec 3) (d : BitVec 7) (val : Ctx → Nat → Dword) : Prop :=
  ∀ s c, Ready i h g s c → WritesPair (exec i s) s c d (val c)

/-- Wherever the instruction may have its own effect, it writes predicate d of its active lanes. -/
def PredResult (i : Instr) (h : Hdr) (g : BitVec 3) (d : BitVec 3) (val : Ctx → Nat → Bool) : Prop :=
  ∀ s c, Ready i h g s c → WritesPred (exec i s) s c c.act d (val c)

/-- Wherever the instruction may have its own effect, it writes scalar register d. -/
def ScalarResult (i : Instr) (h : Hdr) (g : BitVec 3) (d : BitVec 6) (val : Ctx → Wide) : Prop :=
  ∀ s c, Ready i h g s c → WritesScalar (exec i s) s c d (val c)

/-- The outcome is a next state in which the gang alone has changed, by a function F, its run has gone on, with the members of
m leaving it, and P holds of the new gang. -/
def GangGoesOn (o : Host.Outcome State Fault Refusal) (s : State) (c : Ctx) (m : BitVec 32) (P : Gang → Prop) : Prop :=
  ∃ F : Gang → Gang, o = .next (after c (s.modGang c.u c.g F)) ∧
    (F c.G).sheaf = c.G.sheaf.map (fun S => { S with pc := c.after, pos := S.pos + c.n, out := S.out ||| m }) ∧
    (F c.G).chunk = c.G.chunk.map (fun k => { k with count := k.count + c.n }) ∧ P (F c.G)

/-- Lane l of the new gang is the thread t, but for the bookkeeping of its open region and for the watch pass that an
instruction of its run clears (R142, R145, R333). -/
def LaneIs (c : Ctx) (G' : Gang) (l : Nat) (t : Lane) : Prop :=
  G'.lane l = { t with region := (G'.lane l).region, watchPass := (c.G.lane l).watchPass && !c.run.getLsbD l } ∧
    (G'.lane l).region.isSome = (c.G.lane l).region.isSome

/-- The active threads go to their targets, with LNK written where the instruction links; the other members go on at the next
word (R181). -/
def JumpsTo (o : Host.Outcome State Fault Refusal) (s : State) (c : Ctx) (link : Bool) (target : Nat → Word) : Prop :=
  GangGoesOn o s c c.act fun G' => GangKept c G' ∧ ∀ l < 32, LaneIs c G' l
    (if c.act.getLsbD l then { c.G.lane l with pc := target l, lnk := if link then c.after else (c.G.lane l).lnk }
     else c.G.lane l)

/-- Two states differ in one block alone. -/
def BlockOnly (u : Nat) (s t : State) : Prop := t = { s with blocks := t.blocks } ∧ ∀ v ≠ u, t.block? v = s.block? v

/-- Members of the mask m may take a trap: a handler is set, no receiver is in handler state or in a region (R326, R328), and
the launch is neither recorded nor replayed. -/
structure TrapsTo (c : Ctx) (m : BitVec 32) : Prop where
  some : m ≠ 0
  members : m &&& c.members = m
  handler : c.L.r.handler ≠ noHandler
  outside : ∀ l < 32, m.getLsbD l = true → (c.G.lane l).handler = false ∧ (c.G.lane l).region = none
  chunk : c.G.chunk = none

/-- The run ends with the trap of R325 on the threads of m: the trap registers, the resume PC, handler state and the
handler's PC; nothing else of these threads changes, and the other members go on after the instruction. A member whose region
has aborted in the run resumes at its fallback PC, which its PC already is (R150). -/
def TakesTrap (o : Host.Outcome State Fault Refusal) (s : State) (c : Ctx) (m : BitVec 32) (cause : Nat) (addr info : Dword)
    (resume : Word) : Prop :=
  ∃ F : Gang → Gang, o = .next ((s.modGang c.u c.g F).endRun c.u c.g false) ∧
    GangKept c (F c.G) ∧ (F c.G).chunk = c.G.chunk ∧
    (F c.G).sheaf = c.G.sheaf.map (fun S => { S with pc := c.after, pos := S.pos + c.n, out := S.out ||| m, fp := none }) ∧
    ∀ l < 32, if m.getLsbD l then (F c.G).lane l = { c.G.lane l with
        tcause := BitVec.ofNat 64 cause
        tpc := c.pc.setWidth 64
        taddr := addr
        tinfo := info
        handler := true
        resume := if c.run.getLsbD l then resume else (c.G.lane l).pc
        pc := c.L.r.handler
        watchPass := (c.G.lane l).watchPass && !c.run.getLsbD l }
      else KeptLane c (F c.G) l ∧ ((F c.G).lane l).v = (c.G.lane l).v ∧ ((F c.G).lane l).p = (c.G.lane l).p

/-- A vector register of a lane. -/
def laneReg (c : Ctx) (a : BitVec 7) (l : Nat) : Word := (c.G.lane l).reg a.toNat

/-- A pair of vector registers of a lane. -/
def lanePair (c : Ctx) (a : BitVec 7) (l : Nat) : Dword := (c.G.lane l).pair a.toNat

/-- A 32-bit source operand of a lane: a register or a broadcast scalar (R64). -/
def laneSrc (c : Ctx) (b : BitVec 7) (l : Nat) : Word := c.G.src b l

/-- A 64-bit source operand of a lane (R64). -/
def laneSrc64 (c : Ctx) (b : BitVec 7) (l : Nat) : Dword := c.G.src64 b l

/-- Bits 63:0 of a scalar register. -/
def scalar64 (c : Ctx) (a : BitVec 6) : Dword := (c.G.sreg a.toNat).extractLsb' 0 64

/-- A 64-bit scalar result: bits 71:64 are zero (R63). -/
def wide (x : Dword) : Wide := x.setWidth 72

/-- The flags that some lane of a mask raises. -/
def flagsOver (m : BitVec 32) (fl : Nat → BitVec 5) : BitVec 5 := (lanesOf m).foldl (fun x l => x ||| fl l) 0

/-- The lanes of c that raise an enabled exception (R88). -/
def enabledLanes (c : Ctx) (fl : Nat → BitVec 5) : BitVec 32 :=
  maskOf fun l => c.act.getLsbD l && decide (fl l &&& c.L.r.fpEnables ≠ 0)

/-- The exception that the run keeps for its end: the first that an instruction raised (R88). -/
def pendingFp (c : Ctx) (fl : Nat → BitVec 5) (old : Option FpTrap) : Option FpTrap :=
  match old with
  | some f => some f
  | none => if enabledLanes c fl = 0 then none else some
      { lanes := enabledLanes c fl, flags := flagsOver c.act fun l => fl l &&& c.L.r.fpEnables, pc := c.pc, pos := c.pos }

/-- The outcome is a next state in which the gang alone has changed: its run has gone on, FPSTAT has gained the flags that active
lanes raise (R68), an enabled one waits for the end of the run (R88), and P holds of the new gang. -/
def RaisesFlags (o : Host.Outcome State Fault Refusal) (s : State) (c : Ctx) (fl : Nat → BitVec 5) (P : Gang → Prop) : Prop :=
  ∃ F : Gang → Gang, o = .next (after c (s.modGang c.u c.g F)) ∧
    F c.G = { c.G with
      lanes := (F c.G).lanes
      s := (F c.G).s
      sheaf := c.G.sheaf.map fun S => { S with pc := c.after, pos := S.pos + c.n, fp := pendingFp c fl S.fp }
      chunk := c.G.chunk.map fun k => { k with count := k.count + c.n }
      fpstat := c.G.fpstat ||| flagsOver c.act fl } ∧
    (∀ l < 32, KeptLane c (F c.G) l) ∧ P (F c.G)

/-- Wherever the instruction may have its own effect, it writes the 32-bit result to register d of its active lanes, and raises
its flags. -/
def FloatResult (i : Instr) (h : Hdr) (g : BitVec 3) (d : BitVec 7) (val : Ctx → Nat → Nat × BitVec 5) : Prop :=
  ∀ s c, Ready i h g s c → RaisesFlags (exec i s) s c (fun l => (val c l).2) fun G' =>
    G'.s = c.G.s ∧ PredsKept c G' ∧ VectorIs c G' d.toNat fun l => BitVec.ofNat 32 (val c l).1

/-- The same with a 64-bit result in the pair d. -/
def DoubleResult (i : Instr) (h : Hdr) (g : BitVec 3) (d : BitVec 7) (val : Ctx → Nat → Nat × BitVec 5) : Prop :=
  ∀ s c, Ready i h g s c → RaisesFlags (exec i s) s c (fun l => (val c l).2) fun G' =>
    G'.s = c.G.s ∧ PredsKept c G' ∧ PairIs c G' d.toNat fun l => BitVec.ofNat 64 (val c l).1

/-- The same with a condition in predicate d. -/
def FloatCondition (i : Instr) (h : Hdr) (g : BitVec 3) (d : BitVec 3) (val : Ctx → Nat → Bool × BitVec 5) : Prop :=
  ∀ s c, Ready i h g s c → RaisesFlags (exec i s) s c (fun l => (val c l).2) fun G' =>
    G'.s = c.G.s ∧ VectorsKept c G' ∧ PredIs c G' c.act d fun l => (val c l).1

/-- An exact result rounded once to a format by the instruction's modifiers, with its flags (R83, R85). -/
def rounded (F : Fmt) (h : Hdr) (e : Exact × BitVec 5) : Nat × BitVec 5 :=
  ((roundFmt e.1 F h.rnd false h.ftz).1, e.2 ||| (roundFmt e.1 F h.rnd false h.ftz).2)

/-- The F32 operands of an instruction in a lane (R84). -/
def f32Reg (h : Hdr) (c : Ctx) (a : BitVec 7) (l : Nat) : FVal := Fmt.f32.operand h.ftz (laneReg c a l).toNat
def f32Src (h : Hdr) (c : Ctx) (b : BitVec 7) (l : Nat) : FVal := Fmt.f32.operand h.ftz (laneSrc c b l).toNat

/-- The F64 operands of an instruction in a lane (R84). -/
def f64Reg (h : Hdr) (c : Ctx) (a : BitVec 7) (l : Nat) : FVal := Fmt.f64.operand h.ftz (lanePair c a l).toNat
def f64Src (h : Hdr) (c : Ctx) (b : BitVec 7) (l : Nat) : FVal := Fmt.f64.operand h.ftz (laneSrc64 c b l).toNat

/-- A packed operation: both halves on their own, the flags of either (R259). -/
def packedRes (F : Fmt) (h : Hdr) (x y z : Word) (f : FVal → FVal → FVal → Exact × BitVec 5) : Nat × BitVec 5 :=
  let half (k : Nat) (w : Word) := F.operand h.ftz (w.toNat / 2 ^ (16 * k) % 2 ^ 16)
  let lo := rounded F h (f (half 0 x) (half 0 y) (half 0 z))
  let hi := rounded F h (f (half 1 x) (half 1 y) (half 1 z))
  (lo.1 + 2 ^ 16 * hi.1, lo.2 ||| hi.2)

/-- The fold of values in their order by a step of R265, or none of no value. -/
def foldOf (op : Nat) : List Word → Option Word
  | [] => none
  | x :: t => some (t.foldl (fun acc y => (foldStep op acc y).1) x)

/-- The fold of the active lanes below l, and of those up to l (R265). -/
def foldBelow (c : Ctx) (a : BitVec 7) (op l : Nat) : Option Word :=
  foldOf op (((lanesOf c.act).filter fun k => decide (k < l)).map (laneReg c a))
def foldUpTo (c : Ctx) (a : BitVec 7) (op l : Nat) : Word :=
  (foldOf op (((lanesOf c.act).filter fun k => decide (k ≤ l)).map (laneReg c a))).getD 0

/-- The flags of the step that folds lane l's value in (R265, R266). -/
def foldFlags (c : Ctx) (a : BitVec 7) (op l : Nat) : BitVec 5 :=
  match foldBelow c a op l with
  | some acc => (foldStep op acc (laneReg c a l)).2
  | none => 0

/-- A home has nothing to do for a line before it serves an access: its entry can be read, has no transaction in progress, and
names no failed die (R362, R370, R371). -/
structure Served (s : State) (line key : Nat) : Prop where
  good : (s.entry line key).bad = false
  free : (s.entry line key).req = none ∧ (s.entry line key).held = []
  alive : (s.entry line key).sharers &&& s.dieFailed = 0 ∧ ∀ d ∈ s.holdersOf line key, s.dieFailed.getLsbD d = false

/-- The accesses of lanes to global memory pass the checks of R100, and nothing else holds them up: they are aligned, no
descriptor watches, they lie at the places xs in this device's memory, whose homes can serve them, without poison, and no lane of
the instruction has made its access before. The gang is neither recorded nor replayed. -/
structure Reaches (c : Ctx) (s : State) (a : Access) (las : List (Nat × Nat)) (xs : List Spot) : Prop where
  aligned : ∀ x ∈ las, x.2 % a.n = 0
  parked : c.G.parked = none
  watch : c.L.r.watch = []
  chunk : c.G.chunk = none
  fresh : c.G.stored = 0
  lanes : las = xs.map fun x => (x.lane, x.va)
  places : ∀ x ∈ xs, placeOf c a s x.va = .ok x.pa x.key ∧ x.pa % 128 = x.va % 128
  here : ∀ x ∈ xs, s.local x.pa = true
  served : ∀ x ∈ xs, Served s (lineOf x.pa) x.key
  sound : ∀ x ∈ xs, s.poisoned x.key x.pa a.n = false

/-- The addresses of a vector access to global memory: the 72-bit pointer, plus the lane's signed offset, plus the displacement
(R97, R210). -/
def globalAt (c : Ctx) (b : Nat) (o : BitVec 7) : List (Nat × Nat) :=
  (lanesOf c.act).map fun l =>
    (l, (((c.G.sreg b).toNat + (laneReg c o l).toInt + c.h.disp) % (2 ^ 72 : Int)).toNat)

/-- The byte that a list of stores leaves at an address: the last store's (R209). -/
def storedByte (xs : List Spot) (bs : Nat → List Byte) (key pa : Nat) : Option Byte :=
  (xs.reverse.find? fun x => decide (x.key = key ∧ x.pa ≤ pa ∧ pa < x.pa + (bs x.lane).length)).map fun x =>
    (bs x.lane).getD (pa - x.pa) 0

/-- Two states differ in cached translations, copies of lines and their directory, and block u alone: what HBM4 holds is as
before. -/
def CachesAndBlock (u : Nat) (s t : State) : Prop :=
  t = { s with
    blocks := t.blocks
    tlb := t.tlb
    tables := t.tables
    freeCtr := t.freeCtr
    l1 := t.l1
    l2 := t.l2
    l3 := t.l3
    writes := t.writes
    dir := t.dir
    lines := t.lines
    floor := t.floor
    remote := t.remote
    requests := t.requests } ∧ ∀ v ≠ u, t.block? v = s.block? v

/-- Every byte of this device's memory reads as before, below the clusters' L1s (R10, R355). -/
def SameBytes (s t : State) : Prop := ∀ key pa, t.byteAt key pa = s.byteAt key pa

/-- A block's scratchpad and tiles are in canonical form. -/
def blockOk (b : Block) : Prop := Memory.wf b.spad = true ∧ swfFrom 0 b.acc = true

/-- The memory, and the scratchpad and tiles of every block, saved ones among them, are in canonical form: equal memories are equal
data. -/
def canonical (s : State) : Prop :=
  memOk s ∧ (∀ b ∈ s.blocks, blockOk b) ∧ ∀ L ∈ s.launches, ∀ x ∈ L.saved, blockOk x.1

/-- Every block has a number of its own, below the device's next one, and so has every launch; a gang's index is its place in its
block. -/
def named (s : State) : Prop :=
  s.blocks.Pairwise (fun a b => a.uid ≠ b.uid) ∧ s.launches.Pairwise (fun a b => a.id ≠ b.id) ∧
  (∀ b ∈ s.blocks, b.uid < s.nextId) ∧ (∀ L ∈ s.launches, L.id < s.nextId) ∧
  ∀ b ∈ s.blocks, ∀ (i : Nat) (G : Gang), b.gangs[i]? = some G → G.idx = i

/-- No cluster's L1 holds two copies of a line under one key. -/
def linesOnce (s : State) : Prop := s.l1.Pairwise fun y z => ¬ (y.cluster = z.cluster ∧ y.line = z.line ∧ y.key = z.key)

/-- No cluster holds a byte that memory lacks. -/
def noDirty (s : State) : Prop := ∀ y ∈ s.l1, y.dirty = 0

/-- The accesses of lanes to the scratchpad pass the checks of R100: aligned, allowed by the buffers that they touch, within the
block's scratchpad, unwatched. The gang is neither recorded nor replayed. -/
structure ReachesSpad (c : Ctx) (a : Access) (align : Nat) (las : List (Nat × Nat)) : Prop where
  aligned : ∀ x ∈ las, x.2 % align = 0
  allowed : ∀ x ∈ las, ∀ i < a.n, ∀ k, c.L.r.bufAt (x.2 + i) = some k → bufAllows (c.B.buf k) a.rd a.wr = true
  within : ∀ x ∈ las, x.2 + a.n ≤ c.L.r.scratch
  watch : c.L.r.watch = []
  chunk : c.G.chunk = none

/-- The offsets of a vector access to the scratchpad (R101). -/
def spadAt (c : Ctx) (o : BitVec 7) (add : Int) : List (Nat × Nat) :=
  (lanesOf c.act).map fun l => (l, (((laneReg c o l).toNat + add) % (2 ^ 32 : Int)).toNat)

/-- The byte that a list of scratchpad stores leaves at an offset: the last store's. -/
def storedSpad (las : List (Nat × Nat)) (bs : Nat → List Byte) (a : Nat) : Option Byte :=
  (las.reverse.find? fun x => decide (x.2 ≤ a ∧ a < x.2 + (bs x.1).length)).map fun x => (bs x.1).getD (a - x.2) 0

/-- A lane of the new gang is the thread t, but for the watch pass that an instruction of its run clears (R333). -/
def LaneEq (c : Ctx) (G' : Gang) (l : Nat) (t : Lane) : Prop :=
  G'.lane l = { t with watchPass := (c.G.lane l).watchPass && !c.run.getLsbD l }

/-- The inputs of a region with those rigid that the tags of a thread's registers name (R142). -/
def rigidInputs (t : Lane) (regs : List Nat) (xs : List RInput) : List RInput :=
  xs.mapIdx fun k x => { x with rigid := x.rigid || (regs.filterMap t.tag).any fun q => decide (q.k = k) }

/-- The outcome is a next state in which the block has accepted jobs after those that it holds, in their order: each takes the next
number of the device and the next one of its thread; nothing else of the block changes but its gang and its buffers. -/
def Accepts (o : Host.Outcome State Fault Refusal) (s : State) (c : Ctx) (js : List Job) (P : Block → Gang → Prop) : Prop :=
  ∃ u B' G', o = .next (after c u) ∧ u = { s with blocks := u.blocks, nextId := s.nextId + js.length } ∧
    (∀ v ≠ c.u, u.block? v = s.block? v) ∧ u.block? c.u = some B' ∧ u.gang? c.u c.g = some G' ∧
    B' = { c.B with gangs := B'.gangs, bufs := B'.bufs, jobs := B'.jobs, nextJob := B'.nextJob } ∧
    (∀ k ≠ c.g, B'.gangs[k]? = c.B.gangs[k]?) ∧
    B'.jobs.length = c.B.jobs.length + js.length ∧ (∀ i < c.B.jobs.length, B'.jobs[i]? = c.B.jobs[i]?) ∧
    (∀ i < js.length, ∃ no, B'.jobs[c.B.jobs.length + i]? = js[i]?.map fun j => { j with
      id := s.nextId + i
      seq := (c.G.lane j.lane).jobSeq
      jobNo := no }) ∧
    P B' G'

/-- The launch is neither recorded nor replayed. -/
def Unrecorded (s : State) (c : Ctx) : Prop := c.L.number = none ∧ s.replayOf c.u = none ∧ c.G.chunk = none

end Sys2Proof.Safety
end

