-- ==== Sys2Proof/Laws/Issue.lean ====
section
/-! SUPPORT. What the issue of an encoded instruction does when nothing comes before its own effect. -/

namespace Sys2Proof.Laws
open Sys2Proof.Machine Sys2Proof.Safety

/-! ### Lane masks and lanes -/

theorem foldl_mask (f : Nat → Bool) (n : Nat) (l : Nat) (hl : l < 32) (hn : n ≤ 32) :
    ((List.range n).foldl (fun (m : BitVec 32) i => if f i then m ||| BitVec.twoPow 32 i else m) 0).getLsbD l
      = (decide (l < n) && f l) := by
  induction n with
  | zero => simp
  | succ n ih =>
    rw [List.range_succ, List.foldl_append]
    have ih := ih (by omega)
    by_cases hf : f n
    · simp only [List.foldl_cons, List.foldl_nil, hf, if_true, BitVec.getLsbD_or, ih, BitVec.getLsbD_twoPow]
      by_cases h : n = l
      · subst h; simp [hf, hl]
      · have : l < n + 1 ↔ l < n := by omega
        simp only [this]
        simp [h]
    · simp only [List.foldl_cons, List.foldl_nil, hf, Bool.false_eq_true, if_false, ih]
      by_cases h : n = l
      · subst h; simp [hf]
      · have : l < n + 1 ↔ l < n := by omega
        simp only [this]

/-- A mask holds the lanes that satisfy its condition. -/
@[simp] theorem maskOf_lane (f : Nat → Bool) (l : Nat) (hl : l < 32) : (maskOf f).getLsbD l = f l := by
  unfold maskOf
  rw [foldl_mask f 32 l hl (by decide)]
  simp [hl]

/-- Two masks with the same lanes are the same. -/
theorem mask_ext (x y : BitVec 32) (h : ∀ l < 32, x.getLsbD l = y.getLsbD l) : x = y :=
  BitVec.eq_of_getLsbD_eq fun i hi => h i hi

/-- A mask without lanes. -/
theorem mask_none {x : BitVec 32} (h : ∀ l < 32, x.getLsbD l = false) : x = 0 :=
  mask_ext x 0 fun l hl => by simp [h l hl]

/-- The lanes of a gang whose lanes a mask has changed. -/
@[simp] theorem modLanes_lane (G : Gang) (m : BitVec 32) (f : Nat → Lane → Lane) (l : Nat) (hl : l < 32) :
    (G.modLanes m f).lane l = if m.getLsbD l then f l (G.lane l) else G.lane l := by
  simp [Gang.lane, Gang.modLanes, vget, hl]

@[simp] theorem modLanes_s (G : Gang) (m f) : (G.modLanes m f).s = G.s := rfl
@[simp] theorem modLanes_sheaf (G : Gang) (m f) : (G.modLanes m f).sheaf = G.sheaf := rfl
@[simp] theorem modLanes_chunk (G : Gang) (m f) : (G.modLanes m f).chunk = G.chunk := rfl
@[simp] theorem modLanes_sreg (G : Gang) (m f) (n) : (G.modLanes m f).sreg n = G.sreg n := rfl

/-- No lane changed. -/
@[simp] theorem modLanes_none (G : Gang) (f : Nat → Lane → Lane) : G.modLanes 0 f = G := by
  have : (G.lanes.mapIdx fun l t => if (0 : BitVec 32).getLsbD l then f l t else t) = G.lanes := by
    ext i hi
    simp
  unfold Gang.modLanes
  rw [this]

/-- The lanes with an open region. -/
theorem inRegion_lane (G : Gang) (l : Nat) (hl : l < 32) : G.inRegion.getLsbD l = (G.lane l).region.isSome :=
  maskOf_lane _ l hl

/-- A change of lanes that keeps their thread states keeps the mask of live lanes. -/
theorem modLanes_live (G : Gang) (m : BitVec 32) (f : Nat → Lane → Lane) (h : ∀ l < 32, (f l (G.lane l)).st = (G.lane l).st) :
    (G.modLanes m f).live = G.live := by
  apply mask_ext
  intro l hl
  simp only [Gang.live, maskOf_lane _ l hl, modLanes_lane G m f l hl]
  by_cases hm : m.getLsbD l
  · simp [hm, Lane.live, h l hl]
  · simp [hm]

/-- And the mask of running members. -/
theorem modLanes_running (G : Gang) (m : BitVec 32) (f : Nat → Lane → Lane) (h : ∀ l < 32, (f l (G.lane l)).st = (G.lane l).st) :
    (G.modLanes m f).running = G.running := by
  simp only [Gang.running, modLanes_sheaf, modLanes_live G m f h]

/-! ### Blocks and gangs -/

theorem find_map_block (bs : List Block) (u : Nat) (f : Block → Block) (hf : ∀ b, (f b).uid = b.uid) :
    (bs.map fun b => if b.uid = u then f b else b).find? (fun b => decide (b.uid = u))
      = (bs.find? fun b => decide (b.uid = u)).map f := by
  induction bs with
  | nil => rfl
  | cons b t ih =>
    by_cases h : b.uid = u
    · simp [h, hf]
    · simp [h, ih]

/-- The block that a change of blocks has changed. -/
theorem block?_modBlock (s : State) (u : Nat) (f : Block → Block) (hf : ∀ b, (f b).uid = b.uid) :
    (s.modBlock u f).block? u = (s.block? u).map f := find_map_block s.blocks u f hf

@[simp] theorem modGang_uid (b : Block) (g : Nat) (f : Gang → Gang) : (b.modGang g f).uid = b.uid := rfl
@[simp] theorem modGang_launch (b : Block) (g : Nat) (f : Gang → Gang) : (b.modGang g f).launch = b.launch := rfl

@[simp] theorem block?_modGang (s : State) (u g : Nat) (f : Gang → Gang) :
    (s.modGang u g f).block? u = (s.block? u).map fun b => b.modGang g f :=
  block?_modBlock s u _ fun _ => rfl

@[simp] theorem gang?_modGang (s : State) (u g : Nat) (f : Gang → Gang) :
    (s.modGang u g f).gang? u g = (s.gang? u g).map f := by
  unfold State.gang?
  rw [block?_modGang]
  cases s.block? u with
  | none => rfl
  | some b => simp [Block.modGang]

@[simp] theorem launchOf_modGang (s : State) (u g : Nat) (f : Gang → Gang) :
    (s.modGang u g f).launchOf u = s.launchOf u := by
  unfold State.launchOf
  rw [block?_modGang]
  cases s.block? u <;> rfl

/-- Two changes of one gang are one change. -/
@[simp] theorem modGang_modGang (s : State) (u g : Nat) (f f' : Gang → Gang) :
    (s.modGang u g f).modGang u g f' = s.modGang u g fun G => f' (f G) := by
  simp only [State.modGang, State.modBlock, List.map_map]
  congr 1
  apply List.map_congr_left
  intro b _
  by_cases h : b.uid = u
  · simp only [Function.comp, h, if_true, Block.modGang]
    simp [List.modify_modify_eq, Function.comp_def]
  · simp [Function.comp, h]

/-- No change. -/
theorem modGang_id (s : State) (u g : Nat) (f : Gang → Gang) (h : ∀ G, f G = G) : s.modGang u g f = s := by
  have hf : f = id := funext h
  subst hf
  simp only [State.modGang, State.modBlock, Block.modGang, List.modify_id]
  have : (s.blocks.map fun b => if b.uid = u then { b with gangs := b.gangs } else b) = s.blocks := by
    conv_rhs => rw [← List.map_id s.blocks]
    apply List.map_congr_left
    intro b _
    split <;> rfl
  rw [this]

/-! ### The issue of an instruction -/

/-- What a context is made of. -/
theorem ctx_spec {s : State} {u g n : Nat} {h : Hdr} {guard : BitVec 3} {c : Ctx} (hc : s.ctx u g h n guard = some c) :
    c.u = u ∧ c.g = g ∧ c.h = h ∧ c.n = n ∧ s.block? u = some c.B ∧ s.launchOf u = some c.L ∧ s.gang? u g = some c.G ∧
      c.run = c.G.running ∧ c.act = c.run &&& c.G.guardMask guard ∧
      ∃ S, c.G.sheaf = some S ∧ c.pc = S.pc ∧ c.pos = S.pos ∧ c.wpc = S.pc + BitVec.ofNat 32 (4 * (n - 1)) := by
  unfold State.ctx at hc
  split at hc
  · rename_i B L G hB hL hG
    split at hc
    · cases hc
    · rename_i S hS
      cases hc
      exact ⟨rfl, rfl, rfl, rfl, hB, hL, hG, rfl, rfl, S, hS, rfl, rfl, rfl⟩
  · cases hc

/-- An abort of no lane does nothing. -/
@[simp] theorem abortRegions_none (s : State) (u g cause : Nat) (d : Nat → Nat) : s.abortRegions u g 0 cause d = s := by
  unfold State.abortRegions
  split <;> simp

/-- The words of the group, counted towards the regions of the running members (R145). -/
def counted (c : Ctx) (G : Gang) : Gang :=
  G.modLanes (c.run &&& c.G.inRegion) fun _ t => t.modRegion fun r => { r with count := min 65 (r.count + c.n) }

/-- The context with those words counted. -/
def countedCtx (c : Ctx) : Ctx := { c with G := counted c c.G }

theorem act_le_run {i h g s c} (hr : Ready i h g s c) (l : Nat) (ha : c.act.getLsbD l = true) : c.run.getLsbD l = true := by
  obtain ⟨-, -, -, -, -, -, -, -, hact, -⟩ := ctx_spec hr.context
  rw [hact, BitVec.getLsbD_and] at ha
  simp at ha
  exact ha.1

/-- No region overflows at the group: its words are counted (R145). -/
theorem regionCount_ready {i h g s c} (hr : Ready i h g s c) : s.regionCount c = s.modGang c.u c.g (counted c) := by
  unfold State.regionCount
  by_cases hm : c.run &&& c.G.inRegion = 0
  · rw [if_pos hm, modGang_id]
    intro G
    rw [counted, hm, modLanes_none]
  · rw [if_neg hm]
    have hfull : (maskOf fun l => (c.run &&& c.G.inRegion).getLsbD l &&
        decide (64 < (((c.G.lane l).region.map (·.count)).getD 0) + c.n)) = 0 := by
      apply mask_none
      intro l hl
      rw [maskOf_lane _ l hl]
      cases hreg : (c.G.lane l).region with
      | none => simp only [BitVec.getLsbD_and, inRegion_lane _ l hl, hreg, Option.isSome_none, Bool.and_false, Bool.false_and]
      | some r =>
        by_cases hrun : c.run.getLsbD l
        · have := hr.words l hl hrun r hreg
          simp
          omega
        · simp [hrun]
    simp only [hfull, abortRegions_none]
    rfl

@[simp] theorem modRegion_st (t : Lane) (f) : (t.modRegion f).st = t.st := rfl
@[simp] theorem modRegion_v (t : Lane) (f) : (t.modRegion f).v = t.v := rfl
@[simp] theorem modRegion_p (t : Lane) (f) : (t.modRegion f).p = t.p := rfl
@[simp] theorem modRegion_reg (t : Lane) (f) (r) : (t.modRegion f).reg r = t.reg r := rfl
@[simp] theorem modRegion_woken (t : Lane) (f) : (t.modRegion f).woken = t.woken := rfl
@[simp] theorem modRegion_some (t : Lane) (f) : (t.modRegion f).region.isSome = t.region.isSome := by simp [Lane.modRegion]

theorem counted_running (c : Ctx) : (counted c c.G).running = c.G.running := modLanes_running _ _ _ fun _ _ => rfl

theorem counted_live (c : Ctx) : (counted c c.G).live = c.G.live := modLanes_live _ _ _ fun _ _ => rfl

/-- A change of lanes that keeps their thread states keeps the sheaf's members. -/
theorem modLanes_members (G : Gang) (m : BitVec 32) (f : Nat → Lane → Lane) (h : ∀ l < 32, (f l (G.lane l)).st = (G.lane l).st) :
    (G.modLanes m f).members = G.members := by
  simp only [Gang.members, modLanes_sheaf, modLanes_live G m f h]

theorem counted_members (c : Ctx) : (counted c c.G).members = c.G.members := modLanes_members _ _ _ fun _ _ => rfl

theorem counted_inRegion (c : Ctx) : (counted c c.G).inRegion = c.G.inRegion := by
  apply mask_ext
  intro l hl
  rw [inRegion_lane _ l hl, inRegion_lane _ l hl, counted, modLanes_lane _ _ _ l hl]
  split
  · exact modRegion_some _ _
  · rfl

/-- The sheaf of a context whose members run has members. -/
theorem members_of_run {c : Ctx} (hc : c.run = c.G.running) (h : c.run ≠ 0) : c.members ≠ 0 := by
  intro h0
  apply h
  rw [hc]
  unfold Ctx.members Gang.members at h0
  unfold Gang.running
  cases hS : c.G.sheaf with
  | none => rfl
  | some S =>
    rw [hS] at h0
    simp only at h0 ⊢
    rw [BitVec.and_assoc, BitVec.and_comm (~~~ S.out), ← BitVec.and_assoc, h0]
    exact BitVec.zero_and

/-- The members that run are members. -/
theorem run_members {c : Ctx} (hc : c.run = c.G.running) (l : Nat) (h : c.run.getLsbD l = true) : c.members.getLsbD l = true := by
  rw [hc] at h
  unfold Ctx.members Gang.members
  unfold Gang.running at h
  cases hS : c.G.sheaf with
  | none => simp [hS] at h
  | some S =>
    rw [hS] at h
    simp only [BitVec.getLsbD_and, Bool.and_eq_true] at h ⊢
    exact ⟨h.1.1, h.2⟩

/-- The checks that look at a gang see no difference. -/
theorem counted_checks (c : Ctx) (i : Instr) (slots) (accn : Nat) :
    (counted c c.G).fullSheaf = c.G.fullSheaf ∧ i.exhausts (counted c c.G) accn = i.exhausts c.G accn ∧
    i.waits (counted c c.G) slots c.members = i.waits c.G slots c.members ∧ i.awaits (counted c c.G) = i.awaits c.G ∧
    (counted c c.G).isParked = c.G.isParked ∧ (countedCtx c).members = c.members := by
  refine ⟨?_, rfl, rfl, rfl, rfl, counted_members c⟩
  simp only [Gang.fullSheaf, counted_live]
  rfl

/-- Nor do the checks that look at the word's place (R166). -/
theorem counted_illegal (c : Ctx) (i : Instr) : i.illegalHere (countedCtx c) = i.illegalHere c := by
  unfold Instr.illegalHere
  simp only [countedCtx, counted_inRegion]
  rfl

/-- The tags of a thread are what they were before its words were counted. -/
theorem counted_constrain (c : Ctx) (l : Nat) (hl : l < 32) (a b : BitVec 7) :
    ((counted c c.G).lane l).wouldConstrain a b = (c.G.lane l).wouldConstrain a b := by
  unfold counted
  rw [modLanes_lane _ _ _ l hl]
  split
  · have ht : ∀ r, ((c.G.lane l).modRegion fun R => { R with count := min 65 (R.count + c.n) }).tagOf r = (c.G.lane l).tagOf r := by
      intro r
      unfold Lane.tagOf Lane.tag Lane.modRegion
      cases (c.G.lane l).region <;> rfl
    unfold Lane.wouldConstrain
    rw [ht, ht]
  · rfl

/-- No region aborts for what the instruction is (R140, R143). -/
theorem regionRules_ready {i h g s c} (hr : Ready i h g s c) (t : State) : t.regionRules i (countedCtx c) = t := by
  unfold State.regionRules
  simp only [countedCtx, counted_inRegion]
  by_cases hm : c.act &&& c.G.inRegion = 0
  · rw [if_pos hm]
  · rw [if_neg hm]
    simp only [hr.legal hm, Bool.not_true, Bool.false_eq_true, if_false]
    split
    · rename_i h0 g0 p0 k0 a b
      have hs : (maskOf fun l => (c.act &&& c.G.inRegion).getLsbD l && ((counted c c.G).lane l).wouldConstrain a b &&
          decide (16 ≤ ((((counted c c.G).lane l).region.map (·.cons.length)).getD 0))) = 0 := by
        apply mask_none
        intro l hl
        rw [maskOf_lane _ l hl, counted_constrain c l hl]
        by_cases ha : c.act.getLsbD l
        · by_cases hw : (c.G.lane l).wouldConstrain a b
          · cases hreg : (c.G.lane l).region with
            | none => simp [inRegion_lane _ l hl, hreg]
            | some r =>
              have h1 := hr.constraints l hl ha hw r hreg
              have h2 : ((counted c c.G).lane l).region.map (·.cons.length) = some r.cons.length := by
                unfold counted
                rw [modLanes_lane _ _ _ l hl]
                split
                · simp [Lane.modRegion, hreg]
                · simp [hreg]
              rw [h2]
              simp
              omega
          · simp [hw]
        · simp [ha]
      exact (congrArg (fun m => t.abortRegions c.u c.g m 0x22 fun _ => 0) hs).trans (abortRegions_none ..)
    · rfl

theorem counted_lane (c : Ctx) (l : Nat) (hl : l < 32) : (counted c c.G).lane l =
    if (c.run &&& c.G.inRegion).getLsbD l then
      (c.G.lane l).modRegion fun r => { r with count := min 65 (r.count + c.n) }
    else c.G.lane l := modLanes_lane _ _ _ l hl

theorem lanesOf_mem {m : BitVec 32} {l : Nat} : l ∈ lanesOf m ↔ l < 32 ∧ m.getLsbD l = true := by
  simp [lanesOf]

/-- The issue of a ready instruction is its own effect on the state with its words counted. -/
theorem issue_ready {i h g s c} (hr : Ready i h g s c) (body : Ctx → State → Eff) :
    issue i h g body s = .next (s.settleEff i (countedCtx c) (body (countedCtx c) (s.modGang c.u c.g (counted c)))) := by
  obtain ⟨hu, hg, hh, hn, hB, hL, hG, hrun, hact, S, hS, hpc, hpos, -⟩ := ctx_spec hr.context
  obtain ⟨S', hf⟩ : ∃ S', s.focus = some (c.u, c.g, S') := by
    cases hfo : s.focus with
    | none => have := hr.issues; simp [hfo] at this
    | some x =>
      have := hr.issues
      rw [hfo] at this
      simp at this
      obtain ⟨h1, h2⟩ := this
      exact ⟨x.2.2, by rw [← h1, ← h2]⟩
  unfold issue
  rw [hf]
  show Host.Outcome.next (s.issueAt i h g body c.u c.g) = _
  congr 1
  have hlog : s.abortLogged c.u c.g = s := by
    unfold State.abortLogged
    rw [if_neg hr.unlogged]
  unfold State.issueAt
  simp only [hr.chunkOpen, Bool.false_eq_true, if_false, hlog, hr.context]
  have hord : (c.G.held || c.G.chunk.isSome && !c.G.mau.isEmpty) = false := by
    rw [hr.notHeld]
    rcases hr.inOrder with h1 | h1 <;> simp [h1]
  have hend : ((i.mustEnd && !h.e) || decide (24 < c.pos + c.n) || (decide (c.pos + c.n = 24) && !h.e)) = false := by
    have h1 := hr.ends
    have h2 := hr.fits
    cases he : h.e
    · cases hm : i.mustEnd
      · simp [he] at h2 ⊢
        omega
      · simp [hm, he] at h1
    · simp
      omega
  have hwoken : ∀ c', c'.run = c.run → c'.G = counted c c.G → ∀ t : State, t.wokenReads c' = t := by
    intro c' h1 h2 t
    unfold State.wokenReads
    have : ((lanesOf c'.run).filter fun l => (c'.G.lane l).woken.isSome) = [] := by
      rw [List.filter_eq_nil_iff]
      intro l hl
      rw [h1, lanesOf_mem] at hl
      rw [h2, counted_lane c l hl.1]
      have := hr.woken l hl.1 hl.2
      split <;> simp [this]
    simp [this]
  have hchunk : (counted c c.G).chunk = c.G.chunk := rfl
  have htok : ∀ c', c'.g = c.g → c'.B = c.B → c'.G = counted c c.G → ∀ t : State, t.tokenReads i c' = t := by
    intro c' h1 h2 h3 t
    unfold State.tokenReads
    rw [h1, h2, h3, hchunk]
    rcases hr.tokens with h4 | h4
    · simp [h4]
    · have : (i.sregs.filter fun r => c.B.clocks.any fun x => decide (x.1 = (Item.token c.g r).code)) = [] := by
        rw [List.filter_eq_nil_iff]
        intro r hrm
        simp only [List.any_eq_true, not_exists, not_and, decide_eq_true_eq]
        intro x hx
        exact h4 r hrm x hx
      simp [this]
  have hG1 : (s.modGang c.u c.g (counted c)).gang? c.u c.g = some (counted c c.G) := by
    rw [gang?_modGang, hu, hg, hG]
    rfl
  have hrun1 : (counted c c.G).running = c.run := by rw [counted_running, hrun]
  have hact1 : c.act &&& c.run = c.act := by
    rw [hact, BitVec.and_assoc, BitVec.and_comm (c.G.guardMask g), ← BitVec.and_assoc, BitVec.and_self]
  have hc1 : c.refresh (s.modGang c.u c.g (counted c)) = countedCtx c := by
    unfold Ctx.refresh countedCtx
    simp only [hG1, Option.getD_some, hrun1, hact1]
  have hc2 : (countedCtx c).refresh (s.modGang c.u c.g (counted c)) = countedCtx c := by
    unfold Ctx.refresh countedCtx
    simp only [hG1, Option.getD_some, hrun1, hact1]
  obtain ⟨hfs, hex, hwa, haw, hpk, hme⟩ := counted_checks c i c.L.r.slots c.L.r.accn
  have hfull : (i.needsFull && !(countedCtx c).G.fullSheaf) = false := by
    show (i.needsFull && !(counted c c.G).fullSheaf) = false
    rw [hfs]
    cases hnf : i.needsFull
    · rfl
    · simp [hr.full hnf]
  have hwt : (countedCtx c).held i = false := by
    unfold Ctx.held
    rw [hme]
    show (i.waits (counted c c.G) c.L.r.slots c.members || i.awaits (counted c c.G) || (counted c c.G).isParked || c.B.accBusy c.g) = false
    rw [hwa, haw, hpk, hr.board, hr.ordered, hr.notParked, hr.accFree]
    rfl
  have hbr : (countedCtx c).breaksRun i = false := by
    unfold Ctx.breaksRun
    show ((i.mustEnd && !c.h.e) || decide (24 < c.pos + c.n) || (decide (c.pos + c.n = 24) && !c.h.e)) = false
    rw [hh]
    exact hend
  have hmem : ¬ (c.members = 0) := members_of_run hrun hr.runs
  have hbud : i.exhausts (countedCtx c).G (countedCtx c).L.r.accn = false := hex.trans hr.budget
  have hill : i.illegalHere (countedCtx c) = none := (counted_illegal c i).trans hr.isInstr
  simp only [hord, Bool.false_eq_true, if_false, hmem, hr.objectFree, regionCount_ready hr, hc1, hill, hbr, regionRules_ready hr,
    hc2, hfull, hbud, hwt]
  show s.settleEff i (countedCtx c) (body (countedCtx c) (State.tokenReads
    (State.wokenReads (s.modGang c.u c.g (counted c)) (countedCtx c)) i (countedCtx c))) = _
  rw [hwoken (countedCtx c) rfl rfl, htok (countedCtx c) rfl rfl rfl]

/-! ### The tags of registers (R142) -/

/-- Two threads differ in the contents of their open region alone. -/
def SameButRegion (t t' : Lane) : Prop := t' = { t with region := t'.region } ∧ t'.region.isSome = t.region.isSome

theorem SameButRegion.refl (t : Lane) : SameButRegion t t := ⟨rfl, rfl⟩

theorem SameButRegion.trans {a b c : Lane} (h1 : SameButRegion a b) (h2 : SameButRegion b c) : SameButRegion a c := by
  refine ⟨?_, h2.2.trans h1.2⟩
  rw [h2.1, h1.1]

theorem modRegion_same (t : Lane) (f) : SameButRegion t (t.modRegion f) := ⟨rfl, modRegion_some t f⟩

theorem foldl_same {α : Type} (f : Lane → α → Lane) (hf : ∀ t a, SameButRegion t (f t a)) (l : List α) (t : Lane) :
    SameButRegion t (l.foldl f t) := by
  induction l generalizing t with
  | nil => exact .refl t
  | cons a l ih => exact (hf t a).trans (ih (f t a))

theorem rigidRegs_same (t t0 : Lane) (l : List Nat) : SameButRegion t (t.rigidRegs t0 l) := by
  refine foldl_same _ (fun t r => ?_) l t
  split
  · exact modRegion_same _ _
  · exact .refl t

theorem addTags_same (t t0 : Lane) (d a b : BitVec 7) (x y : Word) (sub : Bool) : SameButRegion t (t.addTags t0 d a b x y sub) := by
  unfold Lane.addTags
  split
  · exact modRegion_same _ _
  · split
    · exact (modRegion_same _ _).trans (modRegion_same _ _)
    · exact modRegion_same _ _
  · exact ((modRegion_same _ _).trans (modRegion_same _ _)).trans (modRegion_same _ _)
  · exact modRegion_same _ _

/-- A recorded constraint changes nothing but the region. -/
theorem constrain_same (t : Lane) (a b : BitVec 7) (k : BitVec 4) (x y : Word) (r : Bool) :
    SameButRegion t (t.constrain a b k x y r) := by
  unfold Lane.constrain
  split
  · exact modRegion_same _ _
  · exact modRegion_same _ _
  · exact (modRegion_same _ _).trans (modRegion_same _ _)
  · exact .refl t

/-- What an instruction does to tags changes nothing but them. -/
theorem tagEffect_same (i : Instr) (slots) (G : Gang) (l : Nat) (t : Lane) : SameButRegion t (i.tagEffect slots G l t) := by
  unfold Instr.tagEffect
  split
  · exact addTags_same ..
  · exact addTags_same ..
  · dsimp only
    split
    · exact modRegion_same _ _
    · exact modRegion_same _ _
  all_goals first
    | exact .refl t
    | exact (rigidRegs_same _ _ _).trans (foldl_same _ (fun t r => modRegion_same _ _) _ _)

/-! ### After the effect -/

/-- A gang after its tags have followed an instruction (R142). -/
def tagged (i : Instr) (c : Ctx) (G : Gang) : Gang :=
  G.modLanes (c.act &&& (counted c c.G).inRegion &&& G.inRegion) fun l t => i.tagEffect c.L.r.slots (counted c c.G) l t

/-- A gang whose run has gone on past a group (R31, R169, R333). -/
def moved (c : Ctx) (G : Gang) : Gang :=
  { G.modLanes c.run fun l t => { t with watchPass := t.watchPass && ((counted c c.G).lane l).handler && !t.handler } with
    sheaf := G.sheaf.map fun S => { S with pc := c.after, pos := S.pos + c.n },
    chunk := G.chunk.map fun k => { k with count := k.count + c.n } }

/-- No pending FP exception withholds the instruction: its effect takes place (R88). -/
theorem settle_done {s0 s' : State} {i : Instr} {c : Ctx}
    (hp : i.withheld = true → ∀ S, c.G.sheaf = some S → S.fp = none) : s0.settleEff i c (.done s') = s'.complete i c := by
  unfold State.settleEff
  cases hw : i.withheld
  · simp
  · cases hS : c.G.sheaf with
    | none => simp
    | some S => simp [hp hw S hS]

/-- The members of the sheaf after a group: those of the effect's gang. -/
theorem moved_members (i : Instr) (c : Ctx) (G : Gang) : (moved c (tagged i c G)).members = G.members := by
  have h1 : (tagged i c G).members = G.members := modLanes_members _ _ _ fun l hl => by rw [(tagEffect_same _ _ _ _ _).1]
  have h2 : ((tagged i c G).modLanes c.run fun l t =>
      { t with watchPass := t.watchPass && ((counted c c.G).lane l).handler && !t.handler }).live = (tagged i c G).live :=
    modLanes_live _ _ _ fun _ _ => rfl
  rw [← h1]
  unfold moved Gang.members
  show (match (tagged i c G).sheaf.map (fun S : Sheaf => { S with pc := c.after, pos := S.pos + c.n }) with
    | some S => S.members &&& ((tagged i c G).modLanes c.run fun l t =>
        { t with watchPass := t.watchPass && ((counted c c.G).lane l).handler && !t.handler }).live
    | none => 0) = _
  rw [h2]
  cases (tagged i c G).sheaf <;> rfl

/-- An effect that leaves no rend waiting takes place, and the run goes on, or it ends with E = 1. -/
theorem complete_eq {s' : State} {i : Instr} {c : Ctx} {G' : Gang} (hG : s'.gang? c.u c.g = some G')
    (hc : ∀ S, G'.sheaf = some S → S.commit = none) (hy : ∀ k q, i = .yield k q → c.act = 0)
    (hm : c.h.e = true ∨ G'.members ≠ 0) :
    s'.complete i (countedCtx c) = after c (s'.modGang c.u c.g fun G => moved c (tagged i c G)) := by
  have hG2 : ((s'.modGang c.u c.g (tagged i c)).move (countedCtx c)).gang? c.u c.g
      = some { (tagged i c G').modLanes c.run fun l t =>
          { t with watchPass := t.watchPass && ((counted c c.G).lane l).handler && !t.handler } with
        sheaf := G'.sheaf.map fun S => { S with pc := c.after, pos := S.pos + c.n } } := by
    unfold State.move
    simp only [countedCtx, gang?_modGang, hG, Option.map_some]
    rfl
  have ht : ((s'.modGang c.u c.g (tagged i c)).move (countedCtx c)).countWords c.u c.g c.n
      = s'.modGang c.u c.g fun G => moved c (tagged i c G) := by
    unfold State.move State.countWords
    simp only [countedCtx, modGang_modGang]
    rfl
  have hy' : (match i with | .yield _ _ => decide (c.act ≠ 0) | _ => false) = false := by
    split
    · rename_i k q
      simp [hy k q rfl]
    · rfl
  have hmem := moved_members i c G'
  unfold State.complete
  show (let s := (s'.modGang c.u c.g (tagged i c)).move (countedCtx c)
    let G := (s.gang? c.u c.g).getD (counted c c.G)
    let waits := match G.sheaf with | some S => S.commit.isSome | none => false
    let s := if waits then s else s.countWords c.u c.g c.n
    if waits then { s with cur := none }
    else if c.h.e || decide (G.members = 0) then s.endRun c.u c.g (match i with | .yield _ _ => decide (c.act ≠ 0) | _ => false)
    else { s with cur := none }) = _
  simp only [hG2, hy', Option.getD_some]
  have hend : ∀ G : Gang, G.members = G'.members → (c.h.e || decide (G.members = 0)) = c.h.e := by
    intro G hg
    rw [hg]
    rcases hm with h1 | h1
    · simp [h1]
    · rw [decide_eq_false h1, Bool.or_false]
  have hmm : ({ (tagged i c G').modLanes c.run fun l t =>
          { t with watchPass := t.watchPass && ((counted c c.G).lane l).handler && !t.handler } with
        sheaf := G'.sheaf.map fun S => { S with pc := c.after, pos := S.pos + c.n } } : Gang).members = G'.members := hmem
  rw [hend _ hmm]
  unfold after
  cases hS : G'.sheaf with
  | none => simp only [Option.map_none, Bool.false_eq_true, if_false, ht]
  | some S => simp only [Option.map_some, hc S hS, Option.isSome_none, Bool.false_eq_true, if_false, ht]

/-- A ready instruction whose effect leads to the state s' goes on from there. -/
theorem done_ready {i h g s c} (hr : Ready i h g s c) {body : Ctx → State → Eff} {s' : State} {G' : Gang}
    (hb : body (countedCtx c) (s.modGang c.u c.g (counted c)) = .done s') (hG : s'.gang? c.u c.g = some G')
    (hc : ∀ S, G'.sheaf = some S → S.commit = none) (hy : ∀ k q, i = .yield k q → c.act = 0)
    (hm : c.h.e = true ∨ G'.members ≠ 0) :
    issue i h g body s = .next (after c (s'.modGang c.u c.g fun G => moved c (tagged i c G))) := by
  rw [issue_ready hr, hb, settle_done (c := countedCtx c) hr.notWithheld, complete_eq hG hc hy hm]

/-! ### Effects on the gang alone -/

/-- The gang that issues, and its sheaf. -/
theorem ready_sheaf {i h g s c} (hr : Ready i h g s c) : s.gang? c.u c.g = some c.G ∧
    ∀ S, c.G.sheaf = some S → S.commit = none := by
  obtain ⟨hu, hg, -, -, -, -, hG, -⟩ := ctx_spec hr.context
  rw [← hu, ← hg] at hG
  refine ⟨by simpa [hu, hg] using hG, fun S hS => ?_⟩
  have hi := hr.issues
  unfold State.focus at hi
  cases hcur : s.cur with
  | none => simp [hcur] at hi
  | some x =>
    obtain ⟨u, g'⟩ := x
    simp only [hcur] at hi
    cases hg2 : s.gang? u g' with
    | none => simp [hg2] at hi
    | some G2 =>
      simp only [hg2] at hi
      cases hS2 : G2.sheaf with
      | none => simp [hS2] at hi
      | some S2 =>
        simp only [hS2] at hi
        by_cases hc : S2.commit.isSome
        · simp [hc] at hi
        · simp [hc] at hi
          obtain ⟨rfl, rfl⟩ := hi
          have : G2 = c.G := by
            have h3 : s.gang? c.u c.g = some c.G := by simpa [hu, hg] using hG
            rw [hg2] at h3
            exact Option.some.inj h3
          subst this
          rw [hS] at hS2
          cases hS2
          simpa using hc

/-- The sheaf of an instruction that is ready has members. -/
theorem ready_members {i h g s c} (hr : Ready i h g s c) : c.G.members ≠ 0 := by
  obtain ⟨-, -, -, -, -, -, -, hrun, -⟩ := ctx_spec hr.context
  exact members_of_run hrun hr.runs

/-- The lanes of a gang after an instruction that changes lanes of a mask. -/
def laneAfter (c : Ctx) (m : BitVec 32) (f : Ctx → Nat → Lane → Lane) (l : Nat) : Lane :=
  if m.getLsbD l then f (countedCtx c) l ((counted c c.G).lane l) else (counted c c.G).lane l

/-- The region bookkeeping of a counted lane. -/
theorem counted_same (c : Ctx) (l : Nat) (hl : l < 32) : SameButRegion (c.G.lane l) ((counted c c.G).lane l) := by
  rw [counted_lane c l hl]
  split
  · exact modRegion_same _ _
  · exact .refl _

theorem tagged_lane (i : Instr) (c : Ctx) (G : Gang) (l : Nat) (hl : l < 32) :
    SameButRegion (G.lane l) ((tagged i c G).lane l) := by
  unfold tagged
  rw [modLanes_lane _ _ _ _ hl]
  split
  · exact tagEffect_same ..
  · exact .refl _

/-- The lane at the end: the same but for its region and its watch pass. -/
theorem moved_lane (i : Instr) (c : Ctx) (G : Gang) (l : Nat) (hl : l < 32)
    (hh : (G.lane l).handler = (c.G.lane l).handler) (hw : (G.lane l).watchPass = (c.G.lane l).watchPass) :
    ∃ r, (moved c (tagged i c G)).lane l
        = { G.lane l with region := r, watchPass := (c.G.lane l).watchPass && !c.run.getLsbD l } ∧
      r.isSome = (G.lane l).region.isSome := by
  have hlane : (moved c (tagged i c G)).lane l = if c.run.getLsbD l then
      { (tagged i c G).lane l with watchPass := ((tagged i c G).lane l).watchPass &&
        ((counted c c.G).lane l).handler && !((tagged i c G).lane l).handler }
      else (tagged i c G).lane l := modLanes_lane _ _ _ l hl
  have h1 := tagged_lane i c G l hl
  have hch : ((counted c c.G).lane l).handler = (c.G.lane l).handler := by rw [(counted_same c l hl).1]
  rw [hlane, hch]
  generalize (tagged i c G).lane l = T at h1 ⊢
  generalize G.lane l = t at h1 hh hw ⊢
  obtain ⟨h1, h3⟩ := h1
  refine ⟨T.region, ?_, h3⟩
  generalize hr : T.region = r at h1
  subst h1
  simp only [hh, hw]
  rw [← hh]
  cases c.run.getLsbD l
  · cases t; simp_all
  · cases t; simp_all

theorem tagged_kept (i : Instr) (c : Ctx) (G : Gang) : tagged i c G = { G with lanes := (tagged i c G).lanes } := rfl

theorem moved_kept (c : Ctx) (G : Gang) : moved c G = { G with
    lanes := (moved c G).lanes
    sheaf := G.sheaf.map fun S => { S with pc := c.after, pos := S.pos + c.n }
    chunk := G.chunk.map fun k => { k with count := k.count + c.n } } := rfl

/-- A gang whose instruction has changed lanes alone, at the end. -/
theorem moved_tagged (i : Instr) (c : Ctx) (G : Gang) : ∃ v, moved c (tagged i c G) = { G with
    lanes := v
    sheaf := G.sheaf.map fun S => { S with pc := c.after, pos := S.pos + c.n }
    chunk := G.chunk.map fun k => { k with count := k.count + c.n } } := by
  refine ⟨(moved c (tagged i c G)).lanes, ?_⟩
  rw [moved_kept]
  generalize (moved c (tagged i c G)).lanes = v
  rw [tagged_kept]

/-- And the gang is as before but for lanes, run and chunk. -/
theorem lanes_kept (i : Instr) (c : Ctx) (m : BitVec 32) (f : Nat → Lane → Lane) :
    let G' := moved c (tagged i c ((counted c c.G).modLanes m f))
    Moved c G' ∧ GangKept c G' := by
  obtain ⟨v, hv⟩ := moved_tagged i c ((counted c c.G).modLanes m f)
  dsimp only
  rw [hv]
  exact ⟨⟨rfl, rfl⟩, rfl⟩

/-- A lane that an instruction has changed in registers, predicates and region contents alone. -/
theorem laneAfter_kept (c : Ctx) (m : BitVec 32) (f : Ctx → Nat → Lane → Lane)
    (hf : ∀ l t, let t' := f (countedCtx c) l t
      t' = { t with v := t'.v, p := t'.p, region := t'.region } ∧ t'.region.isSome = t.region.isSome) (l : Nat) (hl : l < 32) :
    ∃ r, ((counted c c.G).modLanes m (f (countedCtx c))).lane l
        = { c.G.lane l with v := (laneAfter c m f l).v, p := (laneAfter c m f l).p, region := r } ∧
          r.isSome = (c.G.lane l).region.isSome := by
  rw [modLanes_lane _ _ _ _ hl]
  unfold laneAfter
  have hco := counted_same c l hl
  have hfl := hf l ((counted c c.G).lane l)
  dsimp only at hfl
  generalize (counted c c.G).lane l = T at hco hfl ⊢
  generalize f (countedCtx c) l T = T' at hfl ⊢
  generalize c.G.lane l = t at hco ⊢
  obtain ⟨h1, h2⟩ := hco
  obtain ⟨h3, h4⟩ := hfl
  cases m.getLsbD l
  · refine ⟨T.region, ?_, h2⟩
    generalize T.region = r at h1
    subst h1
    rfl
  · refine ⟨T'.region, ?_, h4.trans h2⟩
    generalize T.region = r at h1
    subst h1
    exact h3

/-- The instruction passes a deterministic quadrant on at the end of its run (R43). -/
def isYield (i : Instr) : Bool := match i with | .yield _ _ => true | _ => false

theorem not_yield {i : Instr} (hy : isYield i = false) (c : Ctx) (k q) (h : i = .yield k q) : c.act = 0 := by
  subst h
  cases hy

/-- An instruction that changes the registers and predicates of lanes of a mask, and the contents of their regions: what it
does to the gang and to each thread. -/
theorem lanes_ready {i h g s c} (hr : Ready i h g s c) {body : Ctx → State → Eff} {m : BitVec 32} {f : Ctx → Nat → Lane → Lane}
    (hb : body (countedCtx c) (s.modGang c.u c.g (counted c))
      = .done ((s.modGang c.u c.g (counted c)).modGang c.u c.g fun G => G.modLanes m (f (countedCtx c))))
    (hf : ∀ l t, let t' := f (countedCtx c) l t
      t' = { t with v := t'.v, p := t'.p, region := t'.region } ∧ t'.region.isSome = t.region.isSome)
    (hy : isYield i = false) :
    GangOnly (issue i h g body s) s c fun G' => GangKept c G' ∧ ∀ l < 32,
      (G'.lane l).v = (laneAfter c m f l).v ∧ (G'.lane l).p = (laneAfter c m f l).p := by
  obtain ⟨hG, hcm⟩ := ready_sheaf hr
  have hk := lanes_kept i c m (f (countedCtx c))
  have hl' : ∀ l < 32, ∃ r, (moved c (tagged i c ((counted c c.G).modLanes m (f (countedCtx c))))).lane l
      = { c.G.lane l with
          v := (laneAfter c m f l).v
          p := (laneAfter c m f l).p
          region := r
          watchPass := (c.G.lane l).watchPass && !c.run.getLsbD l } ∧
      r.isSome = (c.G.lane l).region.isSome := fun l hl => by
    obtain ⟨r, hst, hrs⟩ := laneAfter_kept c m f hf l hl
    obtain ⟨r', hm, hrs'⟩ := moved_lane i c ((counted c c.G).modLanes m (f (countedCtx c))) l hl (by rw [hst]) (by rw [hst])
    rw [hst] at hm hrs'
    exact ⟨r', hm, hrs'.trans hrs⟩
  have ho : issue i h g body s = .next (after c (s.modGang c.u c.g fun G =>
      moved c (tagged i c ((counted c G).modLanes m (f (countedCtx c)))))) := by
    have hmem : ((counted c c.G).modLanes m (f (countedCtx c))).members ≠ 0 := by
      rw [modLanes_members _ _ _ fun l _ => by rw [(hf l _).1], counted_members]
      exact ready_members hr
    rw [done_ready hr hb (G' := (counted c c.G).modLanes m (f (countedCtx c))) (by simp [hG]) hcm (not_yield hy c) (.inr hmem)]
    simp only [modGang_modGang]
  refine ⟨_, ho, hk.1, fun l hl => ?_, hk.2, fun l hl => ?_⟩
  · obtain ⟨r, hm, hrs⟩ := hl' l hl
    unfold KeptLane
    simp only [hm]
    exact ⟨trivial, hrs, trivial⟩
  · obtain ⟨r, hm, hrs⟩ := hl' l hl
    simp only [hm, and_self]

/-- An instruction that changes its gang alone, by a function. -/
theorem gang_ready {i h g s c} (hr : Ready i h g s c) {body : Ctx → State → Eff} {F : Gang → Gang}
    (hb : body (countedCtx c) (s.modGang c.u c.g (counted c)) = .done ((s.modGang c.u c.g (counted c)).modGang c.u c.g F))
    (hc : ∀ S, (F (counted c c.G)).sheaf = some S → S.commit = none) (hy : ∀ k q, i = .yield k q → c.act = 0)
    (hm : c.h.e = true ∨ (F (counted c c.G)).members ≠ 0) :
    issue i h g body s = .next (after c (s.modGang c.u c.g fun G => moved c (tagged i c (F (counted c G))))) := by
  obtain ⟨hG, -⟩ := ready_sheaf hr
  rw [done_ready hr hb (G' := F (counted c c.G)) (by simp [hG]) hc hy hm]
  simp only [modGang_modGang]

/-! ### Registers -/

theorem vget_vset {α : Type} {n : Nat} (v : Vector α n) (i j : Nat) (x d : α) :
    vget (vset v i x) j d = if i = j ∧ i < n then x else vget v j d := by
  unfold vget vset
  by_cases hj : j < n
  · by_cases hij : i = j
    · subst hij
      simp [hj]
    · simp [hj, hij]
  · have : ¬(i = j ∧ i < n) := by omega
    simp [hj, this]

theorem setReg_reg (t : Lane) (d r : Nat) (x : Word) : (t.setReg d x).reg r = if d = r ∧ d < 112 then x else t.reg r :=
  vget_vset ..

theorem setPair_reg (t : Lane) (d r : Nat) (x : Dword) (hr : r < 112) : (t.setPair d x).reg r =
    if r = d then x.extractLsb' 0 32 else if r = d + 1 then x.extractLsb' 32 32 else t.reg r := by
  unfold Lane.setPair
  rw [setReg_reg, setReg_reg]
  by_cases h1 : r = d
  · subst h1
    simp [hr]
  · by_cases h2 : r = d + 1
    · subst h2
      simp [hr]
    · have h3 : ¬ (d + 1 = r) := by omega
      have h4 : ¬ (d = r) := by omega
      simp [h1, h2, h3, h4]

/-- A write to a predicate: p7 keeps its value (R65). -/
theorem setPred_pred (t : Lane) (d q : BitVec 3) (b : Bool) :
    (t.setPred d b).pred q = if q = d ∧ d ≠ 7 then b else t.pred q := by
  unfold Lane.setPred Lane.pred
  by_cases hd : d = 7
  · simp [hd]
  · by_cases hq : q = 7
    · subst hq
      have h1 : ¬ (7 = d) := fun h => hd h.symm
      simp only [hd, h1, if_true, if_false, false_and]
    · have hlt : q.toNat < 7 := by
        have h1 : q.toNat ≠ 7 := fun h => hq (BitVec.eq_of_toNat_eq h)
        have := q.isLt
        omega
      by_cases hqd : q = d
      · subst hqd
        simp only [hd, if_false, not_false_eq_true, and_self, if_true, ne_eq]
        cases b
        · simp only [Bool.false_eq_true, if_false, BitVec.getLsbD_and, BitVec.getLsbD_not, BitVec.getLsbD_twoPow, hlt]
          simp only [decide_true, Bool.and_self, Bool.not_true, Bool.and_false]
        · simp only [if_true, BitVec.getLsbD_or, BitVec.getLsbD_twoPow, hlt]
          simp only [decide_true, Bool.and_self, Bool.or_true]
      · have hne : ¬ (d.toNat = q.toNat) := fun h => hqd (BitVec.eq_of_toNat_eq h.symm)
        simp only [hd, hq, hqd, if_false, false_and]
        cases b
        · simp only [Bool.false_eq_true, if_false, BitVec.getLsbD_and, BitVec.getLsbD_not, BitVec.getLsbD_twoPow, hlt, hne]
          simp only [decide_true, decide_false, Bool.and_false, Bool.not_false, Bool.and_true]
        · simp only [if_true, BitVec.getLsbD_or, BitVec.getLsbD_twoPow, hne]
          simp only [decide_false, Bool.and_false, Bool.or_false]

/-! ### Reading a counted gang -/

/-- What a thread shows besides its region. -/
theorem counted_field {β : Type} (q : Lane → β) (hq : ∀ t r, q { t with region := r } = q t) (c : Ctx) (G : Gang) (l : Nat)
    (hl : l < 32) : q ((counted c G).lane l) = q (G.lane l) := by
  unfold counted
  rw [modLanes_lane _ _ _ _ hl]
  split
  · exact hq _ _
  · rfl

@[simp] theorem counted_reg (c : Ctx) (G : Gang) (l : Nat) (hl : l < 32) (n : Nat) :
    ((counted c G).lane l).reg n = (G.lane l).reg n := counted_field (·.reg n) (fun _ _ => rfl) c G l hl

@[simp] theorem counted_pair (c : Ctx) (G : Gang) (l : Nat) (hl : l < 32) (n : Nat) :
    ((counted c G).lane l).pair n = (G.lane l).pair n := counted_field (·.pair n) (fun _ _ => rfl) c G l hl

@[simp] theorem counted_pred (c : Ctx) (G : Gang) (l : Nat) (hl : l < 32) (n : BitVec 3) :
    ((counted c G).lane l).pred n = (G.lane l).pred n := counted_field (·.pred n) (fun _ _ => rfl) c G l hl

@[simp] theorem counted_sreg (c : Ctx) (G : Gang) (n : Nat) : (counted c G).sreg n = G.sreg n := rfl

@[simp] theorem counted_src (c : Ctx) (G : Gang) (b : BitVec 7) (l : Nat) (hl : l < 32) :
    (counted c G).src b l = G.src b l := by
  unfold Gang.src
  rw [counted_reg c G l hl, counted_sreg]

@[simp] theorem counted_src64 (c : Ctx) (G : Gang) (b : BitVec 7) (l : Nat) (hl : l < 32) :
    (counted c G).src64 b l = G.src64 b l := by
  unfold Gang.src64
  rw [counted_pair c G l hl, counted_sreg]

@[simp] theorem counted_guardMask (c : Ctx) (G : Gang) (p : BitVec 3) : (counted c G).guardMask p = G.guardMask p := by
  apply mask_ext
  intro l hl
  simp only [Gang.guardMask, maskOf_lane _ l hl, counted_pred c G l hl]

@[simp] theorem countedCtx_G (c : Ctx) : (countedCtx c).G = counted c c.G := rfl
@[simp] theorem countedCtx_act (c : Ctx) : (countedCtx c).act = c.act := rfl
@[simp] theorem countedCtx_run (c : Ctx) : (countedCtx c).run = c.run := rfl
@[simp] theorem countedCtx_u (c : Ctx) : (countedCtx c).u = c.u := rfl
@[simp] theorem countedCtx_g (c : Ctx) : (countedCtx c).g = c.g := rfl

/-- Without a guard every running member is active (R159). -/
theorem act_always {i h s c} (hr : Ready i h 7 s c) : c.act = c.run := by
  obtain ⟨-, -, -, -, -, -, -, -, hact, -⟩ := ctx_spec hr.context
  rw [hact]
  apply mask_ext
  intro l hl
  simp only [BitVec.getLsbD_and, Gang.guardMask, maskOf_lane _ l hl]
  simp [Lane.pred]

/-! ### Instructions that write a vector register, a pair, a predicate or a scalar register -/

/-- A vector register of the lanes of a mask. -/
theorem lanesWriteVector {i h g s c} (hr : Ready i h g s c) {body : Ctx → State → Eff} {m : BitVec 32} {d : BitVec 7}
    {w : Ctx → Nat → Lane → Word} {val : Nat → Word}
    (hb : body (countedCtx c) (s.modGang c.u c.g (counted c)) = .done ((s.modGang c.u c.g (counted c)).modGang c.u c.g
      fun G => G.modLanes m fun l t => t.setReg d.toNat (w (countedCtx c) l t)))
    (hw : ∀ l < 32, m.getLsbD l = true → w (countedCtx c) l ((counted c c.G).lane l) = val l) (hy : isYield i = false) :
    GangOnly (issue i h g body s) s c fun G' => GangKept c G' ∧ PredsKept c G' ∧
      ∀ l < 32, ∀ r < 112, (G'.lane l).reg r = if m.getLsbD l ∧ r = d.toNat then val l else (c.G.lane l).reg r := by
  obtain ⟨F, ho, hm, hk, hg, hl⟩ := lanes_ready (f := fun c l t => t.setReg d.toNat (w c l t)) hr hb (fun _ _ => ⟨rfl, rfl⟩) hy
  refine ⟨F, ho, hm, hk, hg, fun l h32 => ?_, fun l h32 r hr' => ?_⟩
  · rw [(hl l h32).2]
    unfold laneAfter
    have hco := counted_field (·.p) (fun _ _ => rfl) c c.G l h32
    split
    · exact hco
    · exact hco
  · have h1 : ((F c.G).lane l).reg r = (laneAfter c m (fun c l t => t.setReg d.toNat (w c l t)) l).reg r := by
      unfold Lane.reg
      rw [(hl l h32).1]
    rw [h1]
    unfold laneAfter
    by_cases ha : m.getLsbD l
    · simp only [ha, if_true, setReg_reg, hw l h32 ha, counted_reg c c.G l h32, true_and]
      by_cases hrd : r = d.toNat
      · subst hrd
        simp [hr']
      · have : ¬ (d.toNat = r) := fun h => hrd h.symm
        simp [hrd, this]
    · simp [ha, counted_reg c c.G l h32]

/-- A pair of the lanes of a mask. -/
theorem lanesWritePair {i h g s c} (hr : Ready i h g s c) {body : Ctx → State → Eff} {m : BitVec 32} {d : BitVec 7}
    {w : Ctx → Nat → Lane → Dword} {val : Nat → Dword}
    (hb : body (countedCtx c) (s.modGang c.u c.g (counted c)) = .done ((s.modGang c.u c.g (counted c)).modGang c.u c.g
      fun G => G.modLanes m fun l t => t.setPair d.toNat (w (countedCtx c) l t)))
    (hw : ∀ l < 32, m.getLsbD l = true → w (countedCtx c) l ((counted c c.G).lane l) = val l) (hy : isYield i = false) :
    GangOnly (issue i h g body s) s c fun G' => GangKept c G' ∧ PredsKept c G' ∧
      ∀ l < 32, ∀ r < 112, (G'.lane l).reg r = if m.getLsbD l ∧ r = d.toNat then (val l).extractLsb' 0 32
        else if m.getLsbD l ∧ r = d.toNat + 1 then (val l).extractLsb' 32 32 else (c.G.lane l).reg r := by
  obtain ⟨F, ho, hm, hk, hg, hl⟩ := lanes_ready (f := fun c l t => t.setPair d.toNat (w c l t)) hr hb (fun _ _ => ⟨rfl, rfl⟩) hy
  refine ⟨F, ho, hm, hk, hg, fun l h32 => ?_, fun l h32 r hr' => ?_⟩
  · rw [(hl l h32).2]
    unfold laneAfter
    have hco := counted_field (·.p) (fun _ _ => rfl) c c.G l h32
    split
    · exact hco
    · exact hco
  · have h1 : ((F c.G).lane l).reg r = (laneAfter c m (fun c l t => t.setPair d.toNat (w c l t)) l).reg r := by
      unfold Lane.reg
      rw [(hl l h32).1]
    rw [h1]
    unfold laneAfter
    by_cases ha : m.getLsbD l
    · simp only [ha, if_true, setPair_reg _ _ _ _ hr', hw l h32 ha, counted_reg c c.G l h32, true_and]
    · simp [ha, counted_reg c c.G l h32]

/-- A predicate of the lanes of a mask; the contents of an open region may change with it. -/
theorem lanesWritePred {i h g s c} (hr : Ready i h g s c) {body : Ctx → State → Eff} {m : BitVec 32} {d : BitVec 3}
    {w : Ctx → Nat → Lane → Bool} {reg : Ctx → Nat → Lane → Lane} {val : Nat → Bool}
    (hb : body (countedCtx c) (s.modGang c.u c.g (counted c)) = .done ((s.modGang c.u c.g (counted c)).modGang c.u c.g
      fun G => G.modLanes m fun l t => (reg (countedCtx c) l t).setPred d (w (countedCtx c) l t)))
    (hreg : ∀ l t, SameButRegion t (reg (countedCtx c) l t))
    (hw : ∀ l < 32, m.getLsbD l = true → w (countedCtx c) l ((counted c c.G).lane l) = val l) (hy : isYield i = false) :
    GangOnly (issue i h g body s) s c fun G' => GangKept c G' ∧ VectorsKept c G' ∧ PredIs c G' m d val := by
  have hf : ∀ l t, let t' := (fun c l t => (reg c l t).setPred d (w c l t)) (countedCtx c) l t
      t' = { t with v := t'.v, p := t'.p, region := t'.region } ∧ t'.region.isSome = t.region.isSome := by
    intro l t
    have := hreg l t
    dsimp only
    generalize reg (countedCtx c) l t = T at this ⊢
    obtain ⟨h1, h2⟩ := this
    generalize hr : T.region = r at h1 h2
    subst h1
    unfold Lane.setPred
    split
    · exact ⟨rfl, h2⟩
    · exact ⟨rfl, h2⟩
  obtain ⟨F, ho, hm, hk, hg, hl⟩ := lanes_ready (f := fun c l t => (reg c l t).setPred d (w c l t)) hr hb hf hy
  refine ⟨F, ho, hm, hk, hg, fun l h32 => ?_, fun l h32 q => ?_⟩
  · rw [(hl l h32).1]
    unfold laneAfter
    have hco := counted_field (·.v) (fun _ _ => rfl) c c.G l h32
    split
    · rw [← hco]
      have := hreg l ((counted c c.G).lane l)
      dsimp only
      unfold Lane.setPred
      split
      · rw [this.1]
      · rw [this.1]
    · exact hco
  · have h1 : ((F c.G).lane l).pred q = (laneAfter c m (fun c l t => (reg c l t).setPred d (w c l t)) l).pred q := by
      unfold Lane.pred
      rw [(hl l h32).2]
    rw [h1]
    unfold laneAfter
    by_cases ha : m.getLsbD l
    · have hp : (reg (countedCtx c) l ((counted c c.G).lane l)).pred q = (c.G.lane l).pred q := by
        rw [(hreg l _).1]
        exact counted_pred c c.G l h32 q
      simp only [ha, if_true, setPred_pred, hw l h32 ha, hp, true_and]
    · simp [ha, counted_pred c c.G l h32]

/-- A scalar register. -/
theorem writesScalar_ready {i h g s c} (hr : Ready i h g s c) {body : Ctx → State → Eff} {d : BitVec 6}
    {w : Gang → Wide} {val : Wide}
    (hb : body (countedCtx c) (s.modGang c.u c.g (counted c))
      = .done ((s.modGang c.u c.g (counted c)).modGang c.u c.g fun G => G.setSreg d.toNat (w G)))
    (hw : w (counted c c.G) = val) (hy : isYield i = false) :
    WritesScalar (issue i h g body s) s c d val := by
  obtain ⟨hG, hcm⟩ := ready_sheaf hr
  have ho := gang_ready hr (F := fun G => G.setSreg d.toNat (w G)) hb hcm (not_yield hy c)
    (.inr (by show (counted c c.G).members ≠ 0; rw [counted_members]; exact ready_members hr))
  obtain ⟨v, hv⟩ := moved_tagged i c ((counted c c.G).setSreg d.toNat (w (counted c c.G)))
  have hlane : ∀ l < 32, ∃ r, (moved c (tagged i c ((counted c c.G).setSreg d.toNat (w (counted c c.G))))).lane l
      = { c.G.lane l with region := r, watchPass := (c.G.lane l).watchPass && !c.run.getLsbD l } ∧
      r.isSome = (c.G.lane l).region.isSome := fun l hl => by
    have hl0 : ((counted c c.G).setSreg d.toNat (w (counted c c.G))).lane l = (counted c c.G).lane l := rfl
    have hco := counted_same c l hl
    obtain ⟨r, hm, hrs⟩ := moved_lane i c ((counted c c.G).setSreg d.toNat (w (counted c c.G))) l hl
      (by rw [hl0, hco.1]) (by rw [hl0, hco.1])
    rw [hl0] at hm hrs
    refine ⟨r, ?_, hrs.trans hco.2⟩
    rw [hm, hco.1]
  refine ⟨_, ho, ?_, fun l hl => ?_, ?_, fun l hl => ?_, fun l hl => ?_, fun r hr' => ?_⟩
  · rw [hv]
    exact ⟨rfl, rfl⟩
  · obtain ⟨r, hm, hrs⟩ := hlane l hl
    unfold KeptLane
    simp only [hm]
    exact ⟨trivial, hrs, trivial⟩
  · rw [hv]
    rfl
  · obtain ⟨r, hm, -⟩ := hlane l hl
    rw [hm]
  · obtain ⟨r, hm, -⟩ := hlane l hl
    rw [hm]
  · rw [hv]
    show vget (vset c.G.s d.toNat (w (counted c c.G))) r 0 = _
    rw [vget_vset, hw]
    have hd := d.isLt
    by_cases h1 : r = d.toNat
    · subst h1
      simp [hr']
    · have : ¬ (d.toNat = r) := fun h => h1 h.symm
      simp [h1, this]
      rfl

/-! ### Traps -/

/-- The gang in which the threads of m take a trap. -/
def entered (c : Ctx) (m : BitVec 32) (t : Trap) (G : Gang) : Gang :=
  let G1 : Gang := { counted c G with
    sheaf := G.sheaf.map fun S => { S with fp := none }
    chunk := G.chunk.map fun k => { k with traps := k.traps ++ [(k.count, t.cause)] } }
  (G1.modLanes m fun l x => x.enter c.L.r.handler t.cause c.pc t.addr t.info
    (match ((counted c c.G).lane l).region with
      | some r => r.fallback
      | none => if !c.run.getLsbD l then ((counted c c.G).lane l).pc else if t.again then c.pc else c.after)).settle m

theorem logTrap_none {s : State} {u g cause : Nat} {G : Gang} (hG : s.gang? u g = some G) (hc : G.chunk = none) :
    s.logTrap u g cause = s.modGang u g fun G => { G with chunk := G.chunk.map fun k =>
      { k with traps := k.traps ++ [(k.count, cause)] } } := by
  unfold State.logTrap
  rw [hG]
  simp only [Option.bind_some, hc]
  cases s.replayChunk u g <;> rfl

/-- A cause that threads outside handlers and regions take (R325). -/
theorem deliver_ready {s : State} {u g cause detail : Nat} {B : Block} {L : Launch} {G : Gang} {m : BitVec 32}
    {tpc resume : Nat → Word} {addr info : Dword} (hB : s.block? u = some B) (hL : s.launchOf u = some L)
    (hG : s.gang? u g = some G) (hm : m ≠ 0) (hh : L.r.handler ≠ noHandler)
    (ho : ∀ l < 32, m.getLsbD l = true → (G.lane l).handler = false ∧ (G.lane l).region = none) (hc : G.chunk = none) :
    s.deliver u g m cause detail tpc resume addr info = s.modGang u g fun G' =>
      (({ G' with chunk := G'.chunk.map fun k => { k with traps := k.traps ++ [(k.count, cause)] } } : Gang).modLanes m
        fun l t => t.enter L.r.handler cause (tpc l) addr info
          (match (G.lane l).region with | some r => r.fallback | none => resume l)).settle m := by
  have hreg : m &&& G.inRegion = 0 := by
    apply mask_none
    intro l hl
    rw [BitVec.getLsbD_and, inRegion_lane _ l hl]
    by_cases h1 : m.getLsbD l
    · simp [(ho l hl h1).2]
    · simp [h1]
  have habort : ∀ k d, s.abortRegions u g m k d = s := by
    intro k d
    unfold State.abortRegions
    rw [hG]
    simp only [hreg, if_true]
  have hany : ((lanesOf m).any fun l => (G.lane l).handler) = false := by
    rw [List.any_eq_false]
    intro l hl
    rw [lanesOf_mem] at hl
    simp [(ho l hl.1 hl.2).1]
  unfold State.deliver
  simp only [hB, hL, hG, if_neg hm, habort, logTrap_none hG hc, hany, hh, decide_false, Bool.or_self, Bool.false_eq_true,
    if_false, modGang_modGang]
  first | done | rfl

/-- The gang when its run's pending FP exception has been left in FPSTAT. -/
def unpended (c : Ctx) : Gang := { counted c c.G with sheaf := (counted c c.G).sheaf.map fun S => { S with fp := none } }

theorem unpended_running (c : Ctx) : (unpended c).running = c.G.running := by
  rw [← counted_running c]
  unfold Gang.running
  show (match c.G.sheaf.map (fun S : Sheaf => { S with fp := none }) with
    | some s => s.members &&& ~~~ s.out &&& (counted c c.G).live | none => 0) = match c.G.sheaf with
    | some s => s.members &&& ~~~ s.out &&& (counted c c.G).live | none => 0
  cases c.G.sheaf <;> rfl

theorem unpended_members (c : Ctx) : (unpended c).members = c.members := by
  have h := counted_members c
  unfold Ctx.members
  rw [← h]
  unfold Gang.members
  show (match c.G.sheaf.map (fun S : Sheaf => { S with fp := none }) with
    | some s => s.members &&& (counted c c.G).live | none => 0) = match c.G.sheaf with
    | some s => s.members &&& (counted c c.G).live | none => 0
  cases c.G.sheaf <;> rfl

/-- What faultRun does when the threads of m can take the trap. -/
theorem faultRun_ready {i h g s c} (hr : Ready i h g s c) {m : BitVec 32} {t : Trap}
    (hm : t.lanes.getD c.members = m) (ht : TrapsTo c m) :
    (s.modGang c.u c.g (counted c)).faultRun (countedCtx c) t
      = (s.modGang c.u c.g fun G => moved c (entered c m t G)).endRun c.u c.g false := by
  obtain ⟨hu, hg, -, -, hB, hL, hG, hrun, -, -⟩ := ctx_spec hr.context
  obtain ⟨hG, -⟩ := ready_sheaf hr
  have hB : s.block? c.u = some c.B := by rw [hu]; exact hB
  have hL : s.launchOf c.u = some c.L := by rw [hu]; exact hL
  unfold State.faultRun
  simp only [countedCtx_u, countedCtx_g, modGang_modGang, gang?_modGang, hG, Option.map_some, Option.getD_some]
  have hrun2 : Gang.running { counted c c.G with sheaf := (counted c c.G).sheaf.map fun S => { S with fp := none } } = c.run :=
    (unpended_running c).trans hrun.symm
  have hmem2 : Gang.members { counted c c.G with sheaf := (counted c c.G).sheaf.map fun S => { S with fp := none } } = c.members :=
    unpended_members c
  have hlane2 : ∀ l, Gang.lane { counted c c.G with sheaf := (counted c c.G).sheaf.map fun S => { S with fp := none } } l
      = (counted c c.G).lane l := fun _ => rfl
  simp only [hrun2, hmem2, hm, hlane2]
  have hB2 : (s.modGang c.u c.g fun G => { counted c G with
      sheaf := (counted c G).sheaf.map fun S => { S with fp := none } }).block? c.u
      = some (c.B.modGang c.g fun G => { counted c G with
        sheaf := (counted c G).sheaf.map fun S => { S with fp := none } }) := by
    rw [block?_modGang, hB]
    rfl
  have ho : ∀ l < 32, m.getLsbD l = true → ((counted c c.G).lane l).handler = false ∧ ((counted c c.G).lane l).region = none := by
    intro l hl h1
    have h2 := ht.outside l hl h1
    rw [(counted_same c l hl).1]
    refine ⟨h2.1, ?_⟩
    have h3 := (counted_same c l hl).2
    rw [h2.2] at h3
    simpa using h3
  rw [deliver_ready hB2 (by rw [launchOf_modGang, hL]) (by rw [gang?_modGang, hG]; rfl) ht.some ht.handler
    (G := { counted c c.G with sheaf := (counted c c.G).sheaf.map fun S => { S with fp := none } }) ho ht.chunk]
  unfold State.advance State.move State.countWords
  simp only [countedCtx_u, countedCtx_g, modGang_modGang]
  rfl

/-- The gang after a trap, lane by lane. -/
theorem entered_lane {c : Ctx} {m : BitVec 32} {t : Trap} (ht : TrapsTo c m) (l : Nat) (hl : l < 32) :
    if m.getLsbD l then (moved c (entered c m t c.G)).lane l = { c.G.lane l with
        tcause := BitVec.ofNat 64 t.cause
        tpc := c.pc.setWidth 64
        taddr := t.addr
        tinfo := t.info
        handler := true
        resume := if c.run.getLsbD l then (if t.again then c.pc else c.after) else (c.G.lane l).pc
        pc := c.L.r.handler
        watchPass := (c.G.lane l).watchPass && !c.run.getLsbD l }
      else ∃ r, (moved c (entered c m t c.G)).lane l
        = { c.G.lane l with region := r, watchPass := (c.G.lane l).watchPass && !c.run.getLsbD l } ∧
        r.isSome = (c.G.lane l).region.isSome := by
  have hlane : (moved c (entered c m t c.G)).lane l = if c.run.getLsbD l then
      { (entered c m t c.G).lane l with watchPass := ((entered c m t c.G).lane l).watchPass &&
        ((counted c c.G).lane l).handler && !((entered c m t c.G).lane l).handler }
      else (entered c m t c.G).lane l := modLanes_lane _ _ _ l hl
  have hent : (entered c m t c.G).lane l = if m.getLsbD l then ((counted c c.G).lane l).enter c.L.r.handler t.cause c.pc t.addr t.info
      (match ((counted c c.G).lane l).region with
        | some r => r.fallback
        | none => if !c.run.getLsbD l then ((counted c c.G).lane l).pc else if t.again then c.pc else c.after)
      else (counted c c.G).lane l := modLanes_lane _ _ _ l hl
  have hco := counted_same c l hl
  rw [hlane, hent]
  generalize (counted c c.G).lane l = T at hco ⊢
  by_cases h1 : m.getLsbD l
  · have h2 := ht.outside l hl h1
    have hTr : T.region = none := by simpa [h2.2] using hco.2
    have hT : T = c.G.lane l := by rw [hco.1, hTr, ← h2.2]
    subst hT
    simp only [h1, if_true]
    rw [hTr]
    cases hrun : c.run.getLsbD l
    · simp [Lane.enter, h2.2]
    · simp [Lane.enter, h2.2]
  · simp only [h1, Bool.false_eq_true, if_false]
    refine ⟨T.region, ?_, hco.2⟩
    obtain ⟨h3, -⟩ := hco
    generalize T.region = r at h3
    subst h3
    cases hrun : c.run.getLsbD l
    · simp
    · cases (c.G.lane l).handler <;> simp

/-- A ready instruction that raises a cause which the threads of m can take. -/
theorem trap_ready {i h g s c} (hr : Ready i h g s c) {body : Ctx → State → Eff} {m : BitVec 32} {t : Trap}
    (hb : body (countedCtx c) (s.modGang c.u c.g (counted c)) = .trap t (s.modGang c.u c.g (counted c)))
    (hm : t.lanes.getD c.members = m) (ht : TrapsTo c m) :
    TakesTrap (issue i h g body s) s c m t.cause t.addr t.info (if t.again then c.pc else c.after) := by
  have ho : issue i h g body s = .next ((s.modGang c.u c.g fun G => moved c (entered c m t G)).endRun c.u c.g false) := by
    rw [issue_ready hr, hb]
    unfold State.settleEff
    have h1 : (countedCtx c).G.sheaf = c.G.sheaf := rfl
    have hf := faultRun_ready hr hm ht
    cases hw : i.withheld
    · simp only [Bool.and_false, Bool.false_and, Bool.false_eq_true, if_false, hf]
    · cases hS : c.G.sheaf with
      | none => simp only [h1, hS, Bool.false_and, Bool.false_eq_true, if_false, hf]
      | some S => simp only [h1, hS, hr.notWithheld hw S hS, Option.isSome_none, Bool.false_and, Bool.false_eq_true,
          if_false, hf]
  refine ⟨_, ho, ?_, ?_, ?_, fun l hl => ?_⟩
  · unfold GangKept
    rfl
  · show (c.G.chunk.map _).map _ = _
    rw [ht.chunk]
    rfl
  · show ((c.G.sheaf.map _).map _).map _ = _
    rw [Option.map_map, Option.map_map]
    rfl
  · have h1 := entered_lane (t := t) ht l hl
    by_cases h2 : m.getLsbD l
    · simp only [h2, if_true] at h1 ⊢
      exact h1
    · simp only [h2, Bool.false_eq_true, if_false] at h1 ⊢
      obtain ⟨r, h3, h4⟩ := h1
      unfold KeptLane
      simp only [h3]
      exact ⟨⟨trivial, h4, trivial⟩, trivial, trivial⟩

/-! ### Instructions that change their gang -/

/-- A lane that an instruction has left as the thread t, at the end. -/
theorem moved_laneIs {i : Instr} {c : Ctx} {G : Gang} {l : Nat} (hl : l < 32) {t : Lane}
    (h1 : ∃ r, G.lane l = { t with region := r } ∧ r.isSome = (c.G.lane l).region.isSome)
    (hh : t.handler = (c.G.lane l).handler) (hw : t.watchPass = (c.G.lane l).watchPass) :
    LaneIs c (moved c (tagged i c G)) l t := by
  obtain ⟨r, h1, h2⟩ := h1
  obtain ⟨r', h3, h4⟩ := moved_lane i c G l hl (by rw [h1]; exact hh) (by rw [h1]; exact hw)
  unfold LaneIs
  rw [h3, h1]
  refine ⟨rfl, ?_⟩
  rw [h1] at h4
  exact h4.trans h2

/-- An instruction that changes its gang by a function F, which lets the members of m leave the run. -/
theorem goesOn_ready {i h g s c} (hr : Ready i h g s c) {body : Ctx → State → Eff} {F : Gang → Gang} {m : BitVec 32}
    {P : Gang → Prop} {T : Nat → Lane}
    (hb : body (countedCtx c) (s.modGang c.u c.g (counted c)) = .done ((s.modGang c.u c.g (counted c)).modGang c.u c.g F))
    (hs : (F (counted c c.G)).sheaf = c.G.sheaf.map fun S => { S with out := S.out ||| m })
    (hk : (F (counted c c.G)).chunk = c.G.chunk)
    (hl : ∀ l < 32, (∃ r, (F (counted c c.G)).lane l = { T l with region := r } ∧ r.isSome = (c.G.lane l).region.isSome) ∧
      (T l).handler = (c.G.lane l).handler ∧ (T l).watchPass = (c.G.lane l).watchPass)
    (hy : ∀ k q, i = .yield k q → c.act = 0)
    (hm : c.h.e = true ∨ (F (counted c c.G)).members ≠ 0)
    (hP : ∀ G' : Gang, G' = { F (counted c c.G) with lanes := G'.lanes, sheaf := G'.sheaf, chunk := G'.chunk } →
      (∀ l < 32, LaneIs c G' l (T l)) → P G') :
    GangGoesOn (issue i h g body s) s c m P := by
  obtain ⟨-, hcm⟩ := ready_sheaf hr
  have hc : ∀ S, (F (counted c c.G)).sheaf = some S → S.commit = none := by
    intro S hS
    rw [hs] at hS
    cases hS0 : c.G.sheaf with
    | none => simp [hS0] at hS
    | some S0 =>
      simp only [hS0, Option.map_some, Option.some.injEq] at hS
      rw [← hS]
      exact hcm S0 hS0
  refine ⟨_, gang_ready hr hb hc hy hm, ?_, ?_, ?_⟩
  · show (F (counted c c.G)).sheaf.map _ = _
    rw [hs, Option.map_map]
    rfl
  · show (F (counted c c.G)).chunk.map _ = _
    rw [hk]
  · refine hP _ ?_ fun l h32 => moved_laneIs h32 (hl l h32).1 (hl l h32).2.1 (hl l h32).2.2
    obtain ⟨v, hv⟩ := moved_tagged i c (F (counted c c.G))
    rw [hv]

/-- A counted lane is the lane but for the bookkeeping of its region. -/
theorem counted_is (c : Ctx) (l : Nat) (hl : l < 32) : ∃ r, (counted c c.G).lane l = { c.G.lane l with region := r } ∧
    r.isSome = (c.G.lane l).region.isSome :=
  ⟨_, (counted_same c l hl).1, (counted_same c l hl).2⟩

end Sys2Proof.Laws
end

