-- ==== Sys2Proof/Certificates/Slice0/Obligations.lean ====
section
/-! DEFINITION. The statements for the provers: what the machine does, rule by rule. -/

section
open Sys2Proof Sys2Proof.Machine Sys2Proof.Safety

/-! ### Vector integer arithmetic -/

/-- R249, R250, R251: the 32-bit vector integer instructions write their result to the destination of every active lane and
change nothing else. R252: division rounds towards zero and the remainder has the sign of the dividend; a zero divisor of a
lane that is not active does not matter. -/
def Obligations.VectorIntegerResults : Prop :=
  (∀ (h : Hdr) (g : BitVec 3) (d a b : BitVec 7),
    VectorResult (.iadd h g d a b) h g d (fun c l => laneReg c a l + laneSrc c b l) ∧
    VectorResult (.isub h g d a b) h g d (fun c l => laneReg c a l - laneSrc c b l) ∧
    VectorResult (.imulLo h g d a b) h g d (fun c l => laneReg c a l * laneSrc c b l) ∧
    VectorResult (.imulhI32 h g d a b) h g d
      (fun c l => BitVec.ofInt 32 ((laneReg c a l).toInt * (laneSrc c b l).toInt / 2 ^ 32)) ∧
    VectorResult (.imulhN32 h g d a b) h g d
      (fun c l => BitVec.ofNat 32 ((laneReg c a l).toNat * (laneSrc c b l).toNat / 2 ^ 32)) ∧
    VectorResult (.imad h g d a b) h g d (fun c l => laneReg c a l * laneSrc c b l + laneSrc c (h.third d) l) ∧
    VectorResult (.iand h g d a b) h g d (fun c l => laneReg c a l &&& laneSrc c b l) ∧
    VectorResult (.ior h g d a b) h g d (fun c l => laneReg c a l ||| laneSrc c b l) ∧
    VectorResult (.ixor h g d a b) h g d (fun c l => laneReg c a l ^^^ laneSrc c b l) ∧
    VectorResult (.iminI32 h g d a b) h g d
      (fun c l => if (laneSrc c b l).toInt < (laneReg c a l).toInt then laneSrc c b l else laneReg c a l) ∧
    VectorResult (.imaxI32 h g d a b) h g d
      (fun c l => if (laneSrc c b l).toInt < (laneReg c a l).toInt then laneReg c a l else laneSrc c b l) ∧
    VectorResult (.iminN32 h g d a b) h g d
      (fun c l => if (laneSrc c b l).toNat < (laneReg c a l).toNat then laneSrc c b l else laneReg c a l) ∧
    VectorResult (.imaxN32 h g d a b) h g d
      (fun c l => if (laneSrc c b l).toNat < (laneReg c a l).toNat then laneReg c a l else laneSrc c b l) ∧
    (∀ i : BitVec 7, VectorResult (.iaddi h g d a i) h g d (fun c l => laneReg c a l + BitVec.ofInt 32 (h.immOf i true))) ∧
    (∀ p : BitVec 3, ∀ s c, Ready (.isel h p d a b) h 7 s c → WritesVector (exec (.isel h p d a b) s) s c d
      fun l => if (c.G.lane l).pred p then laneReg c a l else laneSrc c b l)) ∧
  (∀ (h : Hdr) (g : BitVec 3) (d a b : BitVec 7) (s : State) (c : Ctx),
    (∀ l < 32, c.act.getLsbD l = true → laneSrc c b l ≠ 0) →
    (Ready (.idivI32 h g d a b) h g s c → WritesVector (exec (.idivI32 h g d a b) s) s c d
      fun l => BitVec.ofInt 32 ((laneReg c a l).toInt.tdiv (laneSrc c b l).toInt)) ∧
    (Ready (.idivN32 h g d a b) h g s c → WritesVector (exec (.idivN32 h g d a b) s) s c d
      fun l => BitVec.ofNat 32 ((laneReg c a l).toNat / (laneSrc c b l).toNat)) ∧
    (Ready (.iremI32 h g d a b) h g s c → WritesVector (exec (.iremI32 h g d a b) s) s c d
      fun l => BitVec.ofInt 32 ((laneReg c a l).toInt - (laneReg c a l).toInt.tdiv (laneSrc c b l).toInt * (laneSrc c b l).toInt)) ∧
    (Ready (.iremN32 h g d a b) h g s c → WritesVector (exec (.iremN32 h g d a b) s) s c d
      fun l => BitVec.ofNat 32 ((laneReg c a l).toNat % (laneSrc c b l).toNat)))

/-- R249, R250: a shift count of 32 or more shifts every bit out; an arithmetic shift then leaves the sign. R249, R251: ibfe
and ibfi move the field of the control word's position and length, and ibit computes its function. -/
def Obligations.VectorBitResults : Prop :=
  (∀ (h : Hdr) (g : BitVec 3) (d a b : BitVec 7) (n : BitVec 5),
    VectorResult (.ishl h g d a b) h g d
      (fun c l => BitVec.ofNat 32 ((laneReg c a l).toNat * 2 ^ (laneSrc c b l).toNat)) ∧
    VectorResult (.ishrN h g d a b) h g d
      (fun c l => BitVec.ofNat 32 ((laneReg c a l).toNat / 2 ^ (laneSrc c b l).toNat)) ∧
    VectorResult (.ishrI h g d a b) h g d
      (fun c l => BitVec.ofInt 32 ((laneReg c a l).toInt / 2 ^ (laneSrc c b l).toNat)) ∧
    VectorResult (.ishli h g d a n) h g d (fun c l => BitVec.ofNat 32 ((laneReg c a l).toNat * 2 ^ n.toNat)) ∧
    VectorResult (.ishriN h g d a n) h g d (fun c l => BitVec.ofNat 32 ((laneReg c a l).toNat / 2 ^ n.toNat)) ∧
    VectorResult (.ishriI h g d a n) h g d (fun c l => BitVec.ofInt 32 ((laneReg c a l).toInt / 2 ^ n.toNat))) ∧
  (∀ (h : Hdr) (g : BitVec 3) (d a b f : BitVec 7),
    VectorResult (.ibfe h g d a b) h g d (fun c l => bitExtract (laneReg c a l) (laneSrc c b l)) ∧
    VectorResult (.ibfi h g d a b) h g d (fun c l => bitInsert (laneReg c a l) (laneSrc c b l) (laneSrc c (h.third d) l)) ∧
    VectorResult (.ibit h g d a f) h g d (fun c l => ibitOp f.toNat (laneReg c a l)))

/-- R249: ibfe and ibfi bit by bit: the field of length n = min(y[13:8], 32 - p) at p = y[4:0]; ibfe takes it to the low
end, extended by zeros or, with y[16] = 1, by its sign; ibfi puts the low bits of x there, the rest from z. R251: the
functions of ibit. -/
def Obligations.BitFunctionValues : Prop :=
  (∀ (x y z : Word) (k : Nat), k < 32 →
    let p := y.toNat % 32
    let n := min (y.toNat / 2 ^ 8 % 2 ^ 6) (32 - p)
    (bitExtract x y).getLsbD k = (if k < n then x.getLsbD (p + k) else y.getLsbD 16 && decide (0 < n) && x.getLsbD (p + n - 1)) ∧
    (bitInsert x y z).getLsbD k = (if p ≤ k ∧ k < p + n then x.getLsbD (k - p) else z.getLsbD k)) ∧
  (∀ x : Word,
    (ibitOp 0 x).toNat = ((List.range 32).filter fun k => x.getLsbD k).length ∧
    ((ibitOp 1 x).toNat ≤ 32 ∧ (∀ k < 32, 32 ≤ k + (ibitOp 1 x).toNat → x.getLsbD k = false) ∧
      ((ibitOp 1 x).toNat < 32 → x.getLsbD (31 - (ibitOp 1 x).toNat) = true)) ∧
    ((ibitOp 2 x).toNat ≤ 32 ∧ (∀ k < (ibitOp 2 x).toNat, x.getLsbD k = false) ∧
      ((ibitOp 2 x).toNat < 32 → x.getLsbD (ibitOp 2 x).toNat = true)) ∧
    (∀ k < 32, (ibitOp 3 x).getLsbD k = x.getLsbD (31 - k)) ∧
    (∀ k < 32, (ibitOp 4 x).getLsbD k = !x.getLsbD k) ∧
    ibitOp 5 x = BitVec.ofInt 32 (- x.toInt) ∧
    ibitOp 6 x = BitVec.ofNat 32 x.toInt.natAbs ∧
    ibitOp 7 x = x ∧
    (ibitOp 8 x).toInt = (x.extractLsb' 0 8).toInt ∧ (ibitOp 9 x).toInt = (x.extractLsb' 0 16).toInt ∧
    (ibitOp 10 x).toNat = x.toNat % 2 ^ 8 ∧ (ibitOp 11 x).toNat = x.toNat % 2 ^ 16)

/-- R249: the 64-bit instructions write the pair of their destination. R253: icmp writes the predicate for its condition. -/
def Obligations.PairAndCompareResults : Prop :=
  (∀ (h : Hdr) (g : BitVec 3) (d a b : BitVec 7),
    PairResult (.iadd64 h g d a b) h g d (fun c l => lanePair c a l + laneSrc64 c b l) ∧
    PairResult (.imadw h g d a b) h g d (fun c l =>
      laneSrc64 c (h.third d) l + BitVec.ofInt 64 ((laneReg c a l).toInt * (laneSrc c b l).toInt))) ∧
  (∀ (h : Hdr) (g p : BitVec 3) (k : BitVec 4) (a b : BitVec 7),
    PredResult (.icmp h g p k a b) h g p fun c l =>
      match k.toNat with
      | 0 => decide (laneReg c a l = laneSrc c b l)
      | 1 => decide (laneReg c a l ≠ laneSrc c b l)
      | 2 => decide ((laneReg c a l).toInt < (laneSrc c b l).toInt)
      | 3 => decide ((laneReg c a l).toInt ≤ (laneSrc c b l).toInt)
      | 4 => decide ((laneReg c a l).toInt > (laneSrc c b l).toInt)
      | 5 => decide ((laneReg c a l).toInt ≥ (laneSrc c b l).toInt)
      | 6 => decide ((laneReg c a l).toNat < (laneSrc c b l).toNat)
      | 7 => decide ((laneReg c a l).toNat ≤ (laneSrc c b l).toNat)
      | 8 => decide ((laneReg c a l).toNat > (laneSrc c b l).toNat)
      | 9 => decide ((laneReg c a l).toNat ≥ (laneSrc c b l).toNat)
      | _ => false)

/-! ### Scalar instructions, predicates, special registers -/

/-- R198, R199: the scalar instructions write their destination; a 64-bit result clears bits 71:64 (R63), the a forms and
smov keep 72 bits. R192, R200: the predicate instructions write their predicate in every active lane, scmp in every running
member; a write to p7 is discarded (R65). R192, R206, R49: what the instructions that gather the gang into a scalar register
write there. -/
def Obligations.ScalarRegisterResults : Prop :=
  (∀ (h : Hdr) (d a b n : BitVec 6) (i : BitVec 12) (k : BitVec 18),
    ScalarResult (.sadd h d a b) h 7 d (fun c => wide (scalar64 c a + scalar64 c b)) ∧
    ScalarResult (.ssub h d a b) h 7 d (fun c => wide (scalar64 c a - scalar64 c b)) ∧
    ScalarResult (.smul h d a b) h 7 d (fun c => wide (scalar64 c a * scalar64 c b)) ∧
    ScalarResult (.smulhN h d a b) h 7 d
      (fun c => wide (BitVec.ofNat 64 ((scalar64 c a).toNat * (scalar64 c b).toNat / 2 ^ 64))) ∧
    ScalarResult (.smulhI h d a b) h 7 d
      (fun c => wide (BitVec.ofInt 64 ((scalar64 c a).toInt * (scalar64 c b).toInt / 2 ^ 64))) ∧
    ScalarResult (.sand h d a b) h 7 d (fun c => wide (scalar64 c a &&& scalar64 c b)) ∧
    ScalarResult (.sor h d a b) h 7 d (fun c => wide (scalar64 c a ||| scalar64 c b)) ∧
    ScalarResult (.sxor h d a b) h 7 d (fun c => wide (scalar64 c a ^^^ scalar64 c b)) ∧
    ScalarResult (.sandn h d a b) h 7 d (fun c => wide (scalar64 c a &&& ~~~scalar64 c b)) ∧
    ScalarResult (.sshl h d a b) h 7 d (fun c => wide (BitVec.ofNat 64 ((scalar64 c a).toNat * 2 ^ (scalar64 c b).toNat))) ∧
    ScalarResult (.sshrN h d a b) h 7 d (fun c => wide (BitVec.ofNat 64 ((scalar64 c a).toNat / 2 ^ (scalar64 c b).toNat))) ∧
    ScalarResult (.sshrI h d a b) h 7 d (fun c => wide (BitVec.ofInt 64 ((scalar64 c a).toInt / 2 ^ (scalar64 c b).toNat))) ∧
    ScalarResult (.sminI h d a b) h 7 d
      (fun c => wide (if (scalar64 c b).toInt < (scalar64 c a).toInt then scalar64 c b else scalar64 c a)) ∧
    ScalarResult (.smaxI h d a b) h 7 d
      (fun c => wide (if (scalar64 c b).toInt < (scalar64 c a).toInt then scalar64 c a else scalar64 c b)) ∧
    ScalarResult (.sminN h d a b) h 7 d
      (fun c => wide (if (scalar64 c b).toNat < (scalar64 c a).toNat then scalar64 c b else scalar64 c a)) ∧
    ScalarResult (.smaxN h d a b) h 7 d
      (fun c => wide (if (scalar64 c b).toNat < (scalar64 c a).toNat then scalar64 c a else scalar64 c b)) ∧
    ScalarResult (.sadda h d a b) h 7 d (fun c => c.G.sreg a.toNat + (scalar64 c b).signExtend 72) ∧
    ScalarResult (.smov h d a) h 7 d (fun c => c.G.sreg a.toNat) ∧
    ScalarResult (.spopc h d a) h 7 d
      (fun c => BitVec.ofNat 72 ((List.range 64).filter fun j => (scalar64 c a).getLsbD j).length) ∧
    ScalarResult (.saddi h d a i) h 7 d (fun c => wide (scalar64 c a + BitVec.ofInt 64 (h.immOf i true))) ∧
    ScalarResult (.sshli h d a n) h 7 d (fun c => wide (BitVec.ofNat 64 ((scalar64 c a).toNat * 2 ^ n.toNat))) ∧
    ScalarResult (.sli h d k) h 7 d (fun _ => wide (BitVec.ofInt 64 (h.immOf k true))) ∧
    ScalarResult (.saddai h d a i) h 7 d (fun c => c.G.sreg a.toNat + BitVec.ofInt 72 (h.immOf i true))) ∧
  (∀ (h : Hdr) (g d a b : BitVec 3) (v : BitVec 7) (x y k : BitVec 6),
    PredResult (.pand h g d a b) h g d (fun c l => (c.G.lane l).pred a && (c.G.lane l).pred b) ∧
    PredResult (.por h g d a b) h g d (fun c l => (c.G.lane l).pred a || (c.G.lane l).pred b) ∧
    PredResult (.pxor h g d a b) h g d (fun c l => xor ((c.G.lane l).pred a) ((c.G.lane l).pred b)) ∧
    PredResult (.pandn h g d a b) h g d (fun c l => (c.G.lane l).pred a && !(c.G.lane l).pred b) ∧
    PredResult (.pnot h g d a) h g d (fun c l => !(c.G.lane l).pred a) ∧
    PredResult (.pmov h g d v) h g d (fun c l => laneReg c v l != 0) ∧
    PredResult (.elect h g d) h g d (fun c l => decide (∀ m < l, c.act.getLsbD m = false)) ∧
    (∀ s c, Ready (.scmp h d x y k) h 7 s c → WritesPred (exec (.scmp h d x y k) s) s c c.run d fun _ =>
      match k.toNat with
      | 0 => decide (scalar64 c x = scalar64 c y)
      | 1 => decide (scalar64 c x ≠ scalar64 c y)
      | 2 => decide ((scalar64 c x).toInt < (scalar64 c y).toInt)
      | 3 => decide ((scalar64 c x).toInt ≤ (scalar64 c y).toInt)
      | 4 => decide ((scalar64 c x).toInt > (scalar64 c y).toInt)
      | 5 => decide ((scalar64 c x).toInt ≥ (scalar64 c y).toInt)
      | 6 => decide ((scalar64 c x).toNat < (scalar64 c y).toNat)
      | 7 => decide ((scalar64 c x).toNat ≤ (scalar64 c y).toNat)
      | 8 => decide ((scalar64 c x).toNat > (scalar64 c y).toNat)
      | 9 => decide ((scalar64 c x).toNat ≥ (scalar64 c y).toNat)
      | _ => false)) ∧
  (∀ (h : Hdr) (g p : BitVec 3) (d : BitVec 6) (j : BitVec 4) (a : BitVec 7),
    ScalarResult (.pget h g d p) h g d
      (fun c => (maskOf fun l => c.act.getLsbD l && (c.G.lane l).pred p).setWidth 72) ∧
    ScalarResult (.jmask h j d) h 7 d (fun c => (c.G.m j.toNat).setWidth 72) ∧
    ScalarResult (.jarr h j d) h 7 d (fun c => (c.G.a j.toNat).setWidth 72) ∧
    ∀ s c l, Ready (.sfirst h d a) h 7 s c → l < 32 → (c.G.lane l).live = true → (∀ m < l, (c.G.lane m).live = false) →
      WritesScalar (exec (.sfirst h d a) s) s c d ((laneReg c a l).setWidth 72))

/-- R67, R195: the special registers read what the state says, sset writes FPSTAT alone. R196: outside record and replay,
clk reads device time. The model's own readings are in log 6. -/
def Obligations.SpecialRegisterResults : Prop :=
  (∀ (h : Hdr) (g : BitVec 3) (d : BitVec 6) (v : BitVec 7) (n : BitVec 6),
    let special := fun (c : Ctx) => match n.toNat with
      | 0x20 => BitVec.ofNat 32 c.g
      | 0x21 => BitVec.ofNat 32 c.G.role
      | 0x22 => BitVec.ofNat 32 c.G.vb
      | 0x23 => BitVec.ofNat 32 c.G.sb
      | 0x24 => c.G.live
      | 0x25 => c.G.fpstat.setWidth 32
      | 0x26 => c.G.spfault
      | 0x27 => BitVec.ofNat 32 (c.B.lin % c.L.r.gridX)
      | 0x28 => BitVec.ofNat 32 (c.B.lin / c.L.r.gridX % c.L.r.gridY)
      | 0x29 => BitVec.ofNat 32 (c.B.lin / c.L.r.gridX / c.L.r.gridY)
      | 0x2A => BitVec.ofNat 32 c.B.lin
      | 0x2B => BitVec.ofNat 32 (c.B.lin / 2 ^ 32)
      | 0x2C => BitVec.ofNat 32 c.L.r.gridX
      | 0x2D => BitVec.ofNat 32 c.L.r.gridY
      | 0x2E => BitVec.ofNat 32 c.L.r.gridZ
      | 0x2F => BitVec.ofNat 32 c.L.r.gangs
      | 0x30 => BitVec.ofNat 32 (c.B.lin % 1024)
      | _ => 0
    let own := fun (c : Ctx) (l : Nat) => match n.toNat with
      | 0x00 => BitVec.ofNat 32 l
      | 0x01 => c.wpc
      | 0x02 => (c.G.lane l).lnk
      | 0x03 => (c.G.lane l).draw.extractLsb' 0 32
      | 0x04 => (c.G.lane l).draw.extractLsb' 32 32
      | 0x05 => BitVec.ofNat 32 ((c.B.lin * c.L.r.gangs + c.g) * 32 + l)
      | 0x06 => BitVec.ofNat 32 (((c.B.lin * c.L.r.gangs + c.g) * 32 + l) / 2 ^ 32)
      | 0x08 => (c.G.lane l).tcause.extractLsb' 0 32
      | 0x09 => (c.G.lane l).tpc.extractLsb' 0 32
      | 0x0A => (c.G.lane l).taddr.extractLsb' 0 32
      | 0x0B => (c.G.lane l).taddr.extractLsb' 32 32
      | 0x0C => (c.G.lane l).tinfo.extractLsb' 0 32
      | 0x0D => (c.G.lane l).tinfo.extractLsb' 32 32
      | _ => 0
    ScalarResult (.sget h d n) h 7 d (fun c => (special c).setWidth 72) ∧
    VectorResult (.vgetGang h v n) h 7 v (fun c _ => special c) ∧
    VectorResult (.vgetThread h g v n) h g v own ∧
    ∀ s c, Ready (.sset h d n) h 7 s c → GangOnly (exec (.sset h d n) s) s c fun G' => GangKeptButFlags c G' ∧
      VectorsKept c G' ∧ PredsKept c G' ∧ G'.fpstat = (c.G.sreg d.toNat).extractLsb' 0 5) ∧
  (∀ (h : Hdr) (d : BitVec 6) (v : BitVec 7) (s : State) (c : Ctx), c.G.chunk = none →
    (Ready (.clkScalar h d) h 7 s c → WritesScalar (exec (.clkScalar h d) s) s c d (BitVec.ofNat 72 (s.time % 2 ^ 64))) ∧
    (Ready (.clkVector h v) h 7 s c → WritesPair (exec (.clkVector h v) s) s c v fun _ => BitVec.ofNat 64 s.time))

/-! ### Control transfers, exits, handlers, rejoin sets, register growth -/

/-- R160, R181: the transfers send the active threads to their targets, which are also the fallbacks of rbegin; call and
callx write LNK. R184, R52, R53: exit ends the active threads, which must be members of no set; exit.q quits every set for
them first, and a set whose waiters are then all its members releases them. The gang has no queued event, and the launch no
barrier checker. R184, R43: nop changes nothing, and yield only marks the active threads and their gang, outside
deterministic launches, before its run ends. -/
def Obligations.TransferResults : Prop :=
  (∀ (h : Hdr) (g : BitVec 3) (o : BitVec 21) (t : BitVec 7) (s : State) (c : Ctx),
    (Ready (.bra h g o) h g s c →
      JumpsTo (exec (.bra h g o) s) s c false fun _ => BitVec.ofInt 32 (c.wpc.toNat + 4 * o.toInt)) ∧
    (Ready (.call h g o) h g s c →
      JumpsTo (exec (.call h g o) s) s c true fun _ => BitVec.ofInt 32 (c.wpc.toNat + 4 * o.toInt)) ∧
    (Ready (.ret h g) h g s c → JumpsTo (exec (.ret h g) s) s c false fun l => (c.G.lane l).lnk) ∧
    (Ready (.brx h g t) h g s c →
      JumpsTo (exec (.brx h g t) s) s c false fun l => BitVec.ofNat 32 ((laneReg c t l).toNat / 4 * 4)) ∧
    (Ready (.callx h g t) h g s c →
      JumpsTo (exec (.callx h g t) s) s c true fun l => BitVec.ofNat 32 ((laneReg c t l).toNat / 4 * 4)) ∧
    (Ready (.rbegin h g o) h g s c → GangGoesOn (exec (.rbegin h g o) s) s c 0 fun G' => ∀ l < 32, c.act.getLsbD l = true →
      (G'.lane l).region.map (·.fallback) = some (BitVec.ofInt 32 (c.wpc.toNat + 4 * o.toInt))) ∧
    (-(2 ^ 22) ≤ 4 * o.toInt ∧ 4 * o.toInt ≤ 2 ^ 22 - 4)) ∧
  (∀ (h : Hdr) (g : BitVec 3) (s : State) (c : Ctx),
    c.G.events = [] → c.L.r.debug = false →
    let leaves (G' : Gang) := G'.sheaf = c.G.sheaf.map (fun S => { S with pc := c.after, pos := S.pos + c.n, out := S.out ||| c.act })
    let m (j : Nat) := c.G.m j &&& ~~~c.act
    let a (j : Nat) := c.G.a j &&& ~~~c.act
    (Ready (.exit h g) h g s c → (∀ j < 16, c.G.m j &&& c.act = 0) →
      ∃ t G', exec (.exit h g) s = .next (after c t) ∧ BlockOnly c.u s t ∧ t.gang? c.u c.g = some G' ∧ GangKept c G' ∧ leaves G' ∧
        ∀ l < 32, LaneIs c G' l (if c.act.getLsbD l then { c.G.lane l with st := .exited } else c.G.lane l)) ∧
    (Ready (.exitQ h g) h g s c →
      ∃ t G', exec (.exitQ h g) s = .next (after c t) ∧ BlockOnly c.u s t ∧ t.gang? c.u c.g = some G' ∧ leaves G' ∧
        G' = { c.G with lanes := G'.lanes, sheaf := G'.sheaf, chunk := G'.chunk, jm := G'.jm, ja := G'.ja } ∧
        (∀ j < 16, G'.m j = m j ∧ G'.a j = if a j = m j then 0 else a j) ∧
        ∀ l < 32, LaneIs c G' l (if c.act.getLsbD l then { c.G.lane l with st := .exited }
          else if (List.range 16).any (fun j => (a j).getLsbD l && decide (a j = m j)) then { c.G.lane l with st := .eligible }
          else c.G.lane l))) ∧
  (∀ (h : Hdr) (g : BitVec 3) (s : State) (c : Ctx),
    (Ready (.nop h g) h g s c →
      GangOnly (exec (.nop h g) s) s c fun G' => GangKept c G' ∧ VectorsKept c G' ∧ PredsKept c G') ∧
    (Ready (.yield h g) h g s c → ∃ F : Gang → Gang,
      exec (.yield h g) s = .next ((s.modGang c.u c.g F).endRun c.u c.g (decide (c.act ≠ 0))) ∧ Moved c (F c.G) ∧
      (F c.G) = { c.G with
        lanes := (F c.G).lanes
        sheaf := (F c.G).sheaf
        chunk := (F c.G).chunk
        ymark := c.G.ymark || (!c.L.r.det && decide (c.act ≠ 0)) } ∧
      ∀ l < 32, LaneIs c (F c.G) l
        { c.G.lane l with ymark := (c.G.lane l).ymark || (!c.L.r.det && c.act.getLsbD l) }))

/-- R52, R186, R188, R252, R325: the traps that an instruction raises on its active threads, or on every member;
Orphaned-Set names the members among the active threads and their sets, and its TINFO is a free value (log 5). R187, R331:
tret returns the active threads, here all in handler state; a restored wait goes on unless its phase has passed, which a
recorded thread then reads. An active thread outside handler state takes Trap-Instruction (R188). -/
def Obligations.TrapAndReturnResults : Prop :=
  (∀ (h : Hdr) (g : BitVec 3) (k : BitVec 9) (d a b : BitVec 7) (s : State) (c : Ctx),
    (Ready (.bkpt h g k) h g s c → TrapsTo c c.act →
      TakesTrap (exec (.bkpt h g k) s) s c c.act 0x14 (k.setWidth 64) 0 c.after) ∧
    (Ready (.trap h g k) h g s c → TrapsTo c c.act →
      TakesTrap (exec (.trap h g k) s) s c c.act 0x15 (k.setWidth 64) 0 c.after) ∧
    (TrapsTo c c.members → ∀ l < 32, c.act.getLsbD l = true → laneSrc c b l = 0 →
      (∀ m < l, c.act.getLsbD m = true → laneSrc c b m ≠ 0) →
      let zeros : BitVec 32 := maskOf fun m => c.act.getLsbD m && decide (laneSrc c b m = 0)
      ∀ i ∈ [Instr.idivI32 h g d a b, .idivN32 h g d a b, .iremI32 h g d a b, .iremN32 h g d a b], Ready i h g s c →
        TakesTrap (exec i s) s c c.members 0x09 (zeros.setWidth 64) (BitVec.ofNat 64 l) c.after) ∧
    (Ready (.exit h g) h g s c → TrapsTo c c.members → (∃ j < 16, c.G.m j &&& c.act ≠ 0) →
      let lanes : BitVec 32 := maskOf fun l => c.act.getLsbD l && (List.range 16).any fun j => (c.G.m j).getLsbD l
      let sets : BitVec 32 := maskOf fun j => decide (j < 16 ∧ c.G.m j &&& c.act ≠ 0)
      TakesTrap (exec (.exit h g) s) s.takeFree c c.members 0x0B (lanes ++ sets) s.freeVal c.after)) ∧
  (∀ (h : Hdr) (g : BitVec 3) (s : State) (c : Ctx), Ready (.tret h g) h g s c →
    ((∀ l < 32, c.act.getLsbD l = true → (c.G.lane l).handler = true) →
      ∃ t G', exec (.tret h g) s = .next (after c t) ∧ BlockOnly c.u s t ∧ t.gang? c.u c.g = some G' ∧ GangKept c G' ∧
        G'.sheaf = c.G.sheaf.map (fun S => { S with pc := c.after, pos := S.pos + c.n, out := S.out ||| c.act }) ∧
        ∀ l < 32, if c.act.getLsbD l then G'.lane l = { c.G.lane l with
            pc := (c.G.lane l).resume
            handler := false
            tcause := 0
            tpc := 0
            taddr := 0
            tinfo := 0
            watchPass := true
            ranSinceTret := false
            restored := none
            woken := match (c.G.lane l).restored with
              | some (off, ph, _) => if c.G.chunk.isSome ∧ readLE c.B.spad (off + 12) 4 ≠ ph.toNat then some off else (c.G.lane l).woken
              | none => (c.G.lane l).woken
            st := match (c.G.lane l).restored with
              | some (off, ph, pc) => if readLE c.B.spad (off + 12) 4 = ph.toNat then .blocked (.bar off ph pc true) else .eligible
              | none => (c.G.lane l).st }
          else LaneIs c G' l (c.G.lane l)) ∧
    (TrapsTo c c.act → TakesTrap (exec (.tret h g) s) s c c.act 0x15 0 1 c.after))

/-- R49, R50: the rejoin instructions on set j. jwait, jclr and jload run where R50 allows them; elsewhere every member
takes Rejoin-Membership, whose TADDR names the lanes and the set and whose TINFO is a free value (log 5). R70, R193: reggrow
to at most the present budget changes nothing; to a larger legal one it blocks the gang's eligible threads until the request
is granted. -/
def Obligations.RejoinAndGrowthResults : Prop :=
  (∀ (h : Hdr) (j : BitVec 4) (r : BitVec 6) (s : State) (c : Ctx),
    let kept (G' : Gang) := G' = { c.G with lanes := G'.lanes, sheaf := G'.sheaf, chunk := G'.chunk, jm := G'.jm, ja := G'.ja } ∧
      ∀ k < 16, k ≠ j.toNat → G'.m k = c.G.m k ∧ G'.a k = c.G.a k
    let M := c.G.m j.toNat
    let A := c.G.a j.toNat
    (Ready (.jenter h j) h 7 s c → GangGoesOn (exec (.jenter h j) s) s c 0 fun G' => kept G' ∧
      G'.m j.toNat = M ||| c.run ∧ G'.a j.toNat = A ∧ ∀ l < 32, LaneIs c G' l (c.G.lane l)) ∧
    (Ready (.jquit h j) h 7 s c → GangGoesOn (exec (.jquit h j) s) s c 0 fun G' => kept G' ∧
      let m := M &&& ~~~c.run
      let a := A &&& ~~~c.run
      G'.m j.toNat = m ∧ G'.a j.toNat = (if a = m then 0 else a) ∧
      ∀ l < 32, LaneIs c G' l (if a = m ∧ a.getLsbD l then { c.G.lane l with st := .eligible } else c.G.lane l)) ∧
    (Ready (.jwait h j) h 7 s c → c.run &&& ~~~M = 0 → GangGoesOn (exec (.jwait h j) s) s c 0 fun G' => kept G' ∧
      let a := A ||| c.run
      G'.m j.toNat = M ∧ G'.a j.toNat = (if a = M then 0 else a) ∧
      ∀ l < 32, LaneIs c G' l
        (if a = M then (if a.getLsbD l then { c.G.lane l with st := .eligible } else c.G.lane l)
         else if c.run.getLsbD l then { c.G.lane l with st := .blocked (.jwait j.toNat c.wpc), waitCount := 0 }
         else c.G.lane l)) ∧
    (Ready (.jclr h j) h 7 s c → A = 0 → GangGoesOn (exec (.jclr h j) s) s c 0 fun G' => kept G' ∧
      G'.m j.toNat = 0 ∧ G'.a j.toNat = 0 ∧ ∀ l < 32, LaneIs c G' l (c.G.lane l)) ∧
    (Ready (.jload h j r) h 7 s c → A = 0 → GangGoesOn (exec (.jload h j r) s) s c 0 fun G' => kept G' ∧
      G'.m j.toNat = (c.G.sreg r.toNat).extractLsb' 0 32 &&& c.G.live ∧ G'.a j.toNat = 0 ∧
      ∀ l < 32, LaneIs c G' l (c.G.lane l)) ∧
    ScalarResult (.jmask h j r) h 7 r (fun c => (c.G.m j.toNat).setWidth 72) ∧
    ScalarResult (.jarr h j r) h 7 r (fun c => (c.G.a j.toNat).setWidth 72) ∧
    (TrapsTo c c.members →
      let raises (e : Instr) (lanes : BitVec 32) := Ready e h 7 s c →
        TakesTrap (exec e s) s.takeFree c c.members 0x0A (lanes ++ j.setWidth 32) s.freeVal c.after
      (c.run &&& ~~~M ≠ 0 → raises (.jwait h j) (c.run &&& ~~~M)) ∧
      (A ≠ 0 → raises (.jclr h j) c.run ∧ raises (.jload h j r) c.run))) ∧
  (∀ (h : Hdr) (n : BitVec 9) (s : State) (c : Ctx), Ready (.reggrow h n) h 7 s c →
    n.toNat % 8 = 0 → 16 ≤ n.toNat → n.toNat ≤ 112 →
    (n.toNat ≤ c.G.vb → GangOnly (exec (.reggrow h n) s) s c fun G' => GangKept c G' ∧ VectorsKept c G' ∧ PredsKept c G') ∧
    (c.G.vb < n.toNat → GangGoesOn (exec (.reggrow h n) s) s c 0 fun G' =>
      G' = { c.G with lanes := G'.lanes, sheaf := G'.sheaf, chunk := G'.chunk, grow := some (n.toNat, s.time) } ∧
      ∀ l < 32, LaneIs c G' l (if (c.G.lane l).eligible then { c.G.lane l with st := .blocked .reggrow, waitCount := 0 }
        else c.G.lane l)))

/-! ### Floating point -/

/-- R84, R86, R255: the scalar-format arithmetic rounds its exact result once, and raises the flags of the operation and of
the rounding. -/
def Obligations.FloatArithmeticResults : Prop := ∀ (h : Hdr) (g : BitVec 3) (d a b : BitVec 7),
  FloatResult (.faddF32 h g d a b) h g d (fun c l => rounded .f32 h (fAdd h.rnd (f32Reg h c a l) (f32Src h c b l))) ∧
  FloatResult (.fsubF32 h g d a b) h g d (fun c l => rounded .f32 h (fAdd h.rnd (f32Reg h c a l) (f32Src h c b l).negate)) ∧
  FloatResult (.fmulF32 h g d a b) h g d (fun c l => rounded .f32 h (fMul (f32Reg h c a l) (f32Src h c b l))) ∧
  FloatResult (.ffmaF32 h g d a b) h g d
    (fun c l => rounded .f32 h (fFma h.rnd (f32Reg h c a l) (f32Src h c b l) (f32Src h c (h.third d) l))) ∧
  FloatResult (.fdivF32 h g d a b) h g d (fun c l => rounded .f32 h (fDiv (f32Reg h c a l) (f32Src h c b l))) ∧
  DoubleResult (.faddF64 h g d a b) h g d (fun c l => rounded .f64 h (fAdd h.rnd (f64Reg h c a l) (f64Src h c b l))) ∧
  DoubleResult (.fsubF64 h g d a b) h g d
    (fun c l => rounded .f64 h (fAdd h.rnd (f64Reg h c a l) (f64Src h c b l).negate)) ∧
  DoubleResult (.fmulF64 h g d a b) h g d (fun c l => rounded .f64 h (fMul (f64Reg h c a l) (f64Src h c b l))) ∧
  DoubleResult (.ffmaF64 h g d a b) h g d
    (fun c l => rounded .f64 h (fFma h.rnd (f64Reg h c a l) (f64Src h c b l) (f64Src h c (h.third d) l))) ∧
  DoubleResult (.fdivF64 h g d a b) h g d (fun c l => rounded .f64 h (fDiv (f64Reg h c a l) (f64Src h c b l)))

/-- R256, R257, R258: minimum, maximum, comparison and the one-operand functions. The model's own readings are in log 10. -/
def Obligations.FloatFunctionResults : Prop := ∀ (h : Hdr) (g p : BitVec 3) (k : BitVec 4) (d a b f : BitVec 7),
  FloatResult (.fminF32 h g d a b) h g d
    (fun c l => fMinMax .f32 false h.ftz (laneReg c a l).toNat (laneSrc c b l).toNat) ∧
  FloatResult (.fmaxF32 h g d a b) h g d
    (fun c l => fMinMax .f32 true h.ftz (laneReg c a l).toNat (laneSrc c b l).toNat) ∧
  DoubleResult (.fminF64 h g d a b) h g d
    (fun c l => fMinMax .f64 false h.ftz (lanePair c a l).toNat (laneSrc64 c b l).toNat) ∧
  DoubleResult (.fmaxF64 h g d a b) h g d
    (fun c l => fMinMax .f64 true h.ftz (lanePair c a l).toNat (laneSrc64 c b l).toNat) ∧
  FloatCondition (.fcmpF32 h g p k a b) h g p (fun c l => fCompare k.toNat (f32Reg h c a l) (f32Src h c b l)) ∧
  FloatCondition (.fcmpF64 h g p k a b) h g p (fun c l => fCompare k.toNat (f64Reg h c a l) (f64Src h c b l)) ∧
  FloatResult (.ffunF32 h g d a f) h g d (fun c l =>
    let bits := Fmt.f32.flush h.ftz (laneReg c a l).toNat
    let x := Fmt.f32.value bits
    match f.toNat with
    | 0 => rounded .f32 h (fEx2 x)
    | 1 => rounded .f32 h (fLg2 x)
    | 2 => rounded .f32 h (fRcp x)
    | 3 => rounded .f32 h (fRsq x)
    | 4 => rounded .f32 h (fSqrt x)
    | 5 => fSign .f32 false bits
    | 6 => fSign .f32 true bits
    | _ => fRint .f32 h.rnd bits) ∧
  DoubleResult (.ffunF64 h g d a f) h g d (fun c l =>
    let bits := Fmt.f64.flush h.ftz (lanePair c a l).toNat
    let x := Fmt.f64.value bits
    match f.toNat with
    | 0 => rounded .f64 h (fEx2 x)
    | 1 => rounded .f64 h (fLg2 x)
    | 2 => rounded .f64 h (fRcp x)
    | 3 => rounded .f64 h (fRsq x)
    | 4 => rounded .f64 h (fSqrt x)
    | 5 => fSign .f64 false bits
    | 6 => fSign .f64 true bits
    | _ => fRint .f64 h.rnd bits)

/-- R259: the packed instructions compute each half on its own. R87, R260, R261, R262: a conversion reads the register, or
for F64 the pair, of its source format and writes the register or pair of its destination format. func7 = 10 * from + to in
the format order F64, F32, F16, BF16, F8A, F8B, I8, N8, I16, I32; cvtq and cvtd take the format, the rounding mode and .ftz
from a slot, and cvtd reads bit planes. The model's own readings are in log 46. -/
def Obligations.PackedAndConversionResults : Prop :=
  (∀ (h : Hdr) (g : BitVec 3) (d a b : BitVec 7),
    FloatResult (.faddF16x2 h g d a b) h g d
      (fun c l => packedRes .f16 h (laneReg c a l) (laneSrc c b l) 0 fun x y _ => fAdd h.rnd x y) ∧
    FloatResult (.fmulF16x2 h g d a b) h g d
      (fun c l => packedRes .f16 h (laneReg c a l) (laneSrc c b l) 0 fun x y _ => fMul x y) ∧
    FloatResult (.ffmaF16x2 h g d a b) h g d
      (fun c l => packedRes .f16 h (laneReg c a l) (laneSrc c b l) (laneSrc c (h.third d) l) (fFma h.rnd)) ∧
    FloatResult (.faddBf16x2 h g d a b) h g d
      (fun c l => packedRes .bf16 h (laneReg c a l) (laneSrc c b l) 0 fun x y _ => fAdd h.rnd x y) ∧
    FloatResult (.fmulBf16x2 h g d a b) h g d
      (fun c l => packedRes .bf16 h (laneReg c a l) (laneSrc c b l) 0 fun x y _ => fMul x y) ∧
    FloatResult (.ffmaBf16x2 h g d a b) h g d
      (fun c l => packedRes .bf16 h (laneReg c a l) (laneSrc c b l) (laneSrc c (h.third d) l) (fFma h.rnd))) ∧
  (∀ (h : Hdr) (g : BitVec 3) (d a f : BitVec 7) (x : BitVec 3),
    let code (k : Nat) : Nat := [1, 2, 3, 4, 5, 6, 8, 9, 10, 11].getD k 2
    let source (fmt : Nat) (c : Ctx) (l : Nat) : CvtSrc :=
      match fmtOf fmt with
      | some F => .flt F ((if fmt = 1 then (lanePair c a l).toNat else (laneReg c a l).toNat) % 2 ^ F.width)
      | none => .int (intValue (intFmtOf fmt).1 (intFmtOf fmt).2 (laneReg c a l).toNat)
    a.toNat < 112 → f.toNat < 100 →
    (f.toNat % 10 = 0 → DoubleResult (.cvt h g d a f) h g d fun c l => convert (source (code (f.toNat / 10)) c l) 1 h.rnd h.sat h.ftz) ∧
    (f.toNat % 10 ≠ 0 → FloatResult (.cvt h g d a f) h g d fun c l =>
      convert (source (code (f.toNat / 10)) c l) (code (f.toNat % 10)) h.rnd h.sat h.ftz) ∧
    ∀ s c D, c.L.r.slots.getD x.toNat none = some D →
      (Ready (.cvtq h g d a x) h g s c →
        let val l := convert (.flt .f32 (laneReg c a l).toNat) D.fmt D.rnd false D.ftz
        RaisesFlags (exec (.cvtq h g d a x) s) s c (fun l => (val l).2) fun G' => G'.s = c.G.s ∧ PredsKept c G' ∧
          if D.fmt = 1 then PairIs c G' d.toNat fun l => BitVec.ofNat 64 (val l).1
          else VectorIs c G' d.toNat fun l => BitVec.ofNat 32 (val l).1) ∧
      (Ready (.cvtd h g d a x) h g s c →
        let plane : CvtSrc → CvtSrc
          | .int n => if D.fmt = 0x10 ∨ D.fmt = 0x11 then .int (planeRead n D.planes D.centre) else .int n
          | y => y
        let val l := convert (plane (source D.fmt c l)) 2 D.rnd false D.ftz
        RaisesFlags (exec (.cvtd h g d a x) s) s c (fun l => (val l).2) fun G' =>
          G'.s = c.G.s ∧ PredsKept c G' ∧ VectorIs c G' d.toNat fun l => BitVec.ofNat 32 (val l).1))

/-- R83, R171: rounding m * 2^-n to an integer k under .rn, .rz, .ru, .rd and .ra: k is a nearest integer, even in a tie
under .rn and upwards in magnitude under .ra; under .rz the magnitude is cut, under .ru and .rd the value is bounded. -/
def Obligations.RoundingModes : Prop := ∀ (neg : Bool) (m n : Nat), 0 < n →
  let k (mode : Nat) := (roundTo mode neg m (-(n : Int)) false 0).1
  (2 * (k 0 * 2 ^ n) ≤ 2 * m + 2 ^ n ∧ 2 * m ≤ 2 * (k 0 * 2 ^ n) + 2 ^ n ∧
    ((2 * (k 0 * 2 ^ n) = 2 * m + 2 ^ n ∨ 2 * m = 2 * (k 0 * 2 ^ n) + 2 ^ n) → k 0 % 2 = 0)) ∧
  (k 1 * 2 ^ n ≤ m ∧ m < (k 1 + 1) * 2 ^ n) ∧
  (if neg then k 2 * 2 ^ n ≤ m ∧ m < (k 2 + 1) * 2 ^ n else m ≤ k 2 * 2 ^ n ∧ k 2 * 2 ^ n < m + 2 ^ n) ∧
  (if neg then m ≤ k 3 * 2 ^ n ∧ k 3 * 2 ^ n < m + 2 ^ n else k 3 * 2 ^ n ≤ m ∧ m < (k 3 + 1) * 2 ^ n) ∧
  (2 * m < 2 * (k 4 * 2 ^ n) + 2 ^ n ∧ 2 * (k 4 * 2 ^ n) ≤ 2 * m + 2 ^ n) ∧
  ∀ mode < 5, (roundTo mode neg m (-(n : Int)) false 0).2 = decide (m % 2 ^ n ≠ 0)

/-! ### Lane exchange and random numbers -/

/-- R263, R264: vshfl reads a member's register, else the lane's own; vfirst and vbcast spread one lane's value over the
active lanes, or to the scalar register that a prefix names. Without an active lane nothing is written. -/
def Obligations.ExchangeResults : Prop := ∀ (h : Hdr) (g : BitVec 3) (d a b : BitVec 7) (n : BitVec 5),
  VectorResult (.vshfl h g d a b) h g d (fun c l =>
    let k := (laneSrc c b l).toNat % 32
    if c.members.getLsbD k then laneReg c a k else laneReg c a l) ∧
  (∀ s c k, k < 32 → c.act.getLsbD k = true → (∀ m < k, c.act.getLsbD m = false) →
    let x := if c.members.getLsbD n.toNat then laneReg c a n.toNat else 0
    ((∀ r, h.ext ≠ some (.sca r)) →
      (Ready (.vfirst h g d a) h g s c → WritesVector (exec (.vfirst h g d a) s) s c d fun _ => laneReg c a k) ∧
      (Ready (.vbcast h g d a n) h g s c → WritesVector (exec (.vbcast h g d a n) s) s c d fun _ => x)) ∧
    (∀ r, h.ext = some (.sca r) →
      (Ready (.vfirst h g d a) h g s c → WritesScalar (exec (.vfirst h g d a) s) s c r ((laneReg c a k).setWidth 72)) ∧
      (Ready (.vbcast h g d a n) h g s c → WritesScalar (exec (.vbcast h g d a n) s) s c r (x.setWidth 72)))) ∧
  ∀ s c, c.act = 0 → ∀ i ∈ [Instr.vfirst h g d a, .vbcast h g d a n], Ready i h g s c →
    GangOnly (exec i s) s c fun G' => GangKept c G' ∧ VectorsKept c G' ∧ PredsKept c G'

/-- R265, R266: vscan writes to each active lane the fold of the active lanes up to it (addx: of those below it, 0 for the
lowest), vred the whole fold; each step's flags belong to the lane whose value it folds in. R67, R267: rand writes RandMix
of the seed, the thread's global index and its draw counter, which advances, in each active lane. The model's own readings
are in log 46. -/
def Obligations.FoldAndRandomResults : Prop :=
  (∀ (h : Hdr) (g : BitVec 3) (d a f : BitVec 7) (o : BitVec 3) (s : State) (c : Ctx),
    let op := [0, 0, 1, 2, 3, 4, 8].getD o.toNat 0
    (Ready (.vscan h g d a o) h g s c → RaisesFlags (exec (.vscan h g d a o) s) s c (foldFlags c a op) fun G' =>
      G'.s = c.G.s ∧ PredsKept c G' ∧ VectorIs c G' d.toNat fun l =>
        if o.toNat = 1 then (foldBelow c a op l).getD 0 else foldUpTo c a op l) ∧
    (Ready (.vred h g d a f) h g s c →
      let writes (x : Word) (G' : Gang) := PredsKept c G' ∧ match h.ext with
        | some (.sca r) => VectorsKept c G' ∧ ∀ k < 64, G'.sreg k = if k = r.toNat then x.setWidth 72 else c.G.sreg k
        | _ => G'.s = c.G.s ∧ VectorIs c G' d.toNat fun _ => x
      (2 ≤ popcount c.act →
        RaisesFlags (exec (.vred h g d a f) s) s c (foldFlags c a f.toNat) (writes (foldUpTo c a f.toNat 31))) ∧
      (∀ l < 32, c.act = BitVec.twoPow 32 l →
        let invalid := decide (f.toNat = 9 ∨ f.toNat = 10) && (Fmt.f32.value (laneReg c a l).toNat).isSnan
        RaisesFlags (exec (.vred h g d a f) s) s c (fun _ => if invalid then flagNV else 0)
          (writes (if invalid then BitVec.ofNat 32 Fmt.f32.nanBits else laneReg c a l))) ∧
      (c.act = 0 → GangOnly (exec (.vred h g d a f) s) s c fun G' => GangKept c G' ∧ VectorsKept c G' ∧ PredsKept c G'))) ∧
  (∀ (h : Hdr) (g : BitVec 3) (d : BitVec 7) (s : State) (c : Ctx),
    Ready (.rand h g d) h g s c → GangGoesOn (exec (.rand h g d) s) s c 0 fun G' => GangKept c G' ∧ ∀ l < 32, LaneIs c G' l
      (if c.act.getLsbD l then
        let gtid : Dword := BitVec.ofNat 64 ((c.B.lin * c.L.r.gangs + c.g) * 32 + l)
        let x := c.L.r.seed ^^^ (gtid * 0x9E6C63D0676A9A99)
        let x := x + (c.G.lane l).draw * 0xC2B2AE3D27D4EB4F
        let x := (x ^^^ (x >>> 31)) * 0xBF58476D1CE4E5B9
        let x := (x ^^^ (x >>> 27)) * 0x94D049BB133111EB
        let x := x ^^^ (x >>> 33)
        { (c.G.lane l).setReg d.toNat (x.extractLsb' 0 32) with draw := (c.G.lane l).draw + 1 }
       else c.G.lane l))

/-! ### Loads, stores, prefetch, fences -/

/-- R98, R203, R209-R211: a load returns what its cluster's plain loads return, after the acquire that its scope asks for: a
vector load's words are on their way to the registers of the active lanes, a scalar load's value is written. Without dirty
bytes in any L1, every byte of memory reads as before. The model's own readings are in log 8, log 36. -/
def Obligations.LoadResults : Prop := ∀ (h : Hdr) (g : BitVec 3) (t o : BitVec 7) (b : BitVec 4) (w : BitVec 3) (d a : BitVec 6)
    (i : BitVec 9) (s : State) (c : Ctx) (xs : List Spot),
  let n := widthBytes w
  let cl := clusterOf c.B.core
  let loads (e : Instr) (scope : Nat) := ∃ u G', exec e s = .next (after c u) ∧ CachesAndBlock c.u s u ∧ u.gang? c.u c.g = some G' ∧
    let writes := xs.flatMap fun x =>
      wordWrites x.lane t.toNat (loadWords w ((s.acquire cl (min scope 2)).plainBytes cl x.key x.pa n))
    G' = { c.G with
      lanes := G'.lanes
      sheaf := G'.sheaf
      resp := c.G.resp ++ (if writes = [] then [] else [{ writes := writes, far := true }]) } ∧
    (∀ l < 32, LaneIs c G' l (c.G.lane l)) ∧ (noDirty s → SameBytes s u) ∧ (scope ≠ 3 → u.requests = s.requests)
  let loadsScalar (e : Instr) (val : Wide) := ∃ u G', exec e s = .next (after c u) ∧ CachesAndBlock c.u s u ∧
    u.gang? c.u c.g = some G' ∧ GangKeptButScalars c G' ∧ (∀ l < 32, LaneIs c G' l (c.G.lane l)) ∧
    (∀ r < 64, G'.sreg r = if r = d.toNat then val else c.G.sreg r) ∧ (noDirty s → SameBytes s u) ∧ u.requests = s.requests
  let ea := (((c.G.sreg a.toNat).toNat + c.h.immOf i true * 8) % (2 ^ 72 : Int)).toNat
  (Ready (.ldg h g t o b w) h g s c → Reaches c s (Access.load n) (globalAt c b.toNat o) xs → loads (.ldg h g t o b w) 0) ∧
  (Ready (.ldgAcq h g t o b w) h g s c → Reaches c s (Access.load n) (globalAt c b.toNat o) xs → loads (.ldgAcq h g t o b w) h.scope) ∧
  ∀ x, xs = [x] → x.lane = lowest c.members → x.va = ea →
    (Ready (.sld h d a w i) h 7 s c → Reaches c s { Access.load n with scalar := true } [(x.lane, ea)] xs →
      let v := ofBytes (s.plainBytes cl x.key x.pa n)
      loadsScalar (.sld h d a w i) (match w.toNat with
        | 1 => ((BitVec.ofNat 8 v).signExtend 64).setWidth 72
        | 3 => ((BitVec.ofNat 16 v).signExtend 64).setWidth 72
        | _ => BitVec.ofNat 72 v)) ∧
    (Ready (.sldp h d a i) h 7 s c → Reaches c s { Access.load 16 with scalar := true } [(x.lane, ea)] xs →
      let bs := s.plainBytes cl x.key x.pa 16
      fieldAt bs 9 7 = 0 → loadsScalar (.sldp h d a i) (BitVec.ofNat 72 (fieldAt bs 0 9)))

/-- R113, R209: a plain store changes what its cluster's plain loads return at the bytes stored, and nothing that memory
holds or that another cluster reads. R113, R211: before a releasing store is made, every dirty byte of its cluster goes to
its home: what is dirty afterwards lies in lines that the instruction has stored to, and the bytes stored can be read while
no other cluster holds dirty bytes. The die works, and nothing of another device's memory is cached or on its way. The
model's own readings are in log 8, log 36. -/
def Obligations.StoreResults : Prop :=
  (∀ (h : Hdr) (g : BitVec 3) (t o : BitVec 7) (b : BitVec 4) (w : BitVec 3) (d a : BitVec 6)
      (i : BitVec 9) (s : State) (c : Ctx) (xs : List Spot),
    let n := widthBytes w
    let cl := clusterOf c.B.core
    let stores (e : Instr) (bs : Nat → List Byte) := ∃ u G', exec e s = .next (after c u) ∧
      u = { s with blocks := u.blocks, tlb := u.tlb, tables := u.tables, freeCtr := u.freeCtr, l1 := u.l1 } ∧ (∀ v ≠ c.u, u.block? v = s.block? v) ∧
      u.gang? c.u c.g = some G' ∧ GangKept c G' ∧ (∀ l < 32, LaneIs c G' l (c.G.lane l)) ∧
      ∀ k key pa, u.plainByte k key pa = (if k = cl then storedByte xs bs key pa else none).getD (s.plainByte k key pa)
    let ea := (((c.G.sreg a.toNat).toNat + c.h.immOf i true * 8) % (2 ^ 72 : Int)).toNat
    (Ready (.stg h g t o b w) h g s c → Reaches c s (Access.store n) (globalAt c b.toNat o) xs →
      stores (.stg h g t o b w) fun l => storeBytes w (c.G.lane l) t.toNat) ∧
    ∀ x, xs = [x] → x.lane = lowest c.members → x.va = ea →
      (Ready (.sst h d a w i) h 7 s c → Reaches c s { Access.store n with scalar := true } [(x.lane, ea)] xs →
        stores (.sst h d a w i) fun _ => bytesOf n (c.G.sreg d.toNat).toNat) ∧
      (Ready (.sstp h d a i) h 7 s c → Reaches c s { Access.store 16 with scalar := true } [(x.lane, ea)] xs →
        stores (.sstp h d a i) fun _ => bytesOf 16 (c.G.sreg d.toNat).toNat)) ∧
  (∀ (h : Hdr) (g : BitVec 3) (t o : BitVec 7) (b : BitVec 4) (w : BitVec 3)
      (s : State) (c : Ctx) (xs : List Spot),
    Ready (.stgRel h g t o b w) h g s c → Reaches c s (Access.store (widthBytes w)) (globalAt c b.toNat o) xs → xs ≠ [] →
    s.remote = [] → s.writesPending = false → (∀ y ∈ s.l1, s.local (y.line * 128) = true) → linesOnce s →
    s.dieFailed.getLsbD (clusterOf c.B.core / 8) = false →
    ∃ u G', exec (.stgRel h g t o b w) s = .next (after c u) ∧ CachesAndBlock c.u s u ∧ u.gang? c.u c.g = some G' ∧ GangKept c G' ∧
      (∀ l < 32, LaneIs c G' l (c.G.lane l)) ∧
      ((∀ y ∈ s.l1, y.cluster ≠ clusterOf c.B.core → y.dirty = 0) → ∀ x ∈ xs, ∀ k < widthBytes w,
        some (u.plainByte (clusterOf c.B.core) x.key (x.pa + k))
          = storedByte xs (fun l => storeBytes w (c.G.lane l) t.toNat) x.key (x.pa + k)) ∧
      (2 ≤ h.scope → ∀ y ∈ u.l1, y.cluster = clusterOf c.B.core → y.dirty ≠ 0 → ∃ x ∈ xs, y.line = lineOf x.pa))

/-- R101, R102, R205, R210: scratchpad loads and stores, and loads from the parameter space. -/
def Obligations.LocalAccesses : Prop := ∀ (h : Hdr) (g : BitVec 3) (t o : BitVec 7) (i : BitVec 4) (w : BitVec 3) (d : BitVec 6)
    (q : BitVec 12) (s : State) (c : Ctx),
  let n := widthBytes w
  let las := spadAt c o (h.immOf i false * 16)
  (Ready (.lds h g t o i w) h g s c → ReachesSpad c (Access.load n) n las →
    GangGoesOn (exec (.lds h g t o i w) s) s c 0 fun G' =>
      let writes := las.flatMap fun x => wordWrites x.1 t.toNat (loadWords w (readBytes c.B.spad x.2 n))
      G' = { c.G with
        lanes := G'.lanes
        sheaf := G'.sheaf
        chunk := G'.chunk
        resp := c.G.resp ++ (if writes = [] then [] else [{ writes := writes, far := false }]) } ∧
      ∀ l < 32, LaneIs c G' l (c.G.lane l)) ∧
  (Ready (.sts h g t o i w) h g s c → ReachesSpad c (Access.store n) n las → Memory.wf c.B.spad = true →
    ∃ u B' G', exec (.sts h g t o i w) s = .next (after c u) ∧ BlockOnly c.u s u ∧ u.block? c.u = some B' ∧
      B' = { c.B with gangs := B'.gangs, spad := B'.spad } ∧ u.gang? c.u c.g = some G' ∧ GangKept c G' ∧
      (∀ l < 32, LaneIs c G' l (c.G.lane l)) ∧
      ∀ x, sread B'.spad x
        = (storedSpad las (fun l => storeBytes w (c.G.lane l) t.toNat) x).getD (sread c.B.spad x)) ∧
  (Ready (.sldparam h d w q) h 7 s c → q.toNat % n = 0 → w ≠ 6 →
    WritesScalar (exec (.sldparam h d w q) s) s c d (BitVec.ofNat 72 (fieldAt c.L.r.param q.toNat n))) ∧
  (Ready (.sldparam h d w q) h 7 s c → q.toNat % 16 = 0 → w = 6 → fieldAt c.L.r.param (q.toNat + 9) 7 = 0 →
    WritesScalar (exec (.sldparam h d w q) s) s c d (BitVec.ofNat 72 (fieldAt c.L.r.param q.toNat 9)))

/-- R113, R128, R225, R231: what fences do to the cluster's copies: a release at device scope or wider leaves no dirty byte
(a fencer's none of its range), an acquire no clean one; a drain fence advances the epoch of its members (R221). A prefetch,
and a fencer of length 0, change no register and, while no L1 holds a dirty byte, no memory. The die works, and nothing of
another device's memory is cached or on its way. The model's own readings are in log 8, log 36. -/
def Obligations.FenceResults : Prop := ∀ (h : Hdr) (g : BitVec 3) (o c' : BitVec 2) (x y : BitVec 6) (v : BitVec 7) (b : BitVec 4)
    (l : BitVec 3) (s : State) (c : Ctx),
  let cl := clusterOf c.B.core
  let fences (e : Instr) (epochs : Nat) (covers : L1Line → Prop) := ∃ u G', exec e s = .next (after c u) ∧ CachesAndBlock c.u s u ∧
    u.gang? c.u c.g = some G' ∧ GangKept c G' ∧
    (∀ k < 32, LaneIs c G' k
      (if c.run.getLsbD k then { c.G.lane k with epoch := (c.G.lane k).epoch + epochs } else c.G.lane k)) ∧
    (noDirty s → SameBytes s u) ∧ (c'.toNat ≠ 3 → u.requests = s.requests) ∧
    (2 ≤ c'.toNat → ∀ z ∈ u.l1, z.cluster = cl → (2 ≤ o.toNat → covers z → z.dirty = 0) ∧ (o.toNat ≠ 2 → z.valid = z.dirty ∧ z.dirty ≠ 0)) ∧
    (c'.toNat < 2 → u.l1 = s.l1)
  let len := ((c.G.sreg y.toNat).extractLsb' 0 64).toNat
  let free := c.G.parked = none ∧ s.remote = [] ∧ s.writesPending = false ∧ (∀ z ∈ s.l1, s.local (z.line * 128) = true) ∧ linesOnce s ∧
    s.dieFailed.getLsbD (cl / 8) = false
  (Ready (.fence h o c') h 7 s c → o.toNat ≠ 0 → free →
    fences (.fence h o c') (if 2 ≤ o.toNat ∧ 2 ≤ c'.toNat then 1 else 0) fun _ => True) ∧
  (Ready (.fencer h o c' x y) h 7 s c → o.toNat ≠ 0 → free → len ≠ 0 →
    fences (.fencer h o c' x y) 0 fun z => s.inRange c (c.G.sreg x.toNat).toNat len z.line z.key = true) ∧
  (Ready (.fencer h o c' x y) h 7 s c → len = 0 →
    GangOnly (exec (.fencer h o c' x y) s) s c fun G' => GangKept c G' ∧ VectorsKept c G' ∧ PredsKept c G') ∧
  (Ready (.pfg h g v b l) h g s c → ∃ u G', exec (.pfg h g v b l) s = .next (after c u) ∧ CachesAndBlock c.u s u ∧
    u.gang? c.u c.g = some G' ∧ GangKept c G' ∧ (∀ k < 32, LaneIs c G' k (c.G.lane k)) ∧ (noDirty s → SameBytes s u) ∧ u.requests = s.requests)

/-! ### Atomics and reductions -/

/-- R214: the new value of an atomic of 32 bits, by its function code: add, and, or, xor, signed and unsigned minimum and
maximum, exchange, compare and swap, the rounded sum of floats; of 64 bits the same on 64-bit values. -/
def Obligations.AtomicValues : Prop := ∀ (m x k : Word) (M X K : Dword),
  let r32 (f : Nat) : Word := (atomicValue f false (m.setWidth 64) (x.setWidth 64) (k.setWidth 64)).setWidth 32
  (r32 0 = m + x ∧ r32 1 = m &&& x ∧ r32 2 = m ||| x ∧ r32 3 = m ^^^ x ∧ (r32 4).toInt = min m.toInt x.toInt ∧
    (r32 5).toInt = max m.toInt x.toInt ∧ (r32 6).toNat = min m.toNat x.toNat ∧ (r32 7).toNat = max m.toNat x.toNat ∧
    r32 8 = x ∧ r32 9 = if m = k then x else m) ∧
  (atomicValue 0 true M X K = M + X ∧ atomicValue 1 true M X K = M &&& X ∧ atomicValue 2 true M X K = M ||| X ∧
    atomicValue 3 true M X K = M ^^^ X ∧ (atomicValue 4 true M X K).toInt = min M.toInt X.toInt ∧
    (atomicValue 5 true M X K).toInt = max M.toInt X.toInt ∧ (atomicValue 6 true M X K).toNat = min M.toNat X.toNat ∧
    (atomicValue 7 true M X K).toNat = max M.toNat X.toNat ∧ atomicValue 8 true M X K = X ∧
    atomicValue 9 true M X K = if M = K then X else M) ∧
  (r32 10 = BitVec.ofNat 32 (roundFmt (fAdd 0 (Fmt.f32.value m.toNat) (Fmt.f32.value x.toNat)).1 .f32 0 false false).1 ∧
    atomicValue 10 true M X K = BitVec.ofNat 64 (roundFmt (fAdd 0 (Fmt.f64.value M.toNat) (Fmt.f64.value X.toNat)).1 .f64 0 false false).1) ∧
  ∀ f < 10, (atomicValue f false (m.setWidth 64) (x.setWidth 64) (k.setWidth 64)).toNat < 2 ^ 32

/-- R129, R213, R215, R216: an atomic or reduction sends one operation for each active lane to the MAUs, with its operand
and compare value (only atomg has its old value returned); nothing else of the gang changes, and memory only once an MAU
performs it. R7, R8, R218: redg.det forms one update for each active lane, whose issuer index holds the virtual core, the
gang, the lane and the lane's SEQ, which advances; nothing is applied yet. The model's own readings are in log 36, for the
global atomics alone. -/
def Obligations.AtomicIssue : Prop :=
  (∀ (h : Hdr) (g : BitVec 3) (t o : BitVec 7) (b : BitVec 3) (f : BitVec 4) (s : State) (c : Ctx)
      (xs : List Spot),
    c.G.away = [] → s.remote = [] → s.writesPending = false → (∀ y ∈ s.l1, s.local (y.line * 128) = true) →
    let n := atomicBytes c.h.w64
    let sends (e : Instr) (returns : Bool) (acq : Nat) := ∃ u G', exec e s = .next (after c u) ∧ CachesAndBlock c.u s u ∧
      u.gang? c.u c.g = some G' ∧ (∀ l < 32, LaneIs c G' l (c.G.lane l)) ∧ (noDirty s → SameBytes s u) ∧ u.requests = s.requests ∧
      G' = { c.G with
        lanes := G'.lanes
        sheaf := G'.sheaf
        mau := c.G.mau ++ xs.map fun x =>
          { lane := x.lane, pa := x.pa, key := x.key, f := f, w64 := c.h.w64,
            operand := if c.h.w64 then (c.G.lane x.lane).pair t.toNat else ((c.G.lane x.lane).reg t.toNat).setWidth 64,
            compare := match c.h.ext with
              | some (.vec k) => if c.h.w64 then c.G.src64 k x.lane else (c.G.src k x.lane).setWidth 64
              | _ => 0,
            dest := if returns then some t.toNat else none, va := BitVec.ofNat 72 x.va, acq := acq, pc := c.pc, tag := none,
            answer := none } }
    (Ready (.atomg h g t o b f) h g s c → Reaches c s (Access.atomic n true) (globalAt c b.toNat o) xs →
      sends (.atomg h g t o b f) true (if (h.order = 1 ∨ h.order = 3) ∧ 2 ≤ h.scope then h.scope else 0)) ∧
    (Ready (.redg h g t o b f) h g s c → Reaches c s (Access.atomic n false) (globalAt c b.toNat o) xs →
      sends (.redg h g t o b f) false 0)) ∧
  (∀ (h : Hdr) (g : BitVec 3) (t o : BitVec 7) (b : BitVec 3) (f : BitVec 4) (s : State)
      (c : Ctx) (xs : List Spot),
    let n := atomicBytes h.w64
    Ready (.redgDet h g t o b f) h g s c → c.L.status = 0 → (∀ l < 32, (c.G.lane l).seq < 2 ^ 37) →
    Reaches c s { Access.atomic n false with rd := false, det := true } (globalAt c b.toNat o) xs →
    ∃ u G', exec (.redgDet h g t o b f) s = .next (after c u) ∧
      u = { s with blocks := u.blocks, launches := u.launches, tlb := u.tlb, tables := u.tables, freeCtr := u.freeCtr } ∧ (∀ v ≠ c.u, u.block? v = s.block? v) ∧
      u.launch? c.L.id = some { c.L with inflight := c.L.inflight ++ xs.map fun x =>
        { issuer := c.B.lin % 1024 * 2 ^ 54 + c.g * 2 ^ 42 + x.lane * 2 ^ 37 + (c.G.lane x.lane).seq, lin := c.B.lin, pa := x.pa,
          key := x.key, f := f, w64 := h.w64,
          operand := if h.w64 then (c.G.lane x.lane).pair t.toNat else ((c.G.lane x.lane).reg t.toNat).setWidth 64,
          gang := c.g, lane := x.lane, epoch := (c.G.lane x.lane).epoch, va := BitVec.ofNat 72 x.va, tpc := c.wpc,
          chained := false } } ∧
      u.gang? c.u c.g = some G' ∧ GangKept c G' ∧
      ∀ l < 32, LaneIs c G' l (if c.act.getLsbD l then { c.G.lane l with seq := (c.G.lane l).seq + 1 } else c.G.lane l))

/-- R129, R215: scratchpad atomics and reductions are performed in ascending lane order, each lane seeing those below it;
the old values are on their way to the registers of atoms. The model's own readings are in log 36. -/
def Obligations.ScratchpadAtomics : Prop := ∀ (h : Hdr) (g : BitVec 3) (t o : BitVec 7) (f : BitVec 4) (s : State) (c : Ctx),
  let n := atomicBytes c.h.w64
  let las := spadAt c o c.h.disp
  let value (sp : List Host.Cell) (x : Nat × Nat) : Nat :=
    (atomicValue f.toNat c.h.w64 (BitVec.ofNat 64 (readLE sp x.2 n))
      (if c.h.w64 then (c.G.lane x.1).pair t.toNat else ((c.G.lane x.1).reg t.toNat).setWidth 64)
      (match c.h.ext with
        | some (.vec k) => if c.h.w64 then c.G.src64 k x.1 else (c.G.src k x.1).setWidth 64
        | _ => 0)).toNat
  let spad (k : Nat) := (las.take k).foldl (fun sp x => writeBytes sp x.2 (bytesOf n (value sp x))) c.B.spad
  let performs (e : Instr) (returns : Bool) := ∃ u B' G', exec e s = .next (after c u) ∧ BlockOnly c.u s u ∧
    u.block? c.u = some B' ∧ B' = { c.B with gangs := B'.gangs, spad := spad las.length } ∧ u.gang? c.u c.g = some G' ∧
    (∀ l < 32, LaneIs c G' l (c.G.lane l)) ∧
    let old := (List.range las.length).flatMap fun i =>
      let x := las.getD i (0, 0)
      atomicWrites c.h.w64 x.1 t.toNat (BitVec.ofNat 64 (readLE (spad i) x.2 n))
    G' = { c.G with
      lanes := G'.lanes
      sheaf := G'.sheaf
      resp := c.G.resp ++ (if returns && !las.isEmpty then [{ writes := old, far := false }] else []) }
  (Ready (.atoms h g t o f) h g s c → ReachesSpad c (Access.atomic n true) n las → performs (.atoms h g t o f) true) ∧
  (Ready (.reds h g t o f) h g s c → ReachesSpad c (Access.atomic n false) n las → performs (.reds h g t o f) false)

/-! ### Barriers and buffers -/

/-- R108, R109: one arrival of weight w on an object: more than QUOTA is refused; at QUOTA the phase completes and GATHERED
starts again from 0; else GATHERED grows. No other byte of the scratchpad changes. R228: the barrier instructions on the
object at o, which R230 lets them use: bar.arrive and bar.credit arrive for each active lane, bar.arrwait then blocks the
lanes whose phase has not completed, bar.wait blocks the active lanes while PHASE is the awaited one. The launch has no
barrier checker, and the gang is neither recorded nor replayed. The model's own readings are in log 36. -/
def Obligations.BarrierResults : Prop :=
  (∀ (b : Block) (off w : Nat), Memory.wf b.spad = true →
    let field (m : List Host.Cell) (k : Nat) := readLE m (off + k) 4
    let sum := field b.spad 4 + w
    (field b.spad 0 < sum → b.arrive off w = none) ∧
    (sum ≤ field b.spad 0 → ∃ b', b.arrive off w = some b' ∧ field b'.spad 0 = field b.spad 0 ∧
      (sum = field b.spad 0 → field b'.spad 4 = 0 ∧ field b'.spad 12 = (field b.spad 12 + 1) % 2 ^ 32) ∧
      (sum ≠ field b.spad 0 → field b'.spad 4 = sum ∧ field b'.spad 12 = field b.spad 12) ∧
      ∀ a, (a < off + 4 ∨ (off + 8 ≤ a ∧ a < off + 12) ∨ off + 16 ≤ a) → sread b'.spad a = sread b.spad a)) ∧
  (∀ (h : Hdr) (g : BitVec 3) (x : BitVec 6) (w : BitVec 9) (s : State) (c : Ctx),
    let o := (c.G.sreg x.toNat).toNat % 2 ^ 32
    let awaited : BitVec 32 := (c.G.sreg x.toNat).extractLsb' 32 32
    c.act ≠ 0 → o % 16 = 0 → o + 16 ≤ c.L.r.scratch → (∀ k < 16, c.L.r.bufAt (o + k) = none) →
    c.L.r.debug = false → c.G.chunk = none →
    let arrives (e : Instr) (weight : Nat) (waits : Bool) :=
      let r := c.B.arrivals o weight (lanesOf c.act)
      r.2.2 = [] → ∃ u B' G', exec e s = .next (after c u) ∧ BlockOnly c.u s u ∧ u.block? c.u = some B' ∧ B'.spad = r.1.spad ∧
        (∀ k ≠ c.g, B'.gangs[k]? = r.1.gangs[k]?) ∧ u.gang? c.u c.g = some G' ∧ GangKept c G' ∧
        ∀ l < 32, LaneIs c G' l
          (let t := ((r.1.gangs[c.g]?).getD c.G).lane l
           if waits && r.2.1.any fun y => decide (y.1 = l ∧ y.2 = r.1.phase o) then
             { t with st := .blocked (.bar o (r.1.phase o) c.wpc true), waitCount := 0 }
           else t)
    (Ready (.barArrive h g x) h g s c → arrives (.barArrive h g x) 1 false) ∧
    (Ready (.barArrwait h g x) h g s c → arrives (.barArrwait h g x) 1 true) ∧
    (Ready (.barCredit h g x w) h g s c → arrives (.barCredit h g x w) (h.immOf w false).toNat false) ∧
    (Ready (.barWait h g x) h g s c → GangGoesOn (exec (.barWait h g x) s) s c 0 fun G' => GangKept c G' ∧ ∀ l < 32, LaneIs c G' l
      (if readLE c.B.spad (o + 12) 4 = awaited.toNat ∧ c.act.getLsbD l then
        { c.G.lane l with st := .blocked (.bar o awaited c.wpc false), waitCount := 0 }
       else c.G.lane l)))

/-- R106, R107, R233: buf.fill takes an empty buffer to full, buf.take a full one to draining, buf.free a draining one to
empty; in any other state the instruction raises Scratchpad-Buffer on every member, with the buffer's base, state and
number, or with zeros and the number for a buffer without a declaration. Without an active thread nothing happens. -/
def Obligations.BufferResults : Prop := ∀ (h : Hdr) (g : BitVec 3) (n : BitVec 4) (s : State) (c : Ctx),
  let now := vget c.B.bufs n.toNat 0
  let d := c.L.r.bufs.getD n.toNat (0, 0)
  let steps (e : Instr) (old new : BitVec 2) := Ready e h g s c → c.G.chunk = none →
    (c.act = 0 → GangOnly (exec e s) s c fun G' => GangKept c G' ∧ VectorsKept c G' ∧ PredsKept c G') ∧
    (c.act ≠ 0 → d.2 = 0 → TrapsTo c c.members →
      TakesTrap (exec e s) s c c.members 0x04 0 (BitVec.ofNat 64 (n.toNat * 2 ^ 32 + c.act.toNat)) c.after) ∧
    (c.act ≠ 0 → d.2 ≠ 0 → now = old → ∃ u B' G', exec e s = .next (after c u) ∧ BlockOnly c.u s u ∧ u.block? c.u = some B' ∧
      B' = { c.B with gangs := B'.gangs, bufs := B'.bufs } ∧
      (∀ k < 16, vget B'.bufs k 0 = if k = n.toNat then new else vget c.B.bufs k 0) ∧
      u.gang? c.u c.g = some G' ∧ GangKept c G' ∧ ∀ l < 32, LaneIs c G' l (c.G.lane l)) ∧
    (c.act ≠ 0 → d.2 ≠ 0 → now ≠ old → TrapsTo c c.members → TakesTrap (exec e s) s c c.members 0x04 (BitVec.ofNat 64 d.1)
      (BitVec.ofNat 64 (now.toNat * 2 ^ 36 + n.toNat * 2 ^ 32 + c.act.toNat)) c.after)
  steps (.bufFill h g n) 0 2 ∧ steps (.bufTake h g n) 2 3 ∧ steps (.bufFree h g n) 3 0

/-! ### Atomic regions -/

/-- R139, R147, R150-R152: rbegin opens an empty region, with its target as the fallback PC, for the active threads; rend
hands them to the commit engine, which ends the run, and nothing else happens yet; rabort aborts the open regions of the
active threads, which leave the run at their fallback PCs with cause 0x50 in rstat; rstat writes the status of the last
region's end. The model's own readings are in log 16, log 39. -/
def Obligations.RegionControl : Prop := ∀ (h : Hdr) (g : BitVec 3) (o : BitVec 21) (k : BitVec 8) (d : BitVec 7) (s : State) (c : Ctx),
  let empty : Region :=
    { fallback := BitVec.ofInt 32 (c.wpc.toNat + 4 * o.toInt), count := 0, inputs := [], lines := [], cons := [], stores := [],
      tags := [] }
  (Ready (.rbegin h g o) h g s c → GangGoesOn (exec (.rbegin h g o) s) s c 0 fun G' => GangKept c G' ∧
    ∀ l < 32, if c.act.getLsbD l then LaneEq c G' l { c.G.lane l with region := some empty } else LaneIs c G' l (c.G.lane l)) ∧
  (Ready (.rend h g) h g s c → c.act = 0 →
    GangOnly (exec (.rend h g) s) s c fun G' => GangKept c G' ∧ VectorsKept c G' ∧ PredsKept c G') ∧
  (Ready (.rend h g) h g s c → c.act ≠ 0 → ∃ F : Gang → Gang,
    exec (.rend h g) s = .next { s.modGang c.u c.g F with cur := none } ∧ GangKept c (F c.G) ∧ (F c.G).chunk = c.G.chunk ∧
    (F c.G).sheaf = c.G.sheaf.map (fun S => { S with pc := c.after, pos := S.pos + c.n, commit := some (c.act, c.pc, c.n) }) ∧
    ∀ l < 32, LaneIs c (F c.G) l (c.G.lane l)) ∧
  (Ready (.rabort h g k) h g s c → c.G.chunk = none →
    GangGoesOn (exec (.rabort h g k) s) s c (c.act &&& c.G.inRegion) fun G' => GangKept c G' ∧
    ∀ l < 32, match (c.G.lane l).region with
      | some r => if c.act.getLsbD l then LaneEq c G' l { c.G.lane l with
          region := none
          rstat := BitVec.ofNat 32 (0x50 + 2 ^ 8 * k.toNat + 2 ^ 16 * (r.count + c.n))
          pc := r.fallback }
        else LaneIs c G' l (c.G.lane l)
      | none => LaneIs c G' l (c.G.lane l)) ∧
  VectorResult (.rstat h g d) h g d fun c l => (c.G.lane l).rstat

/-- R141, R142, R144: an rld reads the region's snapshot of its line, or the line's bytes where there is none yet, and
records the input, whose tag its register gets; an rst records the store, and writes no memory. A tagged offset, and a
tagged value in a store that is not symbolic, make their inputs rigid. No L1 holds a dirty byte at the rld. The model's own
readings are in log 16. -/
def Obligations.RegionAccesses : Prop := ∀ (h : Hdr) (g : BitVec 3) (t o : BitVec 7) (b : BitVec 4) (w : BitVec 3) (s : State) (c : Ctx)
    (xs : List Spot),
  let has (x : Spot) (r : Region) : Bool := r.lines.any fun y => decide (y.line = lineOf x.pa)
  let room (x : Spot) (r : Region) : Prop := has x r = true ∨ r.lines.length < 8
  let newLine (x : Spot) (z : Option (BitVec 1024 × Nat)) : RLine :=
    { line := lineOf x.pa, va := BitVec.ofNat 72 x.va, key := x.key, snap := z }
  (Ready (.rld h g t o b) h g s c → noDirty s →
    Reaches c s { Access.load 4 with fetch := false, region := true } (globalAt c b.toNat o) xs →
    (∀ x ∈ xs, ∃ r, (c.G.lane x.lane).region = some r ∧ r.inputs.length < 8 ∧ room x r) →
    ∃ u G', exec (.rld h g t o b) s = .next (after c u) ∧ CachesAndBlock c.u s u ∧ SameBytes s u ∧ u.requests = s.requests ∧ u.gang? c.u c.g = some G' ∧
      GangKept c G' ∧ (∀ l < 32, c.act.getLsbD l = false → LaneIs c G' l (c.G.lane l)) ∧
      ∀ x ∈ xs, ∀ r, (c.G.lane x.lane).region = some r →
        let fresh := (s.lineData (lineOf x.pa) x.key, s.writesOf (lineOf x.pa) x.key)
        let z := (r.snapOf (lineOf x.pa)).getD fresh
        let v := z.1.extractLsb' (8 * (x.pa % 128)) 32
        let input : RInput := { pa := x.pa, va := BitVec.ofNat 72 x.va, value := v, rigid := false }
        let marked := r.lines.map fun y => if y.line = lineOf x.pa then { y with snap := some z } else y
        let r' : Region := { r with
          count := r.count + c.n
          inputs := rigidInputs (c.G.lane x.lane) [o.toNat] r.inputs ++ [input]
          lines := if has x r then marked else r.lines ++ [newLine x (some z)]
          tags := { reg := t.toNat, k := r.inputs.length, c := 0 } :: r.tags.filter fun q => decide (q.reg ≠ t.toNat) }
        LaneEq c G' x.lane { (c.G.lane x.lane).setReg t.toNat v with region := some r' }) ∧
  (Ready (.rst h g t o b w) h g s c →
    Reaches c s { Access.store (widthBytes w) with region := true } (globalAt c b.toNat o) xs →
    (∀ x ∈ xs, ∃ r, (c.G.lane x.lane).region = some r ∧ r.stores.length < 8 ∧ room x r) →
    ∃ u G', exec (.rst h g t o b w) s = .next (after c u) ∧ BlockOnly c.u { s with tlb := u.tlb, tables := u.tables, freeCtr := u.freeCtr } u ∧ u.gang? c.u c.g = some G' ∧
      GangKept c G' ∧ (∀ l < 32, c.act.getLsbD l = false → LaneIs c G' l (c.G.lane l)) ∧
      ∀ x ∈ xs, ∀ r, (c.G.lane x.lane).region = some r →
        let sym := if w = 4 then ((c.G.lane x.lane).tag t.toNat).map fun q => (q.k, q.c) else none
        let store : RStore :=
          { pa := x.pa, va := BitVec.ofNat 72 x.va, size := widthBytes w,
            bits := BitVec.ofNat 64 (ofBytes (storeBytes w (c.G.lane x.lane) t.toNat)), sym := sym }
        let r' : Region := { r with
          count := r.count + c.n
          inputs := rigidInputs (c.G.lane x.lane) ((if sym.isSome then [] else vregs t (widthRegs w)) ++ vregs o 1) r.inputs
          lines := if has x r then r.lines else r.lines ++ [newLine x none]
          stores := r.stores ++ [store] }
        LaneEq c G' x.lane { c.G.lane x.lane with region := some r' })

/-! ### Engine jobs -/

/-- R116, R136, R234, R235, R238, R239, R279, R280: a copy, or an mma, whose checks of every active lane's card or parameter
block pass, and for whose jobs there is room, is accepted whole, while the launch goes on: one job a lane, in lane order,
with what its card or its block and its slots say; the token is pending, and a copy's destination buffer goes from empty to
filling. Without an active thread nothing happens. R282-R284, R287: the movements of a tile enter the engine's queue as one
action, whose effect waits for the jobs before it; accread and accctl.ovf hold their destinations until then. No job on the
tile is frozen for the threads, and the launch goes on. The model's own readings are in log 37. -/
def Obligations.JobIssue : Prop :=
  (∀ (h : Hdr) (g : BitVec 3) (k t : BitVec 6) (a b : BitVec 3) (z x : BitVec 1) (s : State) (c : Ctx)
      (js : List Job),
    let accepts (e : Instr) (n : Nat) (check : Block → Nat → Nat → JobCheck) (room : Nat → Prop)
        (bytes : Nat → List Byte → Job → Prop) (filled : Job → Option Nat) := Ready e h g s c → Unrecorded s c → c.L.status = 0 →
      (c.act = 0 → GangOnly (exec e s) s c fun G' => GangKept c G' ∧ VectorsKept c G' ∧ PredsKept c G') ∧
      (c.act ≠ 0 → checkJobs check c.B (cardOffsets c k) = (js, [], none) → room js.length →
        (js.map fun j => (j.gang, j.lane, j.pc, j.token)) = (lanesOf c.act).map (fun l => (c.g, l, c.pc, some t.toNat)) ∧
        (∀ j ∈ js, ∀ off, (j.lane, off) ∈ cardOffsets c k → bytes j.lane (readBytes c.B.spad off n) j) ∧
        Accepts (exec e s) s c (markLast js) fun B' G' =>
          (∀ i < 16, vget B'.bufs i 0 = if js.any (fun j => decide (filled j = some i)) then 1 else vget c.B.bufs i 0) ∧
          G' = { c.G with lanes := G'.lanes, sheaf := G'.sheaf, chunk := G'.chunk, tokens := t.toNat :: c.G.tokens } ∧
          ∀ l < 32, LaneIs c G' l (if c.act.getLsbD l then { c.G.lane l with jobSeq := (c.G.lane l).jobSeq + 1 } else c.G.lane l))
    accepts (.copy h g k t) 256 (fun b => checkCopy c k b t)
      (fun n => ((s.coreJobs c.B.core).filter Job.isCopy).length + n ≤ 64)
      (fun _ bs j => ∃ d, j.kind = .copy { (readCard bs).k with dstBuf := d } ∧ j.regions = (readCard bs).regions)
      (fun j => match j.kind with | .copy y => y.dstBuf | _ => none) ∧
    accepts (.mma h g k t a b z x) 32 (checkMma a b (z = 1) (x = 1) k t c)
      (fun n => ((s.coreJobs c.B.core).filter Job.isMma).length + n ≤ 32)
      (fun _ bs j => ∃ sa sb cls, c.L.r.slots.getD a.toNat none = some sa ∧ c.L.r.slots.getD b.toNat none = some sb ∧
        mmaClass sa.fmt sb.fmt = some cls ∧
        let p := readParams bs sa sb (z = 1) (x = 1)
        j.kind = .mma p ∧ j.regions = p.regions cls)
      (fun _ => none)) ∧
  (∀ (h : Hdr) (g : BitVec 3) (d a : BitVec 7) (e k : BitVec 6) (hi lo : BitVec 1) (t : BitVec 3)
      (s : State) (c : Ctx), Unrecorded s c → c.L.status = 0 → c.act ≠ 0 → (∀ l < 32, c.B.frozenFor c.G l t.toNat = none) →
    let act (i : Instr) (write : Bool) (op : AccOp) (P : Gang → Prop) := Ready i h g s c →
      Accepts (exec i s) s c
        [Job.fresh c.g (lowest c.act) (.acc t.toNat op) none false c.pc [{ space := .acc, write := write, base := t.toNat, len := 1 }]]
        fun B' G' => B'.bufs = c.B.bufs ∧ P G' ∧ ∀ l < 32, LaneIs c G' l (c.G.lane l)
    let row (l : Nat) : Nat := (laneReg c a l).toNat % 64
    let cells (lo hi : Bool) := (lanesOf c.act).map fun l =>
      (l, row l, if lo then some (laneReg c d l) else none, if hi then some (laneReg c (d + 1) l) else none)
    let o := (c.G.sreg k.toNat).toNat % 2 ^ 32
    let moves (a : Access) := ReachesSpad c a 16 ((lanesOf c.act).map fun l => (l, o))
    act (.accread h g d a t) false (.read d.toNat ((lanesOf c.act).map fun l => (l, row l))) (fun G' => G' = { c.G with
      lanes := G'.lanes
      sheaf := G'.sheaf
      chunk := G'.chunk
      accRegs := d.toNat :: (d.toNat + 1) :: c.G.accRegs }) ∧
    (d.toNat + 1 < 112 → act (.accwrite h g d a t) true (.write (cells true true)) (GangKept c)) ∧
    (d.toNat + 1 < 112 → act (.apatch h g d a hi lo t) true (.write (cells (lo = 1) (hi = 1))) (GangKept c)) ∧
    act (.accctlClear h g t) true .clear (GangKept c) ∧
    (moves (Access.store 16384) → act (.accctlSave h g k t) false (.save o) (GangKept c)) ∧
    (moves (Access.load 16384) → act (.accctlLoad h g k t) true (.load o) (GangKept c)) ∧
    act (.accctlWait h g t) true .wait (GangKept c) ∧
    act (.accctlOvf h g e t) false (.ovf e.toNat) (fun G' => G' = { c.G with
      lanes := G'.lanes
      sheaf := G'.sheaf
      chunk := G'.chunk
      tokens := e.toNat :: c.G.tokens }))

/-! ### Sheaves and quadrants -/

/-- R27, R30, R43, R44: an issue round goes on with the gang's open run, or forms a sheaf of the candidates that share the
PC of the lane that has waited longest, from 32 rounds on, or else the lowest PC: the eligible threads, without those that
have yielded unless the launch is deterministic or all have. Members start their wait count again, the other eligible
threads count on, and their yield marks end. The quadrant issues from the gang if it is the one chosen: it is ready, and of
the gangs that are ready none that has not yielded comes before it, nor one with the same mark that has gone longer without
issuing. After 65,536 runs of a deterministic hold the quadrant passes to the next runnable gang in the order, wrapping. The
model's own readings are in log 4. -/
def Obligations.SheafFormation : Prop := ∀ (u g : Nat) (s : State) (b : Block) (L : Launch) (G : Gang),
  s.block? u = some b → s.launchOf u = some L → s.gang? u g = some G → G.idx = g →
  (s.canIssue u g = true → ∃ t G', exec (.issueRound u g) s = .next t ∧ t.gang? u g = some G' ∧
    (if (s.formed u g).chosen b.core (g % 4) = some (u, g) then t.cur = some (u, g) ∧ G'.lastIssue = s.tick ∧
        t = { s with cur := t.cur, blocks := t.blocks, holders := t.holders }
      else G'.lastIssue = G.lastIssue ∧ t = { s with blocks := t.blocks }) ∧
    G' = { G with lanes := G'.lanes, sheaf := G'.sheaf, lastIssue := G'.lastIssue } ∧
    (G.sheaf.isSome = true → G'.lanes = G.lanes ∧ G'.sheaf = G.sheaf) ∧
    (G.sheaf = none → ∃ S k, G'.sheaf = some S ∧ S.out = 0 ∧ S.pos = 0 ∧ S.fp = none ∧ S.commit = none ∧
      let cand (l : Nat) : Prop := l < 32 ∧ (G.lane l).st = .eligible ∧
        (L.r.det = true ∨ (G.lane l).ymark = false ∨ ∀ m < 32, (G.lane m).st = .eligible → (G.lane m).ymark = true)
      cand k ∧ S.pc = (G.lane k).pc ∧
      ((∃ l, cand l ∧ 32 ≤ (G.lane l).waitCount) →
        ∀ l, cand l → (G.lane l).waitCount ≤ (G.lane k).waitCount ∧ (l < k → (G.lane l).waitCount < (G.lane k).waitCount)) ∧
      ((∀ l, cand l → (G.lane l).waitCount < 32) → ∀ l, cand l → (G.lane k).pc.toNat ≤ (G.lane l).pc.toNat) ∧
      ∀ l < 32, (S.members.getLsbD l = true ↔ cand l ∧ (G.lane l).pc = S.pc) ∧
        G'.lane l = if (G.lane l).st = .eligible then { G.lane l with
            waitCount := if S.members.getLsbD l then 0 else (G.lane l).waitCount + 1
            ymark := false
            ranSinceTret := (G.lane l).ranSinceTret || S.members.getLsbD l }
          else G.lane l)) ∧
  (∀ core quad v h, (∀ x ∈ s.blocks, x.stamp < 2 ^ 64 ∧ ∀ H ∈ x.gangs, H.idx < 2 ^ 8) → s.chosen core quad = some (v, h) →
    s.gangReady v h = true ∧ ∃ B ∈ s.blocks, B.uid = v ∧ B.core = core ∧ ∃ H ∈ B.gangs, H.idx = h ∧ h % 4 = quad ∧
      ∀ C ∈ s.blocks, C.core = core → ∀ K ∈ C.gangs, K.idx % 4 = quad → s.gangReady C.uid K.idx = true →
        (H.ymark = false ∧ K.ymark = true) ∨ (H.ymark = K.ymark ∧ H.lastIssue ≤ K.lastIssue)) ∧
  (∀ pre post, L.r.det = true → 65536 ≤ G.runs → G.sheaf = none → s.heldBy L.id b.core (g % 4) = some (u, g) →
    s.order L.id b.core (g % 4) = pre ++ (u, g) :: post → (u, g) ∉ pre → (u, g) ∉ post →
    ∃ t, exec (.forcedSwitch u g) s = .next t ∧ t = { s with blocks := t.blocks, holders := t.holders } ∧
      t.gang? u g = some { G with runs := 0 } ∧
      t.holder L.id b.core (g % 4) = (post ++ pre ++ [(u, g)]).find? fun x => ((s.gang? x.1 x.2).map Gang.runnable).getD false)

/-- R70-R73, R210: a response lands in the registers that it names, the last write of each; a gang without live threads and
writes under way drains, and with the last of a block without jobs the block completes; the first gang in the quadrant's
order that asks for registers gets them, once enough granules are free, with zeros in those that are new and with those of
its save area if it was evicted; and where the first waiter has waited 1,048,576 cycles and cannot be served, the last other
gang that holds registers gives way, with its registers in its save area. The model's own readings are in log 36. -/
def Obligations.RegisterEvents : Prop := ∀ (u g k core quad : Nat) (s : State) (G : Gang),
  (∀ r, s.gang? u g = some G → G.resp[k]? = some r → ∃ F : Gang → Gang, exec (.loadResponse u g k) s = .next (s.modGang u g F) ∧
    F G = { G with lanes := (F G).lanes, resp := G.resp.eraseIdx k } ∧
    ∀ l < 32, (F G).lane l = { G.lane l with v := ((F G).lane l).v } ∧
      ∀ n < 112, ((F G).lane l).reg n
        = ((r.writes.reverse.find? fun w => decide (w.1 = l ∧ w.2.1 = n)).map (·.2.2)).getD ((G.lane l).reg n)) ∧
  (∀ b, s.block? u = some b → b.gangs[g]? = some G → G.live = 0 → G.settled = true → G.drained = false →
    let last := b.jobs = [] ∧ ∀ i (G' : Gang), b.gangs[i]? = some G' → i ≠ g → G'.drained = true
    ∃ t, exec (.gangDrain u g) s = .next t ∧ t.mem = s.mem ∧
      (last → (∀ x ∈ t.blocks, x.uid ≠ u) ∧
        ∀ L, s.launch? b.launch = some L → ∃ L', t.launch? b.launch = some L' ∧ L'.done = L.done + 1) ∧
      (¬ last → t = s.modGang u g fun G => { G with drained := true })) ∧
  (∀ pre post, s.quadOrder core quad = pre ++ (u, G) :: post → (∀ x ∈ pre, x.2.grow = none ∧ x.2.evicted = false) →
    (G.grow.isSome = true ∨ (G.evicted = true ∧ s.evicting core quad = false)) → s.gang? u G.idx = some G → 8 ≤ G.vb →
    (∀ x ∈ post, ¬ (x.1 = u ∧ x.2.idx = G.idx)) →
    let n := max ((G.grow.map (·.1)).getD 0) G.vb
    (s.freeGranules core quad < G.asks → exec (.reggrowGrant core quad) s = .next s) ∧
    (G.asks ≤ s.freeGranules core quad → ∃ t G', exec (.reggrowGrant core quad) s = .next t ∧ t = { s with blocks := t.blocks } ∧
      t.gang? u G.idx = some G' ∧
      G' = { G with lanes := G'.lanes, s := G'.s, vb := n, grow := none, evicted := false, area := [] } ∧
      G'.s = (if G.area = [] then G.s else savedScalars G.area) ∧
      ∀ l < 32, G'.lane l = { G.lane l with
          v := (G'.lane l).v
          st := if (G.lane l).st = .blocked .reggrow then .eligible else (G.lane l).st } ∧
        ∀ r < 112, (G'.lane l).reg r = if G.vb ≤ r + 8 ∧ r + 8 < n then 0
          else if G.area = [] then (G.lane l).reg r else ((G.lane l).loadRegs G.area l).reg r)) ∧
  (∀ w pre post, s.firstWaiter core quad = some w → (∃ x t, w.2.grow = some (x, t) ∧ t + 1048576 ≤ s.time) →
    s.grants core quad = s → s.quadOrder core quad = pre ++ (u, G) :: post → G.evicted = false → ¬ (u = w.1 ∧ G.idx = w.2.idx) →
    (∀ x ∈ post, x.2.evicted = true ∨ (x.1 = w.1 ∧ x.2.idx = w.2.idx)) → G.evictable = true →
    let t := (s.modGang u G.idx fun G => { G with evicted := true, area := G.saveArea }).grants core quad
    exec (.eviction core quad) s = .next t ∧ exec (.waiterTimeout core quad) s = .next t)

/-- R20, R24, R39, R69, R294, R335, R336, R341: a launch's next block starts on its core with every thread at the entry
point, registers zero but for the stack pointers; a saved block comes back as its record says, or ends its launch with
STATUS 6 where version or check value do not hold; a stalled block ends, is reported, and completes; a block that is asked
to stop and is at rest is saved and leaves its core, and one that is not stays; a run that goes on 560 cycles after the
request is cut. The launch is not recorded. The model's own readings are in log 14, log 22, log 32, log 40. -/
def Obligations.BlockEvents : Prop := ∀ (a core u g : Nat) (s : State) (L : Launch) (b : Block),
  (s.launch? a = some L → L.number = none → s.nextPlacement L.part = some (a, core) →
    (∀ lin, L.nextBlock = some (.fresh lin) → (∀ x ∈ s.blocks, x.uid < s.nextId) →
      ∃ t B, exec (.placeBlock a core) s = .next t ∧ t.block? s.nextId = some B ∧ B.launch = L.id ∧ B.lin = lin ∧ B.core = core ∧
        B.spad = [] ∧ B.acc = [] ∧ B.jobs = [] ∧ (∀ i < 16, vget B.bufs i 0 = 0) ∧ B.gangs.length = L.r.gangs ∧ t.mem = s.mem ∧
        (∀ v ≠ s.nextId, t.block? v = s.block? v) ∧ (∃ L', t.launch? a = some L' ∧ L'.next = lin + 1) ∧
        ∀ i G, B.gangs[i]? = some G → G.idx = i ∧ G.sheaf = none ∧
          (∀ k < 64, G.sreg k = if k = 1 then L.r.stackBase + BitVec.ofNat 72 ((lin * L.r.gangs + i) * 32 * L.r.stackStride) else 0) ∧
          ∀ l < 32, (G.lane l).st = .eligible ∧ (G.lane l).pc = L.r.entry ∧ (G.lane l).p = 0 ∧ (G.lane l).handler = false ∧
            (G.lane l).region = none ∧
            ∀ r < 112, (G.lane l).reg r = if r = 104 then BitVec.ofNat 32 ((l + 1) * L.r.stackStride) else 0) ∧
    (∀ x bs, L.nextBlock = some (.saved x) →
      s.virtRead L.part (s.savedAt L x.2.1) x.2.2 ⟨true, false, false⟩ = (s, .ok bs) →
      ∃ t, exec (.placeBlock a core) s = .next t ∧
        if recordMismatch (s.part L.part).engine bs then
          ∃ L', t.launch? a = some L' ∧ L'.status = (if L.status = 0 then 6 else L.status) ∧ L'.saved = []
        else t.blocks = s.blocks ++ [x.1.restore bs core s.nextId] ∧ t.mem = s.mem)) ∧
  (s.block? u = some b → b.stalled = true → s.launch? b.launch = some L →
    (∀ i (G : Gang), b.gangs[i]? = some G → G.idx = i ∧ G.chunk = none) →
    ∃ t L', exec (.blockStall u) s = .next t ∧ (∀ x ∈ t.blocks, x.uid ≠ u) ∧ t.mem = s.mem ∧ t.launch? b.launch = some L' ∧
      L'.stalls = L.stalls + 1 ∧ L'.done = L.done + 1 ∧ L'.stall = some (L.stall.getD b.stallRec) ∧
      L'.fault = some (L.fault.getD b.stallFault)) ∧
  (∀ us : List Nat, let t : State := { s with blocks := s.blocks.map fun b =>
      if b.uid ∈ us ∧ b.stop = none then { b with stop := some s.time } else b }
    ((∀ v ∈ us, ∀ x, t.block? v = some x → s.quiet x = false) → exec (.preemptionRequest us) s = .next t) ∧
    (us = [u] → t.block? u = some b → s.quiet b = true → b.parked = false → s.launch? b.launch = some L →
      (∀ i (G : Gang), b.gangs[i]? = some G → G.idx = i ∧ G.sheaf = none ∧ G.inRegion = 0) → ∀ off,
      let n := (b.layout L).size
      let P := s.part L.part
      t.poolPlace L.part n (P.poolSize - if t.leavesForPriority b then t.poolReserve L.part else 0) = some off →
      t.virtCheck L.part ((P.poolBase + off) % 2 ^ 72) n ⟨false, true, false⟩ = none →
      ∃ t' L', exec (.preemptionRequest us) s = .next t' ∧ (∀ x ∈ t'.blocks, x.uid ≠ u) ∧ t'.launch? b.launch = some L' ∧
        (b, off, n) ∈ L'.saved)) ∧
  (∀ G r, s.block? u = some b → s.gang? u g = some G → b.stop = some r → r + 560 ≤ s.time → G.sheaf.isSome = true →
    ∃ t, exec (.openRunTimeout u g) s = .next t ∧ t.gang? u g = some { G with cut := true } ∧ t.cur ≠ some (u, g) ∧
      t = { s with blocks := t.blocks, cur := t.cur })

/-- R325, R329-R331: at a run boundary a thread takes its oldest queued event: the trap registers and the handler's PC are
set, and it resumes where it stood; a wait in jwait or bar.wait is taken back and runs again, a wait in bar.arrwait is kept
for tret. The launch is neither recorded nor replayed, and the thread in no region. The model's own readings are in log 32.
-/
def Obligations.EventDelivery : Prop := ∀ (u g l : Nat) (s : State) (b : Block) (L : Launch) (G : Gang) (e : EngEvent),
  s.block? u = some b → s.launchOf u = some L → s.gang? u g = some G → l < 32 → G.chunk = none → s.replayOf u = none →
  (G.events.find? fun x => decide (x.lane = l)) = some e → G.evicted = false → G.grow = none → (G.lane l).handler = false →
  (G.lane l).region = none →
  let t := G.lane l
  let takes (resume : Word) (restored : Option (Nat × BitVec 32 × Word)) (G0 : Gang) := ∃ F : Gang → Gang,
    exec (.engineEventDelivery u g l) s = .next (s.modGang u g F) ∧
    F G = { G0 with lanes := (F G).lanes, events := G.events.erase e } ∧ (∀ m < 32, m ≠ l → (F G).lane m = G.lane m) ∧
    (F G).lane l = { t with
      st := .eligible
      tcause := BitVec.ofNat 64 e.cause
      tpc := e.tpc.setWidth 64
      taddr := e.taddr
      tinfo := e.tinfo
      handler := true
      resume := resume
      pc := L.r.handler
      restored := restored }
  (t.st = .eligible → t.ranSinceTret = true → (∀ S, G.sheaf = some S → S.members.getLsbD l = false) → takes t.pc t.restored G) ∧
  (∀ j pc, t.st = .blocked (.jwait j pc) → takes pc t.restored (G.setA j (G.a j &&& ~~~BitVec.twoPow 32 l))) ∧
  (∀ off ph pc, t.st = .blocked (.bar off ph pc false) → takes pc none G) ∧
  (∀ off ph pc, t.st = .blocked (.bar off ph pc true) → takes t.pc (some (off, ph, pc)) G)

/-! ### Memory events -/

/-- R113, R121, R124, R129, R215: a write-back moves a cluster's dirty bytes of a line to its home and leaves none in the
L1; an MAU replaces an aligned word or doubleword by the new value, and the gang waits for the old one where the instruction
returns it; it stays behind an earlier operation of its gang on the same piece. No other L1 line is dirty, the line's home
can serve it, and every other byte of this device stays. The model's own readings are in log 8, log 36. -/
def Obligations.MemoryEvents : Prop := ∀ (s : State) (cluster line u g k : Nat) (G : Gang) (b : Block) (op : MauOp),
  s.dieFailed = 0 → linesOnce s →
  (∃ t, exec (.l1WriteBack cluster line) s = .next t ∧
    t = { s with l1 := t.l1, l2 := t.l2, l3 := t.l3, writes := t.writes, dir := t.dir, lines := t.lines, floor := t.floor, remote := t.remote } ∧
    (∀ y ∈ t.l1, y.cluster = cluster → y.line = line → y.dirty = 0) ∧
    ∀ x ∈ s.l1, x.cluster = cluster → x.line = line → x.dirty ≠ 0 → s.local (line * 128) = true →
      (∀ y ∈ s.l1, y = x ∨ y.dirty = 0 ∧ ¬ (y.cluster = cluster ∧ y.line = line)) →
      (∀ i < 128, t.byteAt x.key (line * 128 + i)
        = if x.dirty.getLsbD i then lineByte x.data i else s.byteAt x.key (line * 128 + i)) ∧
      ∀ key pa, (key = x.key → lineOf pa ≠ line) → t.byteAt key pa = s.byteAt key pa) ∧
  (s.block? u = some b → s.gang? u g = some G → G.mau[k]? = some op →
    ((G.mau.take k).any (MauOp.after op) = true → exec (.mauAtomic u g k) s = .next s) ∧
    (G.chunk = none → (G.mau.take k).any (MauOp.after op) = false → noDirty s → s.local op.pa = true → Served s (lineOf op.pa) op.key →
      let n := atomicBytes op.w64
      op.pa % n = 0 →
      let old : Dword := BitVec.ofNat 64 (ofBytes (s.bytesAt op.key op.pa n))
      let new := atomicValue op.f.toNat op.w64 old op.operand op.compare
      ∃ t, exec (.mauAtomic u g k) s = .next t ∧ CachesAndBlock u s t ∧ (∀ v ≠ g, t.gang? u v = s.gang? u v) ∧
        (s.poisoned op.key op.pa n = true → op.dest = none →
          SameBytes s t ∧ t.gang? u g = some { G with mau := G.mau.eraseIdx k }) ∧
        (s.poisoned op.key op.pa n = false →
          t.gang? u g = some { G with
            mau := G.mau.eraseIdx k
            resp := G.resp ++ (match op.dest with
              | some d => [{ writes := atomicWrites op.w64 op.lane d old, far := true }]
              | none => []) } ∧
          (∀ i < n, t.byteAt op.key (op.pa + i) = (bytesOf n new.toNat).getD i 0) ∧
          ∀ key pa, (key = op.key → pa < op.pa ∨ op.pa + n ≤ pa) → t.byteAt key pa = s.byteAt key pa)))

/-- R8, R218-R222: an update that arrives joins its line's holding buffer, which keeps its first 16 in the order of R8, or
goes to the chain; at a drain point the updates held for it are applied in that order, whatever the order of their arrival,
and are held no longer. The model's own readings are in log 45. -/
def Obligations.DeterministicUpdates : Prop := ∀ (a k : Nat) (s : State) (L : Launch) (x : DetUpdate), s.launch? a = some L →
  (L.inflight[k]? = some x → s.chainFull L.part = false → (s.launches.filter fun M => decide (M.id = a)) = [L] →
    (∀ M ∈ s.launches, M.id ≠ a → M.held = []) →
    let buf := L.held.filter fun y => !y.chained && decide (lineOf y.pa = lineOf x.pa ∧ y.key = x.key)
    let gives (held : List DetUpdate) := exec (.updateArrival a k) s
      = .next (s.modLaunch a fun _ => { L with inflight := L.inflight.eraseIdx k, held := held })
    (buf ≠ [] → buf.length < 16 → gives (L.held ++ [x])) ∧
    (buf = [] → s.buffersUsed (sliceOf (lineOf x.pa)) < 64 → gives (L.held ++ [x])) ∧
    (buf = [] → 64 ≤ s.buffersUsed (sliceOf (lineOf x.pa)) → gives (L.held ++ [{ x with chained := true }])) ∧
    (16 ≤ buf.length → (∀ y ∈ buf, y.key8 ≤ x.key8) → gives (L.held ++ [{ x with chained := true }])) ∧
    (∀ last ∈ buf, 16 ≤ buf.length → (∀ y ∈ buf, y ≠ last → y.key8 < last.key8) → x.key8 < last.key8 →
      gives (L.held.erase last ++ [x, { last with chained := true }]))) ∧
  (s.drainReady L = true → L.number = none → ∃ (xs : List DetUpdate) (t : State) (L' : Launch), exec (.drain a) s = .next t ∧
    xs.Perm (L.held.filter fun y => decide (y.epoch ≤ L.drains + 1)) ∧ xs.Pairwise (fun y z => y.key8 ≤ z.key8) ∧
    (let met := xs.foldl (fun (z : State) x => z.touch (lineOf x.pa) x.key) s
     t.mem = s.mem ∧ SameBytes (xs.foldl State.applyUpdate met) t) ∧ t.blocks = s.blocks ∧ t.launch? a = some L' ∧
    L' = { L with drains := L.drains + 1, held := L.held.filter fun y => decide (L.drains + 1 < y.epoch) })

/-- R143, R146-R151: the commit of one thread's region whose lines translate to where they stood. A conflict on a rigid
input aborts it with cause 0x10, else a constraint that fails on the fresh values with 0x11, and nothing is written;
otherwise its stores are written, later ones over earlier ones, and its tagged registers follow the fresh values. Then the
run has ended. The launch goes on, unrecorded, and no L1 holds a dirty byte. The model's own readings are in log 39. -/
def Obligations.CommitResults : Prop := ∀ (u g l n : Nat) (pc : Word) (m : BitVec 32) (s : State) (b : Block) (L : Launch) (G : Gang)
    (S : Sheaf) (r : Region),
  s.block? u = some b → s.launchOf u = some L → s.gang? u g = some G → G.sheaf = some S → S.commit = some (m, pc, n) → S.fp = none →
  G.parked = none → G.drained = false → G.chunk = none → L.status = 0 → L.r.det = false → l < 32 → m &&& G.inRegion = BitVec.twoPow 32 l →
  (G.lane l).region = some r → (G.lane l).st = .eligible → G.running.getLsbD l = true → s.dieFailed = 0 → noDirty s →
  (∀ x ∈ r.lines, ∃ pa, s.regionPlace (.thread b.core (g % 4)) L.part x.va.toNat ⟨true, true, false⟩ = .ok pa x.key ∧ lineOf pa = x.line ∧
    s.local (x.line * 128) = true ∧ s.poisonBits x.line x.key = 0 ∧ Served s x.line x.key ∧ ∀ y ∈ r.lines, y.line = x.line → y = x) →
  (∀ w ∈ r.stores, w.pa % 128 + w.size ≤ 128 ∧ w.size ≤ 8 ∧ ∃ x ∈ r.lines, x.line = lineOf w.pa) →
  let xs := r.inputs.map (s.inputValue r)
  let any := r.inputs.any (s.inputConflicts r)
  let value (w : RStore) : Nat := match w.sym with | some (k, c) => (xs.getD k 0 + c).toNat | none => w.bits.toNat
  let ends (t : State) (T : Lane) := exec (.commit u g) s = .next t ∧ ∃ G', t.gang? u g = some G' ∧ G'.sheaf = none ∧ G'.lane l = T
  (∀ k, (r.inputs.findIdx? fun i => i.rigid && s.inputConflicts r i) = some k → ∃ t, SameBytes s t ∧ ends t { G.lane l with
    region := none
    rstat := BitVec.ofNat 32 (0x10 + 2 ^ 8 * (k % 256) + 2 ^ 16 * r.count)
    pc := r.fallback }) ∧
  ((∀ i ∈ r.inputs, i.rigid = true → s.inputConflicts r i = false) →
    (∀ k, (r.cons.findIdx? fun q => !q.holds (xs.getD q.k 0)) = some k → ∃ t, SameBytes s t ∧ ends t { G.lane l with
      region := none
      rstat := BitVec.ofNat 32 (0x11 + 2 ^ 8 * (k % 256) + 2 ^ 16 * r.count)
      pc := r.fallback }) ∧
    ((∀ q ∈ r.cons, q.holds (xs.getD q.k 0) = true) → ∃ t v, ends t { G.lane l with
        v := v
        region := none
        rstat := BitVec.ofNat 32 ((if any then 2 else 1) + 2 ^ 16 * r.count)
        pc := S.pc } ∧
      (∀ d < 112, vget v d 0 = ((r.tags.reverse.find? fun q => decide (q.reg = d)).map fun q => xs.getD q.k 0 + q.c).getD
        ((G.lane l).reg d)) ∧
      ∀ x ∈ r.lines, ∀ pa, lineOf pa = x.line → t.byteAt x.key pa
        = ((r.stores.reverse.find? fun w => decide (w.pa ≤ pa ∧ pa < w.pa + w.size)).map fun w =>
            BitVec.ofNat 8 (value w / 256 ^ (pa - w.pa))).getD (s.byteAt x.key pa)))

/-! ### Running jobs -/

/-- R237, R239, R321: the earliest copy that may start does so while fewer than 8 perform accesses; a beat writes the bytes
of its elements, the later over the earlier; a copy that has performed them all fills its buffer, arrives on its barrier,
gives its token the bytes, and leaves its block. Its addresses lie on this device without poison, the elements of a beat
read no byte that the beat writes, no other cluster holds a dirty byte, nothing watches, and the launch is not recorded. The
model's own readings are in log 11, log 37. -/
def Obligations.CopyEvents : Prop := ∀ (u j : Nat) (s : State) (b : Block) (L : Launch) (x : Job) (k : CopyCard) (xs ys : List Spot),
  s.block? u = some b → s.launchOf u = some L → L.number = none → b.job? j = some x → x.kind = .copy k → x.want = none →
  x.frozen = false → x.failed = false → x.held = false → b.stop = none → Memory.wf b.spad = true →
  let cl := clusterOf b.core
  ((s.copyQueue b.core).head? = some (j, u, j) → s.activeCopies b.core < 8 →
    exec (.copyJobStart u j) s = .next (s.modJob u j fun y => { y with started := true })) ∧
  (x.started = true → x.parked = false → x.pos < k.total → L.r.watch = [] → 0 < k.es → k.es ≤ 16 → k.es ∣ 16 →
    let bt := k.beat x.pos
    let n := min (64 / k.es) (k.total - x.pos)
    let place (zs : List Spot) (f : Nat × Nat → Nat) (need : Needs) := zs.map (fun z => (z.lane, z.va)) = (List.range n).map (fun i =>
        (i, f (bt.getD i (0, 0)))) ∧
      ∀ z ∈ zs, s.place (.job b.core) L.part z.va need = .ok z.pa z.key ∧ s.local z.pa = true ∧ z.pa % k.es = 0
    let apart (p q : Nat) := p + k.es ≤ q ∨ q + k.es ≤ p
    (k.srcSpad = false → place xs (·.1) ⟨true, false, false⟩ ∧
      ∀ z ∈ xs, Served s (lineOf z.pa) z.key ∧ s.poisoned z.key z.pa k.es = false) → (k.dstSpad = false → place ys (·.2) ⟨false, true, false⟩) →
    (∀ i < n, (bt.getD i (0, 0)).1 % k.es = 0 ∧ (bt.getD i (0, 0)).2 % k.es = 0) →
    (k.srcSpad = true → k.dstSpad = true → ∀ i < n, ∀ i' < n, apart (bt.getD i (0, 0)).1 (bt.getD i' (0, 0)).2) →
    (k.srcSpad = false → k.dstSpad = false → ∀ z ∈ xs, ∀ z' ∈ ys, apart z.pa z'.pa) →
    let bytes (i : Nat) : List Byte := if k.srcSpad then readBytes b.spad (bt.getD i (0, 0)).1 k.es
      else match xs[i]? with | some z => s.plainBytes cl z.key z.pa k.es | none => []
    ∃ t B', exec (.copyBeat u j) s = .next t ∧ CachesAndBlock u s t ∧ t.block? u = some B' ∧
      B' = { b with
        spad := B'.spad
        jobs := b.jobs.map fun y => if y.id = j then { y with pos := y.pos + n, watchPos := none } else y } ∧
      (k.dstSpad = true → ∀ a, sread B'.spad a
        = (storedSpad ((List.range n).map fun i => (i, (bt.getD i (0, 0)).2)) bytes a).getD (sread b.spad a)) ∧
      (k.dstSpad = false → B'.spad = b.spad) ∧
      ((∀ y ∈ s.l1, y.cluster ≠ cl → y.dirty = 0) → ∀ key pa, s.local pa = true →
        t.plainByte cl key pa = (if k.dstSpad then none else storedByte ys bytes key pa).getD (s.plainByte cl key pa))) ∧
  (∀ r b1, x.started = true → x.pos = k.total → x.token = some r → (∀ y ∈ s.requests, y.job ≠ some (u, j)) →
    (∃ G ∈ b.gangs, G.drained = false) → r < 64 →
    (k.bar = true → ({ b with spad := writeLE b.spad (k.baroff + 8) 4 (readLE b.spad (k.baroff + 8) 4 + k.total * k.es) } : Block).arrive
      k.baroff k.arrw = some b1) →
    ∃ t B', exec (.copyCompletion u j) s = .next t ∧ BlockOnly u s t ∧ t.block? u = some B' ∧
      B'.spad = (if k.bar then b1.spad else b.spad) ∧ B'.jobs = b.jobs.filter (fun y => decide (y.id ≠ j)) ∧
      (∀ i < 16, vget B'.bufs i 0 = if k.dstBuf = some i then 2 else vget b.bufs i 0) ∧
      ∀ i, B'.gangs[i]? = ((if k.bar then b1 else b).gangs[i]?).map fun G => if i ≠ x.gang then G else { G with
        s := vset G.s r (BitVec.ofNat 72 (k.total * k.es % 2 ^ 32))
        tokens := if x.lastOfInstr then G.tokens.filter (fun t => decide (t ≠ r)) else G.tokens })

/-- R92-R94, R116, R269, R278: the engine starts one mma at a time; a group adds to each element of the output tile the sum
of its sixteen products, or seeds it, rounded or wrapped as the class has it, with the overflow flag of the tile, which the
start of the job clears where its instruction says so; after its last group the token receives M × N and the job leaves its
block. Nothing watches, and the launch is not recorded. The model's own readings are in log 11, log 37. -/
def Obligations.MatrixEvents : Prop := ∀ (u j : Nat) (s : State) (b : Block) (L : Launch) (x : Job) (p : MmaPar) (cls : MmaClass),
  s.block? u = some b → s.launchOf u = some L → L.number = none → b.job? j = some x → x.kind = .mma p →
  mmaClass p.slotA.fmt p.slotB.fmt = some cls → x.want = none → x.frozen = false → x.failed = false → x.parked = false →
  x.held = false → b.stop = none → p.m ≤ 64 → p.n ≤ 64 → p.tile < 8 → swfFrom 0 b.acc = true →
  (((s.mmaQueue b.core).head?.map (·.2)) = some (u, j) → ((s.coreJobs b.core).filter fun y => y.isMma && y.started) = [] →
    ∃ t B', exec (.mmaJobStart u j) s = .next t ∧ BlockOnly u s t ∧ t.block? u = some B' ∧
      B' = { b with ovf := B'.ovf, jobs := b.jobs.map fun y => if y.id = j then { y with started := true } else y } ∧
      ∀ q < 8, B'.ovf.getLsbD q = (b.ovf.getLsbD q && !(decide (q = p.tile ∧ x.pos = 0 ∧ x.watchPos = none) && p.bs))) ∧
  (x.started = true → x.pos < mmaK p.slotA.fmt / 16 → L.r.watch = [] → (∀ y ∈ b.jobs, y.past ≠ some j) →
    let seed := p.z && decide (x.pos = 0)
    let a (i q : Nat) : Nat := elemBits b.spad p.slotA (p.abase + i * p.astr) (16 * x.pos + q) 16
    let c (q i : Nat) : Nat := elemBits b.spad p.slotB (p.bbase + (16 * x.pos + q) * p.bstr) i 8
    let floats (i i' : Nat) := (List.range 16).map fun q => (elemFloat p.slotA (a i q), elemFloat p.slotB (c q i'))
    let sum (i i' : Nat) : Int := ((List.range 16).map fun q => elemInt p.slotA (a i q) * elemInt p.slotB (c q i')).sum
    let old (i i' : Nat) : Word := sread b.acc (tileAt p.tile i i')
    let hi (i i' : Nat) : Word := sread b.acc (tileAt (p.tile + 1) i i')
    let plus (F : Fmt) (v w : Nat) : Nat := roundRn (fAdd 0 (F.value v) (F.value w)).1 F
    let dbl (i i' : Nat) : Dword := BitVec.ofNat 64
      (if seed then groupFloat true (floats i i') else plus .f64 (hi i i' ++ old i i').toNat (groupFloat true (floats i i')))
    let spills (i i' : Nat) : Prop := (old i i').toInt + sum i i' < -(2 ^ 31) ∨ 2 ^ 31 ≤ (old i i').toInt + sum i i'
    ∃ t B', exec (.mmaGroup u j) s = .next t ∧ BlockOnly u s t ∧ t.block? u = some B' ∧
      B' = { b with
        acc := B'.acc
        ovf := B'.ovf
        jobs := b.jobs.map fun y => if y.id = j then { y with pos := y.pos + 1, watchPos := none } else y } ∧
      (∀ i < 64, ∀ i' < 64, sread B'.acc (tileAt p.tile i i') = if i < p.m ∧ i' < p.n then
          (match cls with
            | .f64 => (dbl i i').setWidth 32
            | .float => BitVec.ofNat 32 (if seed then groupFloat false (floats i i')
                else plus .f32 (old i i').toNat (groupFloat false (floats i i')))
            | _ => BitVec.ofInt 32 (if seed then sum i i' else (old i i').toInt + sum i i'))
        else old i i') ∧
      (∀ i < 64, ∀ i' < 64, sread B'.acc (tileAt (p.tile + 1) i i')
        = if i < p.m ∧ i' < p.n ∧ cls = .f64 then (dbl i i').extractLsb' 32 32 else hi i i') ∧
      (∀ k, k / 4096 ≠ p.tile → k / 4096 ≠ p.tile + 1 → sread B'.acc k = sread b.acc k) ∧
      ∀ q < 8, (B'.ovf.getLsbD q = true ↔ b.ovf.getLsbD q = true ∨
        (q = p.tile ∧ (cls = .int8 ∨ cls = .i4) ∧ seed = false ∧ ∃ i < p.m, ∃ i' < p.n, spills i i'))) ∧
  (∀ r, x.started = true → x.pos = mmaK p.slotA.fmt / 16 → x.token = some r → (∃ G ∈ b.gangs, G.drained = false) →
    ∃ t B', exec (.mmaCompletion u j) s = .next t ∧ BlockOnly u s t ∧ t.block? u = some B' ∧
      B' = { b with gangs := B'.gangs, jobs := b.jobs.filter fun y => decide (y.id ≠ j) } ∧
      ∀ i, B'.gangs[i]? = (b.gangs[i]?).map fun G => if i ≠ x.gang then G else { G with
        s := vset G.s r (BitVec.ofNat 72 (p.m * p.n % 2 ^ 32))
        tokens := if x.lastOfInstr then G.tokens.filter (fun t => decide (t ≠ r)) else G.tokens })

/-- R283, R284, R287: an accumulator action that no earlier job holds back is performed and leaves its block: accread gives
each lane its two columns of its row, accwrite and apatch write them, accctl clears a tile and its flag, saves it to the
scratchpad, loads it, or reads and clears its flag. The launch is not recorded. The model's own readings are in log 34, log
37. -/
def Obligations.AccumulatorEvents : Prop := ∀ (u j tile : Nat) (op : AccOp) (s : State) (b : Block) (L : Launch) (x : Job) (G : Gang),
  s.block? u = some b → s.launchOf u = some L → L.number = none → b.job? j = some x → x.kind = .acc tile op → b.allows x = true →
  b.gangs[x.gang]? = some G → G.drained = false → G.chunk = none → tile < 8 →
  Memory.wf b.spad = true → swfFrom 0 b.acc = true →
  let cell (r c : Nat) : Word := sread b.acc (tileAt tile r c)
  ∃ t B' G', exec (.accAction u j) s = .next t ∧ BlockOnly u s t ∧ t.block? u = some B' ∧ B'.gangs[x.gang]? = some G' ∧
    (∀ i ≠ x.gang, B'.gangs[i]? = b.gangs[i]?) ∧
    B' = { b with gangs := B'.gangs, jobs := b.jobs.filter (fun y => decide (y.id ≠ j)), acc := B'.acc, ovf := B'.ovf, spad := B'.spad } ∧
    match op with
    | .read d rows => B'.acc = b.acc ∧ B'.ovf = b.ovf ∧ B'.spad = b.spad ∧
        G' = { G with lanes := G'.lanes, accRegs := (G.accRegs.erase d).erase (d + 1) } ∧
        ((rows.map (·.1)).Nodup → d + 1 < 112 → ∀ l < 32, G'.lane l = match rows.find? fun y => decide (y.1 = l) with
          | some y => ((G.lane l).setReg d (cell y.2 l)).setReg (d + 1) (cell y.2 (l + 32))
          | none => G.lane l)
    | .write cells => B'.ovf = b.ovf ∧ B'.spad = b.spad ∧ G' = G ∧ ((cells.map (·.1)).Nodup → (∀ y ∈ cells, y.1 < 32 ∧ y.2.1 < 64) →
        (∀ k, (∀ y ∈ cells, k ≠ tileAt tile y.2.1 y.1 ∧ k ≠ tileAt tile y.2.1 (y.1 + 32)) → sread B'.acc k = sread b.acc k) ∧
        ∀ y ∈ cells, sread B'.acc (tileAt tile y.2.1 y.1) = y.2.2.1.getD (cell y.2.1 y.1) ∧
          sread B'.acc (tileAt tile y.2.1 (y.1 + 32)) = y.2.2.2.getD (cell y.2.1 (y.1 + 32)))
    | .clear => B'.spad = b.spad ∧ G' = G ∧ (∀ q < 8, B'.ovf.getLsbD q = (b.ovf.getLsbD q && decide (q ≠ tile))) ∧
        ∀ k, sread B'.acc k = if k / 4096 = tile then 0 else sread b.acc k
    | .save off => B'.acc = b.acc ∧ B'.ovf = b.ovf ∧ G' = G ∧ (∀ a, (a < off ∨ off + 16384 ≤ a) → sread B'.spad a = sread b.spad a) ∧
        ∀ r < 64, ∀ c < 64, readLE B'.spad (off + 4 * (64 * r + c)) 4 = (cell r c).toNat
    | .load off => B'.spad = b.spad ∧ B'.ovf = b.ovf ∧ G' = G ∧ (∀ k, k / 4096 ≠ tile → sread B'.acc k = sread b.acc k) ∧
        ∀ r < 64, ∀ c < 64, sread B'.acc (tileAt tile r c) = BitVec.ofNat 32 (readLE b.spad (off + 4 * (64 * r + c)) 4)
    | .wait => B'.acc = b.acc ∧ B'.ovf = b.ovf ∧ B'.spad = b.spad ∧ G' = G
    | .ovf d => B'.acc = b.acc ∧ B'.spad = b.spad ∧ (∀ q < 8, B'.ovf.getLsbD q = (b.ovf.getLsbD q && decide (q ≠ tile))) ∧
        G' = { G with
          s := vset G.s d (if b.ovf.getLsbD tile then 1 else 0)
          tokens := G.tokens.filter fun r => decide (r ≠ d) }

/-! ### Queues, packets, launches -/

/-- R98, R307-R310, R312, R338: QCTL starts a stopped queue whose ring and pool are in order, and tears a running one down;
QBASE and QWIDX are written; and the command processor fetches the next packet, or halts the queue with the code that says
why. The model's own readings are in log 3, log 21, log 42. -/
def Obligations.QueueRegisters : Prop := ∀ (p q : Nat) (v : BitVec 64) (a : BitVec 128) (w : BitVec 32) (s : State),
  p < partsOf s.code → q < 64 →
  let Q := s.queue p q
  let gives (e : Instr) (Q' : Queue) := ∃ F : Queue → Queue, exec e s = .next (s.modQueue p q F) ∧ F Q = Q'
  let size := v.extractLsb' 4 6
  let coded (f : BitVec 64) (code : Nat) : BitVec 64 := f &&& 0xFFFFFFFF00000000#64 ||| BitVec.ofNat 64 code
  let halted (Q : Queue) (code : Nat) : Queue :=
    if Q.packets = [] then { Q with fault := coded Q.fault code, asked := false, st := 2, closing := none }
    else { Q with fault := coded Q.fault code, asked := false, closing := some 2 }
  (v.getLsbD 0 = true → Q.st = 0 → gives (.queueStart p q v) { Q with
    log2n := size
    policy := v.getLsbD 3
    prio := v.extractLsb' 1 2
    en := true
    ridx := if size = Q.log2n then Q.ridx else 0
    st := if 4 ≤ size.toNat ∧ size.toNat ≤ 16 ∧ Q.base.toNat % 128 = 0 ∧
        2560 * 1024 * (s.workingCores p).length ≤ (s.part p).ctxSize.toNat / 2 ^ 16 * 2 ^ 16 then 1 else 0 }) ∧
  (v.getLsbD 0 = true → Q.st ≠ 0 → exec (.queueStart p q v) s = .next s) ∧
  (v.getLsbD 0 = false → Q.st = 2 → gives (.queueTeardown p q v) { Q with en := false, st := 0 }) ∧
  (v.getLsbD 0 = false → Q.st = 1 → Q.policy = false →
    let kept := Q.packets.filter fun k => decide (k.typ ≠ 2) || !k.launched
    gives (.queueTeardown p q v) { Q with
      en := false
      packets := kept
      fault := coded Q.fault 6
      st := if kept = [] ∧ Q.asked = false then 0 else 3
      closing := if kept = [] ∧ Q.asked = false then none else some 0 }) ∧
  (Q.st = 0 → gives (.qbaseWrite p q a) { Q with base := a.setWidth 72, ridx := 0 }) ∧
  (Q.st ≠ 0 → exec (.qbaseWrite p q a) s = .next s) ∧
  gives (.qwidxWrite p q w) { Q with widx := w } ∧
  (s.mayFetch p q = true → Q.policy = false → s.remote = [] → (∀ r ∈ s.requests, r.msg.kind ≠ 1 ∨ r.stale = true) →
    (2 ^ Q.log2n.toNat < (Q.widx - Q.ridx).toNat → Q.asked = false → gives (.packetFetch p q) (halted Q 3)) ∧
    (∀ bs, ((Q.widx - Q.ridx).toNat ≤ 2 ^ Q.log2n.toNat ∨ Q.asked = true) →
      let at_ := (Q.base.toNat + 128 * (Q.ridx.toNat % 2 ^ Q.log2n.toNat)) % 2 ^ 72
      s.virtCheck p at_ 128 ⟨true, false, false⟩ = none → s.virtMissing p at_ 128 ⟨true, false, false⟩ = [] →
      s.virtBytes p at_ 128 ⟨true, false, false⟩ = .ok bs →
      let Q1 : Queue := { Q with
        asked := false
        ridx := Q.ridx + 1
        fault := Q.fault &&& 0xFF#64 ||| (Q.ridx.setWidth 64 <<< 32) }
      (fieldAt bs 4 4 ≠ Q.ridx.toNat → Q.closing = none → gives (.packetFetch p q) (halted Q1 2)) ∧
      (fieldAt bs 4 4 = Q.ridx.toNat → malformedPacket bs = true → Q.closing = none → gives (.packetFetch p q) (halted Q1 1)) ∧
      (fieldAt bs 4 4 = Q.ridx.toNat → malformedPacket bs = false → ∃ k : Packet, gives (.packetFetch p q)
        { Q1 with packets := Q.packets ++ [k] } ∧ k.idx = Q.ridx.toNat ∧ k.typ = fieldAt bs 0 1 ∧
          k.barrier = (bs.getD 1 0).getLsbD 0 ∧ k.bytes = bs ∧ k.launched = false)))

/-- R310, R311, R313, R314: what a packet does when its turn comes: LAUNCH dispatches the launch of its record, or enters it
as rejected; WAITSIG completes once its condition holds, at its first read or a later one; SETSIG writes or adds; MARK notes
its value and the time; FLUSH leaves no dirty byte in the partition, with an acquire no copy. After a SETSIG every waiting
WAITSIG reads its signal again. Its addresses lie on this device, no L1 holds a dirty byte at a SETSIG, and the launch is
not to be recorded. The model's own readings are in log 21, log 42. -/
def Obligations.PacketResults : Prop := ∀ (p q : Nat) (k : Packet) (s : State),
  p < partsOf s.code → q < 64 → s.remote = [] → s.requests = [] → (s.queue p q).closing = none →
  let Q := s.queue p q
  let read (va n : Nat) (bs : List Byte) : Prop := s.virtCheck p va n ⟨true, false, false⟩ = none ∧
    s.virtMissing p va n ⟨true, false, false⟩ = [] ∧ s.virtBytes p va n ⟨true, false, false⟩ = .ok bs
  let done (Q : Queue) : Queue := { Q with packets := Q.packets.filter (fun x => x.launched && decide (x.typ ≠ 2)), asked := false }
  let started (Q : Queue) : Queue :=
    { Q with asked := false, packets := Q.packets.map fun x => if x.idx = k.idx then { x with launched := true } else x }
  (s.actsOn p q 4 = some k → ∃ F : Queue → Queue, exec (.mark p q) s = .next (s.modQueue p q F) ∧
    F Q = done { Q with mark := BitVec.ofNat 64 (fieldAt k.bytes 0x08 8), mtime := BitVec.ofNat 64 s.time }) ∧
  (s.actsOn p q 2 = some k → ∀ bs, read (fieldAt k.bytes 0x08 9) 8 bs →
    let v := fieldAt k.bytes 0x20 8
    let holds : Prop := (fieldAt k.bytes 0x18 1 = 0 ∧ ofBytes bs = v) ∨ (fieldAt k.bytes 0x18 1 = 1 ∧ ofBytes bs ≠ v) ∨
      (fieldAt k.bytes 0x18 1 = 2 ∧ v ≤ ofBytes bs) ∨ (3 ≤ fieldAt k.bytes 0x18 1 ∧ ofBytes bs < v)
    ∀ e ∈ [if k.launched then Instr.signalReread p q else Instr.waitsig p q], ∃ F : Queue → Queue,
      exec e s = .next (s.modQueue p q F) ∧ (holds → F Q = done Q) ∧ (¬ holds → F Q = started Q)) ∧
  (s.actsOn p q 3 = some k → ∀ pa key, s.place .device p (fieldAt k.bytes 0x08 9) ⟨true, true, false⟩ = .ok pa key → s.local pa = true →
    pa % 8 = 0 → noDirty s → Served s (lineOf pa) key → s.poisoned key pa 8 = false →
    let v := fieldAt k.bytes 0x20 8
    ∃ t : State, exec (.setsig p q) s = .next t.rereadSignals ∧ t.queue p q = done Q ∧ t.blocks = s.blocks ∧
      ofBytes (t.bytesAt key pa 8)
        = (if fieldAt k.bytes 0x18 1 = 0 then v else (ofBytes (s.bytesAt key pa 8) + v) % 2 ^ 64) ∧
      ∀ key' x, (key' = key → x < pa ∨ pa + 8 ≤ x) → t.byteAt key' x = s.byteAt key' x) ∧
  (s.actsOn p q 5 = some k → s.dieFailed = 0 → (∀ y ∈ s.l1, s.local (y.line * 128) = true) → linesOnce s →
    ∃ t, exec (.flush p q) s = .next t ∧ t.queue p q = done Q ∧
    (noDirty s → SameBytes s t) ∧
    ∀ y ∈ t.l1, y.cluster ∈ s.clusters p → y.dirty = 0 ∧ fieldAt k.bytes 0x08 1 = 0) ∧
  (s.actsOn p q 1 = some k → ∀ bs, let addr := fieldAt k.bytes 0x08 9
    read addr 512 bs → fieldAt bs 0x90 9 % 128 = 0 → s.virtCheck p (fieldAt bs 0x90 9) 0x4000 ⟨false, true, false⟩ = none →
    (s.part p).rrEn = false → (∀ L ∈ s.launches, L.id < s.nextId) →
    let s1 := if Q.asked then s else s.acquireRemote.modQueue p q fun Q => { Q with asked := true }
    ∀ d, s1.launchData p bs = (s1, some d) →
    ∃ t L, exec (.launch p q) s = .next t ∧ t.launches = s.launches ++ [L] ∧ t.nextId = s.nextId + 1 ∧ t.queue p q = started Q ∧
      t.blocks = s.blocks ∧ SameBytes s t ∧
      L.id = s.nextId ∧ L.part = p ∧ L.queue = q ∧ L.packet = k.idx ∧ L.prio = Q.prio.toNat ∧ L.dispatched = s.time ∧
      L.r = readRecord (BitVec.ofNat 72 addr) bs d ∧ L.signal = BitVec.ofNat 72 (fieldAt k.bytes 0x18 9) ∧
      L.sigadd = BitVec.ofNat 64 (fieldAt k.bytes 0x28 8) ∧ L.next = 0 ∧ L.done = 0 ∧ L.number = none ∧
      match rejection bs d false with
        | some x => L.status = 3 ∧ L.reject = some x
        | none => L.status = 0 ∧ L.reject = none ∧ L.positions = if L.r.det then s.workingCores p else [])

/-- R311, R315, R323, R399: a launch that has ended gets its completion record, its STATUS written last; then SIGADD is
added to its signal, after which the waiting WAITSIGs read theirs again, and it leaves with its packet. A quadrant's trace
record goes to the next place of the buffer, and its counters restart. The model's own readings are in log 20, log 35. -/
def Obligations.LaunchEnd : Prop := ∀ (a core quad : Nat) (final : Bool) (s : State) (L : Launch),
  s.launch? a = some L → (s.launches.filter fun M => decide (M.id = a)) = [L] →
  (s.completes L = true → noDirty s → s.remote = [] → s.requests = [] → L.number = none → L.queue < 64 → L.part < 4 →
    (∀ x ∈ (s.part L.part).frames, x.bytes = [] ∧ x.kept = []) →
    let va := L.r.completion.toNat
    let status : Nat := if L.status ≠ 0 then L.status else if L.stalls = 0 then 1 else 2
    (L.recordWritten = false → s.virtCheck L.part va 0x4000 ⟨false, true, false⟩ = none →
      let bs := bytesOf 4 status ++ L.completionBytes s.time
      (∃ t, exec (.launchCompletion a) s = .next t ∧ t.launch? a = some { L with recordWritten := true } ∧
        SameBytes ((s.virtWrite L.part ((va + 4) % 2 ^ 72) (bs.drop 4)).virtWrite L.part va (bs.take 4)) t) ∧
      fieldAt bs 0 4 = status % 2 ^ 32 ∧ fieldAt bs 8 8 = L.dispatched % 2 ^ 64 ∧ fieldAt bs 0x10 8 = s.time % 2 ^ 64 ∧
      fieldAt bs 0x18 4 = L.stalls % 2 ^ 32 ∧ fieldAt bs 0x1C 4 = L.spcount % 2 ^ 32 ∧ fieldAt bs 0x20 8 = L.detLine % 2 ^ 64 ∧
      ∀ f, L.fault = some f → fieldAt bs 0x40 8 = f.cause % 2 ^ 64 ∧ fieldAt bs 0x60 8 = f.tpc.toNat) ∧
    (L.recordWritten = true → L.signal = 0 → ∃ t, exec (.launchCompletion a) s = .next t ∧ SameBytes s t ∧
      t.launches = s.launches.filter (fun M => decide (M.id ≠ a)) ∧
      ∀ x ∈ (t.queue L.part L.queue).packets, ¬ (x.launched = true ∧ x.idx = L.packet)) ∧
    (L.recordWritten = true → L.signal ≠ 0 → ∀ pa key, s.place .device L.part L.signal.toNat ⟨true, true, false⟩ = .ok pa key →
      s.local pa = true → pa % 8 = 0 → Served s (lineOf pa) key → s.poisoned key pa 8 = false →
      ∃ t : State, exec (.launchCompletion a) s = .next t.rereadSignals ∧ t.launches = s.launches.filter (fun M => decide (M.id ≠ a)) ∧
        ofBytes (t.bytesAt key pa 8) = (ofBytes (s.bytesAt key pa 8) + L.sigadd.toNat) % 2 ^ 64)) ∧
  (s.traceDue L core quad final = true → L.traceSuspended = false → L.traceEnded = false → 1024 ≤ L.r.traceLen →
    ∀ z, (s.quads.find? fun x => decide (x.core = core ∧ x.quad = quad)) = some z →
    let rec_ := z.record s.time final
    let place := (L.r.trace.toNat + 512 + 512 * (L.traceNext % (L.r.traceLen / 512 - 1))) % 2 ^ 72
    let put := s.virtWrite L.part place (rec_ ++ List.replicate (512 - rec_.length) 0)
    s.virtCheck L.part place 512 ⟨false, true, false⟩ = none → put.virtCheck L.part L.r.trace.toNat 512 ⟨false, true, false⟩ = none →
    ∃ t L', exec (.traceRecord a core quad final) s = .next t ∧ t.launch? a = some L' ∧
      L' = { L with traceNext := L.traceNext + 1, traceQuads := L'.traceQuads } ∧
      SameBytes (put.virtWrite L.part L.r.trace.toNat (bytesOf 8 (L.traceNext + 1) ++ bytesOf 8 L.traceLost ++ bytesOf 8 L.traceSusp
        ++ List.replicate 488 0)) t ∧
      L'.traceQuads = (if final then L.traceQuads.filter fun x => !decide (x.1 = core ∧ x.2.1 = quad)
        else L.traceQuads.map fun x => if x.1 = core ∧ x.2.1 = quad then (core, quad, s.time) else x) ∧
      (∀ x ∈ t.quads, x.core = core → x.quad = quad → (∀ e < 17, vget x.elig e 0 = 0) ∧ ∀ e < 48, vget x.stall e 0 = 0))

/-! ### Translations, keys and the control window -/

/-- R3, R344, R348, R349, R351, R355, R356: a walk that ends in a valid leaf stays with the core's second level, which then
translates as the walk did; TINVAL drops the translations of a page, or all, of the partition, and reads BUSY until the
accesses under way are over; FRESUME lets every parked access of the partition walk again; a retired key leaves no
translation, no cached line and no owner, and what its lines held stands in HBM4; a register of the window takes what is
written, under the mask of its fields, and a register that an unstopped partition may not change keeps its value. The
model's own readings are in log 23, log 26, log 52. -/
def Obligations.ControlWindow : Prop := ∀ (p core : Nat) (va : BitVec 72) (v : BitVec 64) (s : State), p < partsOf s.code →
  let whole := BitVec.allOnes 64
  let free := [(0x1110, whole), (0x1118, 0xFF#64), (0x1120, 0xFFFFFFFFFF000#64), (0x1218, whole), (0x1308, whole), (0x1310, 0xFF#64),
    (0x1318, whole), (0x1320, whole), (0x1328, whole)]
  let guarded := [(0x1000, 0xFFFFFFFFFFFF0000#64), (0x1008, 0xFF#64), (0x1010, 0xFFFFFFFFFFFF0000#64), (0x1100, 0xFFFFFFFFE0000#64),
    (0x1200, 0xFFFFFFC000000#64)]
  let sets (off : Nat) (place : Nat) (x : Nat) := ∃ t, exec (.registerWrite p off v) s = .next t ∧ t = { s with parts := t.parts } ∧
    (t.part p).readUnit place = x ∧
    ∀ o ≠ place, (o = 0x1330 → place < 0x1320 ∨ (s.part p).rpBrk = false) → (t.part p).readUnit o = (s.part p).readUnit o
  (∀ pa key level r w x, s.tlbFind core none p va.toNat = none → s.walkBy (.job core) p va.toNat = .ok pa key level r w x →
    ∃ t, exec (.tableWalk core p va) s = .next t ∧ t = { s with tlb := t.tlb, tables := t.tables, freeCtr := t.freeCtr } ∧
      t.translate (.job core) p va.toNat = .ok pa key level r w x ∧
      ((s.tlb.filter fun y => decide (y.core = core ∧ y.quad = none)).length < 2048 →
        t.tlb = s.tlb ++ [{ core, quad := none, part := p, level, va := va.toNat, pa, key, r, w, x }])) ∧
  (v.getLsbD 0 = true → (s.part p).tinvalBusy = false →
    let level := (v.extractLsb' 2 2).toNat
    let covered (x : TlbEntry) : Prop := x.part = p ∧
      (v.getLsbD 1 = true ∨ x.level = level ∧ x.va / 2 ^ (16 + 14 * level) = (s.part p).tiva.toNat / 2 ^ (16 + 14 * level))
    ∀ e ∈ [if v.getLsbD 1 then Instr.tinvalAll p v else Instr.tinvalPage p v], ∃ t, exec e s = .next t ∧
      t = { s with tlb := t.tlb, tables := [], parts := t.parts } ∧ (∀ x, x ∈ t.tlb ↔ x ∈ s.tlb ∧ ¬ covered x) ∧
      t.part p = { s.part p with tinvalAll := v.getLsbD 1, tinvalLevel := v.extractLsb' 2 2, tinvalBusy := true }) ∧
  (v.getLsbD 0 = true → (s.part p).tinvalBusy = true → exec (.tinvalAll p v) s = .next s ∧ exec (.tinvalPage p v) s = .next s) ∧
  ((s.part p).tinvalBusy = true → s.accessesSettled p = true → ∃ t, exec (.invalidationComplete p) s = .next t ∧
    t = { s with parts := t.parts } ∧ t.part p = { s.part p with tinvalBusy := false }) ∧
  (v.getLsbD 0 = false → exec (.fresume p v) s = .next s) ∧
  (v.getLsbD 0 = true → ∃ t, exec (.fresume p v) s = .next t ∧
    t = { s with blocks := t.blocks, launches := t.launches, parts := t.parts, conns := t.conns } ∧
    (t.part p).frOvf = 0 ∧ (t.part p).frPages = [] ∧ (t.part p).rpParked = false ∧
    t.conns = s.conns.map (fun C => if C.part = p then { C with parked := false } else C) ∧
    (∀ q < 64, t.queue p q = { s.queue p q with parked := false }) ∧
    (∀ (k : Nat) (M : Launch), s.launches[k]? = some M → t.launches[k]? = some (if M.part = p then
      { M with parked := false, traceSuspended := false, saved := M.saved.map fun x => ({ x.1 with parked := false }, x.2) } else M)) ∧
    ∀ (k : Nat) (b : Block), s.blocks[k]? = some b → ∃ b' : Block, t.blocks[k]? = some b' ∧
      b' = { b with gangs := b'.gangs, jobs := b'.jobs, parked := b'.parked } ∧
      (s.blockOf p b.uid = true → b'.parked = false ∧ b'.jobs = b.jobs.map (fun j => { j with parked := false }) ∧
        b'.gangs = b.gangs.map fun G =>
          { G with parked := G.parked.bind fun y => if y.kind = 0 then none else some y }) ∧
      (s.blockOf p b.uid = false → b' = b)) ∧
  (v.getLsbD 8 = true → (s.part p).keyBusy = false →
    let k := v.extractLsb' 0 8
    (k ≠ 0 → (s.part p).keyOwn.getLsbD k.toNat = true → ∃ t, exec (.keyRetire p v) s = .next t ∧
      t = { s with tlb := t.tlb, parts := t.parts } ∧ t.part p = { s.part p with keyRet := k, keyBusy := true } ∧
      (∀ x, x ∈ t.tlb ↔ x ∈ s.tlb ∧ x.key ≠ k.toNat) ∧ (t.part p).ownsKey k.toNat = false) ∧
    (k = 0 ∨ (s.part p).keyOwn.getLsbD k.toNat = false → exec (.keyRetire p v) s = .next s)) ∧
  ((s.part p).keyBusy = true → s.accessesSettled p = true → s.remote = [] → noDirty s → memOk s → (∀ x ∈ s.l2, x.die < 4) →
    let k := (s.part p).keyRet.toNat
    ∃ t, exec (.keyRetireComplete p) s = .next t ∧ t.blocks = s.blocks ∧ t.launches = s.launches ∧
      t.part p = { s.part p with keyBusy := false, keyOwn := (s.part p).keyOwn &&& ~~~ BitVec.twoPow 256 k } ∧
      t.mgmt.keysUsed = s.mgmt.keysUsed &&& ~~~ BitVec.twoPow 256 k ∧
      (∀ x ∈ t.l1, x.key ≠ k) ∧ (∀ x ∈ t.l2, x.key ≠ k) ∧ (∀ x ∈ t.l3, x.key ≠ k) ∧ (∀ x ∈ t.dir, x.key ≠ k) ∧
      ((∀ x ∈ s.l3, x.key = k → s.local (x.line * 128) = true ∧ ∀ y ∈ s.l3, y.key = k → y.line = x.line → y = x) →
        ∀ x ∈ s.l3, x.key = k → x.dirty = true →
          (t.line x.line).key = k ∧ ∀ i < 128, t.byteAt k (x.line * 128 + i) = lineByte x.data i)) ∧
  ((∀ r ∈ free, sets r.1 r.1 (v &&& r.2).toNat) ∧
    ((s.part p).idle = true → ∀ r ∈ guarded, sets r.1 r.1 (v &&& r.2).toNat) ∧
    ((s.part p).idle = false → ∀ r ∈ guarded, exec (.registerWrite p r.1 v) s = .next s) ∧
    ∀ off ∈ [0x1110, 0x1218, 0x1308, 0x1318, 0x1320, 0x1328],
      sets (off + 4) off (v.toNat % 2 ^ 32 * 2 ^ 32 + (s.part p).readUnit off % 2 ^ 32))

/-! ### Homes -/

/-- R360, R362, R364, R366, R370, R371: a GetS or GetM of a working die opens a transaction at a line's home, which awaits
the owner's answer or that of every other die that the entry names; while a transaction is in progress the request is held
behind it; the one that makes the line contended has every copy given up and a record kept. An entry that cannot be read has
every copy given up before. Data is granted for writing once every answer has come, for reading beside no other writer: E
alone, S beside others; with no answer due the transaction ends. The message's line has its home's set with room, and no
request waits behind the one that ends. The model's own readings are in log 8, log 24. -/
def Obligations.HomeRequests : Prop := ∀ (n a : Nat) (s : State), s.dieUp a = true →
  let line := msgLine n
  let key := msgKey n
  let d := agentDie a
  let e := s.entry line key
  let state := s.l2st d line key
  let others := e.sharers &&& ~~~ BitVec.twoPow 4 d
  let moves := recentMoves e.moves s.time ++ [(s.time, d)]
  let contends : Prop := (∃ o, s.ownerOf line key = some o ∧ o ≠ d) ∧ contended moves s.time = true ∧ s.privUsed (sliceOf line) < 64
  let asks (m : Bool) : Prop := (m = false → state = .i) ∧ (m = true → state ≠ .m ∧ state ≠ .e)
  let message (m : Bool) : Instr := if m then .getM n a else .getS n a
  let rest (t : State) : Prop := ∀ line' key', ¬ (line' = line ∧ key' = key) → t.entry line' key' = s.entry line' key'
  (∀ m, asks m →
    (e.bad = true → let z := s.directoryError line key
      exec (message m) s = exec (message m) z ∧ (z.entry line key).bad = false ∧ (z.entry line key).st = .i ∧
      ∀ k < 4, z.l2st k line key = .i) ∧
    (Served s line key → e.st ≠ .busy → e.st ≠ .p →
      (s.dir.filter fun x => decide (sliceOf x.line = sliceOf line ∧ x.line % 1024 = line % 1024)).length < 16 →
      (¬ (m = true ∧ contends) → ∃ t, exec (message m) s = .next t ∧ t = { s with dir := t.dir } ∧ rest t ∧
        (t.entry line key).st = .busy ∧ (t.entry line key).req = some (a, m) ∧ (t.entry line key).sharers = e.sharers ∧
        (m = true → (t.entry line key).acks = ((List.range 4).filter fun k => others.getLsbD k).length) ∧
        (m = false → (t.entry line key).acks = if (s.ownerOf line key).isSome then 1 else 0)) ∧
      (m = true → contends → ∃ t, exec (message m) s = .next t ∧ (∀ k < 4, t.l2st k line key = .i) ∧
        (t.entry line key).st = .busy ∧ (t.entry line key).req = some (a, true) ∧ (t.entry line key).priv = true ∧
        (t.entry line key).moves = moves)) ∧
    (e.st = .busy → e.bad = false → s.dieFailed = 0 → (∀ r ∈ e.req, s.dieUp r.1 = true) → e.req ≠ some (a, m) → (a, m) ∉ e.held →
      ∃ t, exec (message m) s = .next t ∧ t = { s with dir := t.dir } ∧ rest t ∧
        t.entry line key = { e with held := e.held ++ [(a, m)], used := s.tick })) ∧
  (∀ m, e.req = some (a, m) → e.st = .busy → e.priv = false → (m = true → e.acks = 0) →
    (m = false → ∀ k < 4, k ≠ d → s.l2st k line key ≠ .e ∧ s.l2st k line key ≠ .m) → (e.acks = 0 → e.held = []) →
    ∃ t, exec (.data n a m) s = .next t ∧ t = { s with l2 := t.l2, l3 := t.l3, dir := t.dir } ∧ SameBytes s t ∧
      t.l2st d line key = (if m then .m else if state ≠ .i then state else if others = 0 then .e else .s) ∧
      (∀ k ≠ d, ∀ line' key', t.l2st k line' key' = s.l2st k line' key') ∧
      (e.acks ≠ 0 → t.dir = s.dir) ∧
      (e.acks = 0 → (t.entry line key).req = none ∧ (t.entry line key).st ≠ .busy ∧
        (m = true → (t.entry line key).st = .m ∧ (t.entry line key).owner = BitVec.ofNat 2 d)))

/-- R358, R359, R361-R365: a forward for reading leaves a clean owner in S and a dirty one in O; a forward for writing, an
invalidation, a recall, a back-invalidation, and a release of an own copy in E, M, O or P leave the die without the line.
What a die gives up takes with it the dirty bytes of its clusters that its L2 may merge: all in E or M, those of its own
mask in P. An entry at rest then says what the L2s hold, while that of a transaction stays as it is. The model's own
readings are in log 8. -/
def Obligations.HomeForwards : Prop := ∀ (n o' a : Nat) (s : State), s.dieUp a = true → s.dieUp o' = true → linesOnce s →
  let line := msgLine n
  let key := msgKey n
  let o := agentDie o'
  let d := agentDie a
  let e := s.entry line key
  let pending (k : Nat) := s.pendingMask k line key
  let merged (k : Nat) (t : State) : Prop := let may := (s.l2line k line key).mayMerge
    (∀ y ∈ t.l1, y.cluster / 8 = k → y.line = line → y.key = key → y.dirty &&& may = 0) ∧
    (∀ x ∈ s.l1, x.cluster / 8 = k → x.line = line → x.key = key → s.local (line * 128) = true →
      (∀ y ∈ s.l1, y.cluster / 8 = k → y.line = line → y.key = key → y = x ∨ y.dirty = 0) →
      ∀ i < 128, t.byteAt key (line * 128 + i)
        = if (x.dirty &&& may).getLsbD i then lineByte x.data i else s.byteAt key (line * 128 + i)) ∧
    (pending k &&& may = 0 → SameBytes s t)
  let gives (k : Nat) (i : Instr) := ∃ t, exec i s = .next t ∧
    t = { s with l1 := t.l1, l2 := t.l2, l3 := t.l3, writes := t.writes, dir := t.dir, lines := t.lines, floor := t.floor, remote := t.remote } ∧
    merged k t ∧ t.l2st k line key = .i ∧ (∀ k' ≠ k, ∀ line' key', t.l2st k' line' key' = s.l2st k' line' key') ∧
    (e.st = .busy → t.dir = s.dir) ∧
    (e.st ≠ .busy → (∀ k' < 4, k' ≠ k → s.l2st k' line key = .i) → (t.entry line key).st = .i)
  (e.st = .busy → e.req = some (a, false) → s.ownerOf line key = some o → ∃ t, exec (.fwdS n o' a) s = .next t ∧
    t = { s with l1 := t.l1, l2 := t.l2, l3 := t.l3, writes := t.writes, lines := t.lines, floor := t.floor, remote := t.remote } ∧
    merged o t ∧ t.l2st o line key = (if s.l2st o line key = .e ∧ pending o = 0 then .s else .o) ∧
    ∀ k ≠ o, ∀ line' key', t.l2st k line' key' = s.l2st k line' key') ∧
  (e.st = .busy → e.req = some (a, true) → s.ownerOf line key = some o → o ≠ d → gives o (.fwdM n o' a)) ∧
  (∀ r, e.st = .busy → e.req = some (r, true) → agentDie r ≠ d → e.sharers.getLsbD d = true → s.l2st d line key = .s → gives d (.inv n a)) ∧
  (s.l2st d line key ≠ .i → e.st ≠ .busy → gives d (.recall n a) ∧ gives d (.backInv n a)) ∧
  (s.l2st d line key = .e → pending d = 0 → gives d (.putE n a)) ∧
  (s.l2st d line key = .m ∨ s.l2st d line key = .o ∨ s.l2st d line key = .e ∧ pending d ≠ 0 → gives d (.putM n a)) ∧
  (s.l2st d line key = .p → gives d (.putP n a))

/-- R364, R366, R367: the home counts an answer of a die that the entry names: of a sharer that holds the line no more, or
of the owner that has forwarded it; the last one ends a transaction whose requester has its data. A die that a contended
line's home has asked answers with the mask of its pending writes; once all have answered, disjoint masks privatise the
line, each holder with its own mask and with the union of the others', and masks that overlap leave it under the table; a
holder gets further bytes that nobody else has, and every other holder learns of them; a write that overlaps merges the line
into one modified copy. The model's own readings are in log 8. -/
def Obligations.HomeAcknowledgements : Prop := ∀ (n a : Nat) (m : BitVec 128) (s : State), s.dieUp a = true →
  let line := msgLine n
  let key := msgKey n
  let d := agentDie a
  let e := s.entry line key
  let x := s.l2line d line key
  let taken := (List.range 4).foldl (fun z k => if k = d then z else z ||| (s.l2line k line key).own) (0 : BitVec 128)
  let hasData (r : Nat × Bool) : Prop := if r.2 then s.l2st (agentDie r.1) line key = .m else s.l2st (agentDie r.1) line key ≠ .i
  let counts (i : Instr) (r : Nat × Bool) (left : BitVec 4) := ∃ t, exec i s = .next t ∧
    (1 < e.acks ∨ ¬ hasData r → t = { s with dir := t.dir } ∧
      t.entry line key = { e with acks := e.acks - 1, sharers := left, used := s.tick }) ∧
    (e.acks = 1 → hasData r → e.priv = false → e.held = [] → t = { s with dir := t.dir } ∧
      (t.entry line key).req = none ∧ (t.entry line key).st ≠ .busy)
  (∀ r, e.st = .busy → 0 < e.acks → e.sharers.getLsbD d = true → e.req = some r →
    (r.2 = true → agentDie r.1 ≠ d → s.l2st d line key = .i →
      counts (.invAck n a) r (e.sharers &&& ~~~ BitVec.twoPow 4 d) ∧
      (e.owner.toNat = d → counts (.fwdAck n a) r (e.sharers &&& ~~~ BitVec.twoPow 4 d))) ∧
    (r.2 = false → e.owner.toNat = d → s.l2st d line key ≠ .e → s.l2st d line key ≠ .m → counts (.fwdAck n a) r e.sharers)) ∧
  (x.st ≠ .p → e.priv = true → e.st = .busy → d ∈ s.maskDies e → m = s.pendingMask d line key → (∀ y ∈ e.masks, y.1 ≠ d) →
    ∃ t, exec (.maskReq n a m) s = .next t ∧ t = { s with dir := t.dir } ∧
      t.entry line key = { e with masks := e.masks ++ [(d, m)], used := s.tick }) ∧
  (e.priv = true → e.st = .busy → (∀ k ∈ s.maskDies e, ∃ y ∈ e.masks, y.1 = k) →
    (∀ own, (e.masks.find? fun y => decide (y.1 = d)) = some (d, own) → e.masks.Pairwise (fun y z => y.2 &&& z.2 = 0) → e.held = [] →
      ∃ t, exec (.maskGrant n a) s = .next t ∧ t = { s with l2 := t.l2, l3 := t.l3, dir := t.dir } ∧ SameBytes s t ∧
      (let rest := (e.masks.filter fun y => decide (y.1 ≠ d)).foldl (fun z y => z ||| y.2) (0 : BitVec 128)
       t.l2line d line key = { die := d, line := line, key := key, st := .p, own := own, foreign := rest,
                               clk := Vector.ofFn fun p => s.homeClocks p.val line key }) ∧
      ((∀ y ∈ e.masks, y.1 ≠ d → s.l2st y.1 line key = .p) →
        (t.entry line key).st = .p ∧ (t.entry line key).priv = true ∧ (t.entry line key).req = none)) ∧
    (¬ e.masks.Pairwise (fun y z => y.2 &&& z.2 = 0) → ∃ t, exec (.maskGrant n a) s = .next t ∧
      t = { s with dir := t.dir } ∧ t.entry line key = { e with priv := false, masks := [], used := s.tick })) ∧
  (x.st = .p → Served s line key → m &&& taken = 0 → ∃ t, exec (.maskReq n a m) s = .next t ∧ t = { s with l2 := t.l2 } ∧
    t.l2line d line key = { x with own := x.own ||| m } ∧
    (m &&& ~~~ x.own ≠ 0 → ∀ k < 4, k ≠ d → (s.l2line k line key).st = .p → t.l2line k line key =
      { s.l2line k line key with foreign := (s.l2line k line key).foreign ||| m })) ∧
  (x.st = .p → Served s line key → s.ownerOf line key = none → m &&& taken ≠ 0 → m &&& ~~~ x.own ≠ 0 →
    ∃ t, exec (.maskReq n a m) s = .next t ∧ t.l2st d line key = .m ∧
      (∀ k < 4, k ≠ d → t.l2st k line key = .i) ∧ (t.entry line key).st = .m ∧ (noDirty s → SameBytes s t)) ∧
  (x.st = .p → m &&& ~~~ taken = 0 → ∃ t, exec (.maskUpd n a m) s = .next t ∧ t = { s with l2 := t.l2 } ∧
    t.l2line d line key = { x with foreign := x.foreign ||| m })

/-! ### Failures, repair, power -/

/-- R319, R370, R372, R112: a die that fails loses its caches, and its blocks are asked to move; one that is readmitted is
named by no entry, its caches are empty and its incarnation is the next. An uncorrectable error poisons its pieces with
source 3. The dirty bytes that a failed die's or slice's L1s held are poisoned, with source 1 or 3; no byte changes. No
atomic is on its way. The model's own readings are in log 8, log 41, log 43, log 53. -/
def Obligations.CacheFailures : Prop := ∀ (d line cluster pos : Nat) (pieces : BitVec 16) (s : State),
  let notes (t : State) (kind result unit : Nat) : Prop := ∃ r, t.mgmt = { s.mgmt with
    l1Out := t.mgmt.l1Out
    records := (s.mgmt.records ++ [r]).drop (s.mgmt.records.length + 1 - 4096) } ∧
    r.time = s.time ∧ r.kind = kind ∧ r.result = result ∧ r.unit = unit
  let poisons (t : State) (x : L1Line) (src : BitVec 2) : Prop := ∀ i < 128, x.dirty.getLsbD i = true →
    if s.local (x.line * 128) then (t.poisonBits x.line x.key).getLsbD (i / 8) = true ∧ t.poisonSrc x.line x.key = src
    else (t.line x.line).poison.getLsbD (i / 8) = true ∧ (t.line x.line).psrc = src
  (∀ b ∈ s.blocks, ∀ G ∈ b.gangs, G.mau = []) →
  (d < 4 → s.dieFailed.getLsbD d = false → ∃ t, exec (.dieFailure d) s = .next t ∧
    t = { s with dieFailed := t.dieFailed, l1 := t.l1, l3 := t.l3, lines := t.lines, tlb := t.tlb, tables := t.tables, blocks := t.blocks,
                 launches := t.launches, mgmt := t.mgmt } ∧ SameBytes s t ∧ (∀ x ∈ s.l1, x.cluster / 8 = d → poisons t x 1) ∧
    t.dieFailed = s.dieFailed ||| BitVec.twoPow 4 d ∧ (∀ x, x ∈ t.l1 ↔ x ∈ s.l1 ∧ x.cluster / 8 ≠ d) ∧ notes t 6 2 d ∧
    ∀ (k : Nat) (b : Block), s.blocks[k]? = some b → t.blocks[k]? = some (if b.core / 64 = d ∧ b.stop = none then
      { b with stop := some s.time } else b)) ∧
  (d < 4 → s.dieFailed.getLsbD d = true → ∃ t, exec (.dieReadmit d) s = .next t ∧ t.mem = s.mem ∧ t.blocks = s.blocks ∧
    t.dieFailed = s.dieFailed &&& ~~~ BitVec.twoPow 4 d ∧
    vget t.dieInc d 0 = vget s.dieInc d 0 + 1 ∧ (∀ k < 4, k ≠ d → vget t.dieInc k 0 = vget s.dieInc k 0) ∧
    (∀ line key, (t.entry line key).sharers.getLsbD d = false ∧ t.l2st d line key = .i) ∧ (∀ x ∈ t.l1, x.cluster / 8 ≠ d) ∧
    notes t 6 1 d) ∧
  (s.local (line * 128) = true → offOf (line * 128) < hbmLimit → pieces ≠ 0 → ∃ t, exec (.uncorrectableError line pieces) s = .next t ∧
    t = { s with l3 := t.l3, lines := t.lines, mgmt := t.mgmt } ∧ SameBytes s t ∧
    t.line line = { s.line line with poison := (s.line line).poison ||| pieces, psrc := 3 } ∧
    (∀ key, t.poisonBits line key = s.poisonBits line key ||| pieces ∧ t.poisonSrc line key = 3) ∧
    (∀ n ≠ line, t.line n = s.line n) ∧ notes t 7 3 (sliceOf line)) ∧
  (cluster < 32 → pos < 8 → (cluster, pos) ∉ s.mgmt.l1Out → ∃ t, exec (.l1SliceFailure cluster pos) s = .next t ∧
    t = { s with l1 := t.l1, l3 := t.l3, lines := t.lines, mgmt := t.mgmt } ∧ SameBytes s t ∧ t.mgmt = { s.mgmt with l1Out := (cluster, pos) :: s.mgmt.l1Out } ∧
    ∀ x ∈ s.l1, x.cluster = cluster → s.slicePos cluster (x.line % 8) = pos → x ∉ t.l1 ∧
      poisons t x 3)

/-- R13, R112, R414-R417, R420: what fails is replaced by the spare that the spec names, or served without it, and a service
record says so; the arithmetic clock falls by 50 MHz; a device that is too hot has every block moved, and resumes; power on
brings it up, or stops at the step that fails; a power failure leaves flash, fuses and the sequence number. The model's own
readings are in log 41. -/
def Obligations.RepairResults : Prop := ∀ (k row fail : Nat) (bad : List Nat) (s : State),
  let notes (t : State) (kind result : Nat) (m : Mgmt) : Prop := ∃ r, t.mgmt =
    { m with records := (s.mgmt.records ++ [r]).drop (s.mgmt.records.length + 1 - 4096) } ∧
    r.time = s.time ∧ r.kind = kind ∧ r.result = result ∧ r.unit = k
  let cl := k / 8
  let stopped (t : State) (core : Nat → Prop) : Prop := t.blocks.length = s.blocks.length ∧
    ∀ (i : Nat) (b : Block), s.blocks[i]? = some b → ∃ b', t.blocks[i]? = some b' ∧ (core b.core → b'.stop.isSome = true) ∧
      (¬ core b.core → b' = b)
  (k < 256 → k ∉ s.mgmt.failedCores → cl ∉ s.mgmt.sparesUsed → ∃ t, exec (.coreFailure k) s = .next t ∧
    t = { s with tlb := t.tlb, blocks := t.blocks, mgmt := t.mgmt } ∧ stopped t (fun c => c = k) ∧
    notes t 1 1 { s.mgmt with sparesUsed := cl :: s.mgmt.sparesUsed }) ∧
  (k < 256 → k ∉ s.mgmt.failedCores → cl ∈ s.mgmt.sparesUsed → noDirty s → (cl, k % 8) ∉ s.mgmt.l1Out → ∃ t,
    exec (.coreFailure k) s = .next t ∧ SameBytes s t ∧ stopped t (fun c => c = k) ∧
    (∀ x ∈ t.l1, ¬ (x.cluster = cl ∧ s.slicePos cl (x.line % 8) = k % 8)) ∧
    notes t 1 2 { s.mgmt with failedCores := k :: s.mgmt.failedCores, l1Out := (cl, k % 8) :: s.mgmt.l1Out }) ∧
  (k < 256 → k ∉ s.mgmt.slicesOut → ∃ t, exec (.sliceFailure k) s = .next t ∧ t.blocks = s.blocks ∧
    (k ^^^ 1 ∉ s.mgmt.slicesOut → notes t 2 2 { s.mgmt with slicesOut := k :: s.mgmt.slicesOut } ∧
      (∀ x ∈ t.l3, sliceOf x.line = k → x.dirty = false) ∧
      (memOk s → ∀ x ∈ s.l3, sliceOf x.line = k → x.dirty = true → (∀ y ∈ s.l3, offOf (y.line * 128) = offOf (x.line * 128) → y = x) →
        ∀ i < 128, t.byteAt x.key (x.line * 128 + i) = lineByte x.data i)) ∧
    (k ^^^ 1 ∈ s.mgmt.slicesOut → notes t 2 3 s.mgmt ∧ t = { s with mgmt := t.mgmt })) ∧
  (k < 256 → ∃ t, exec (.rowErrors k row) s = .next t ∧ t = { s with mgmt := t.mgmt } ∧
    let used := (s.mgmt.rows.filter fun x => decide (x.1 = k)).length
    (used < 64 → notes t 3 1 { s.mgmt with rows := (k, row) :: s.mgmt.rows }) ∧ (64 ≤ used → notes t 3 3 s.mgmt)) ∧
  (k < 256 → (∀ x ∈ s.mgmt.retired, x.1 ≠ k) → ∃ t, exec (.channelFailure k) s = .next t ∧ t = { s with mgmt := t.mgmt } ∧
    let free := s.mgmt.pool.filter fun x => !x.2 && decide (channelOfFrame x.1 ≠ k)
    (free.length < 49152 → notes t 4 3 s.mgmt) ∧
    (49152 ≤ free.length → notes t 4 1 { s.mgmt with
      retired := (k, free.map (·.1)) :: s.mgmt.retired
      pool := s.mgmt.pool.map fun x => if channelOfFrame x.1 = k then x else (x.1, true) })) ∧
  (∀ L, k < 18 → s.links[k]? = some L → L.up = true → row < L.lanes → ∃ t, exec (.linkLaneFailure k row) s = .next t ∧
    notes t 5 2 s.mgmt ∧ (2 ≤ row → t = { s with links := t.links, mgmt := t.mgmt } ∧
      t.links[k]? = some { L with lanes := if 4 ≤ row then 4 else 2 }) ∧
    (row < 2 → L.held = [] → L.wait = [] → ∃ L', t.links[k]? = some L' ∧ L' = { L with up := false })) ∧
  (50 < s.mgmt.clockMHz → exec .throttle s = .next { s with mgmt := { s.mgmt with clockMHz := s.mgmt.clockMHz - 50 } }) ∧
  (s.mgmt.thermal = false → ∃ t, exec (.thermalStop k) s = .next t ∧ t = { s with blocks := t.blocks, mgmt := t.mgmt } ∧
    stopped t (fun _ => True) ∧ notes t 8 2 { s.mgmt with thermal := true }) ∧
  (s.mgmt.thermal = true → ∃ t, exec .thermalResume s = .next t ∧ t.mgmt = { s.mgmt with thermal := false } ∧ t.blocks = s.blocks ∧
    (noDirty s → SameBytes s t) ∧ (s.blocks ≠ [] → t = { s with mgmt := t.mgmt }) ∧
    (s.blocks = [] → t.l1 = [] ∧ t.l2 = [] ∧ t.dir = [] ∧ t.tlb = [] ∧ t.tables = [])) ∧
  (s.mgmt.step ≠ 4 → 1 ≤ fail → fail ≤ 4 → ∃ t, exec (.powerOn fail bad) s = .next t ∧ t = { s with mgmt := t.mgmt } ∧
    t.mgmt.step = fail - 1 ∧ t.mgmt.failedStep = fail) ∧
  (s.mgmt.step ≠ 4 → ∃ t, exec (.powerOn 0 bad) s = .next t ∧ t = { s with time := 0, parts := t.parts, mgmt := t.mgmt } ∧
    t.mgmt.step = 4 ∧ t.mgmt.failedStep = 0 ∧ (∀ p < 4, t.part p = { s.part p with engine := t.mgmt.fwEngine }) ∧
    (∀ c ∈ bad, c < 256 → c / 8 ∈ t.mgmt.sparesUsed ∨ c ∈ t.mgmt.failedCores) ∧
    (s.mgmt.fwStaged = none → bad = [] → t.mgmt = { s.mgmt with step := 4, failedStep := 0 })) ∧
  (∃ t, exec .powerFailure s = .next t ∧ t = { State.reset with tick := s.tick, freeCtr := s.freeCtr, mgmt := t.mgmt } ∧
    t.mgmt = { Mgmt.reset with
      step := 0
      fwVersion := s.mgmt.fwVersion
      fwEngine := s.mgmt.fwEngine
      fwImage := s.mgmt.fwImage
      fwStaged := s.mgmt.fwStaged
      fwFused := s.mgmt.fwFused
      lastSeq := s.mgmt.lastSeq })

/-! ### The host port -/

/-- R402-R405: what a datagram does on a connection without operations under way. A port drops what is no datagram for it,
and counts what R402 says. In error a packet is answered with NAK code 3, malformed with code 4, the first of a gap with
code 1, a WRITE or READ received before with an ACK; an acknowledgement in sequence frees the responses below it; the next
WRITE or READ is acknowledged and performed, at a virtual address, in the control window or in the record ring, or answered
with NAK code 2, or held by a translation fault. A response that nothing has acknowledged for 20 µs goes out again, and
after 16 times the connection is in error. The model's own readings are in log 27, log 42, log 55. -/
def Obligations.HostTransport : Prop := ∀ (c : Nat) (k : HostPkt) (s : State), c < 256 → k.port < 2 →
  let C := s.conn c
  let p := C.part
  let verdict := k.verdict (vget s.portAddrs k.port [])
  let gives (e : Instr) (C' : Conn) := ∃ f : Conn → Conn, exec e s = .next (s.modConn c f) ∧ f C = C'
  let mine : Prop := verdict = .take ∧ C.bound = true ∧ k.src = C.addr ∧ k.connNo = c
  let sends (C : Conn) (op code : Nat) : Conn := { C with sent := hostHeader op c C.own C.expect 0 code 0 0 :: C.sent }
  let again (C : Conn) (xs : List HeldResp) : List (List Byte) :=
    (xs.reverse.map fun x => hostHeader 3 c x.psn C.expect x.space 0 x.data.length x.addr ++ x.data) ++ C.sent
  let kept := C.held.filter fun x => !ahead k.apsn x.psn
  let A : Conn := { C with held := if kept.length < C.held.length then kept.map fun x => { x with tries := 0 } else C.held }
  let taken : Conn := sends { A with expect := C.expect + 1, gap := false } 4 0
  let answers (bs : List Byte) : Conn := { taken with
    sent := (hostHeader 3 c C.own (C.expect + 1) k.space 0 bs.length k.addr ++ bs) :: taken.sent
    held := A.held ++ [{ psn := C.own, space := k.space, addr := k.addr, data := bs, time := s.time, tries := 0 }]
    own := C.own + 1 }
  (C.todo = [] → C.parked = false → C.begun = false →
    (∀ e ∈ [(1, Instr.write c k), (2, Instr.read c k), (4, Instr.ack c k), (5, Instr.nak c k)], k.op = e.1 ∨ k.op ∉ [1, 2, 4, 5] →
      (verdict = .count → exec e.2 s = .next { s with
        portDiscards := vset s.portDiscards k.port (vget s.portDiscards k.port 0 + 1) }) ∧
      (verdict ≠ .count → ¬ mine → exec e.2 s = .next s) ∧
      (mine → C.error = true → gives e.2 (sends C 5 3)) ∧
      (mine → C.error = false → k.malformed = true →
        gives e.2 (sends (if k.hdr.length = 40 ∧ k.psn = C.expect ∧ k.op ≠ 4 ∧ k.op ≠ 5 then
          { C with expect := C.expect + 1, gap := false } else C) 5 4)) ∧
      (mine → C.error = false → k.malformed = false → k.psn ≠ C.expect →
        (ahead k.psn C.expect = true → gives e.2 (if C.gap then C else sends { C with gap := true } 5 1)) ∧
        (ahead k.psn C.expect = false → gives e.2 (if k.op = 1 ∨ k.op = 2 then sends C 4 0 else C)))) ∧
    (mine → C.error = false → k.malformed = false → k.psn = C.expect →
      (k.op = 4 → gives (.ack c k) A) ∧
      (k.op = 5 → gives (.nak c k) (if k.nak = 1 then { A with
        sent := again A A.held
        held := A.held.map fun x => { x with time := s.time } } else A)) ∧
      (k.op = 1 →
        (2 ≤ k.space → gives (.write c k) (sends taken 5 2)) ∧
        (k.space = 1 → ∃ s1 : State, s1 = { s with conns := s1.conns } ∧ s1.conn c = { taken with todo := [k] } ∧
          exec (.write c k) s = .next ((s1.ctlWrite p k.addr k.payload).dropOp c)) ∧
        (k.space = 0 →
          (s.virtCheck p k.addr k.len ⟨false, true, false⟩ = none → ∃ s1 w : State, s1 = { s with conns := s1.conns } ∧
            s1.conn c = { taken with todo := [k] } ∧
            w = ((s1.virtWrite p k.addr k.payload).modConn c fun C => { C with begun := true }).virtRelease ∧
            exec (.write c k) s = .next (if w.remoteDirty = [] ∧ w.writesPending = false then w.dropOp c else w)) ∧
          (∀ a r, s.virtCheck p k.addr k.len ⟨false, true, false⟩ = some (a, .perm r) → ∃ t, exec (.write c k) s = .next t ∧
            t.conn c = sends taken 5 2 ∧ t.blocks = s.blocks) ∧
          ∀ a l e v, s.virtCheck p k.addr k.len ⟨false, true, false⟩ = some (a, .fault l e v) → ∃ t, exec (.write c k) s = .next t ∧
            t.conn c = { taken with todo := [k], parked := true } ∧ t.blocks = s.blocks)) ∧
      (k.op = 2 → A.held.length < 4096 → s.remote = [] → (∀ r ∈ s.requests, r.msg.kind ≠ 1 ∨ r.stale = true) →
        (k.space = 0 → noDirty s → s.virtCheck p k.addr k.len ⟨true, false, false⟩ = none →
          s.virtMissing p k.addr k.len ⟨true, false, false⟩ = [] →
          ∀ bs, s.virtBytes p k.addr k.len ⟨true, false, false⟩ = .ok bs → ∃ t, exec (.read c k) s = .next t ∧
            t.conn c = answers bs ∧ SameBytes s t ∧ t.blocks = s.blocks) ∧
        (k.space = 1 → gives (.read c k) (answers (s.ctlRead p k.addr k.len))) ∧
        (k.space = 2 →
          let inside : Prop := (s.part p).rrTail.toNat ≤ k.addr ∧ k.addr + k.len ≤ (s.part p).rrHead.toNat
          (inside → gives (.read c k) (answers ((List.range k.len).map fun i => s.byteAt 0
            (s.devId.toNat * 2 ^ 44 + (s.part p).rrBase.toNat % 2 ^ 44 + (k.addr + i) % (2 ^ (s.part p).rrLog2sz.toNat - 2 ^ 24))))) ∧
          (¬ inside → gives (.read c k) (sends taken 5 2)))))) ∧
  (C.error = false →
    ((∃ x ∈ C.held, x.time + 16000 ≤ s.time ∧ 16 ≤ x.tries) → gives (.resendTimeout c) { C with error := true }) ∧
    ((∀ x ∈ C.held, x.time + 16000 ≤ s.time → x.tries < 16) → gives (.resendTimeout c) { C with
      sent := again C (C.held.filter fun x => decide (x.time + 16000 ≤ s.time))
      held := C.held.map fun x => if x.time + 16000 ≤ s.time then { x with time := s.time, tries := x.tries + 1 } else x }))

/-! ### The fabric -/

/-- R406-R410, R412: a flit whose CRC fails or that is not the next one is discarded, after which the receiver may ask for
the flits from LACK on; the next one acknowledges, returns credits, and admits its message if it is for this device and next
in its sequence. A request that has been admitted is refused with an error response where its key is not installed or its
address is no memory here; else a read answers the line's bytes, a write changes the bytes under its mask, and an atomic
performs its operation and answers the old value. A session notice is kept. Nothing is recorded or replayed, and no L1 holds
a dirty byte. The model's own readings are in log 15, log 28, log 54. -/
def Obligations.FabricRequests : Prop := ∀ (l : Nat) (f : FlitIn) (m : FabMsg) (s : State),
  (∀ p < 4, (s.part p).rrEn = false ∧ (s.part p).replaying = false) → noDirty s →
  let line := lineOf m.pa.toNat
  let key := m.key.toNat
  let refused : Prop := (m.key ≠ 0 ∧ s.mgmt.keysUsed.getLsbD key = false) ∨ s.local m.pa.toNat = false ∨ s.badPlace m.pa.toNat = true
  let answers (t : State) (kind : BitVec 8) (data : BitVec 1024) : Prop :=
    let a : FabMsg := { m with kind := kind, dst := m.src, data := data, clk := 0 }
    t.links = (s.fabricSend a).links ∧ t.fseqOut = (s.fabricSend a).fseqOut ∧ t.arrived = s.arrived.erase m ∧ t.blocks = s.blocks
  (∀ L, l < 18 → s.links[l]? = some L → L.up = true → s.linkEn.getLsbD l = true →
    (¬ (f.crcOk = true ∧ f.lseq = L.lack) → ∃ (t : State) (L' : Link), exec (.flit l f) s = .next t ∧ t = { s with links := t.links } ∧
      t.links[l]? = some L' ∧ (∀ k ≠ l, t.links[k]? = s.links[k]?) ∧
      (let ask := FlitIn.make L.lseq L.lack 3 (L.owed.toList.map (min 255 ·)) none
       L' = if f.crcOk = false ∨ L.asking = false ∧ (f.lseq - L.lack).toNat < 2 ^ 15 then { L with
           asking := true
           lseq := L.lseq + 1
           owed := L.owed.map (· - 255)
           held := (ask :: L.held).take 256
           out := ask :: L.out }
         else L)) ∧
    (f.crcOk = true → f.lseq = L.lack → L.wait = [] →
      (f.msg = none → ¬ (f.vc = 3 ∧ f.lack ≠ L.lseq ∧ f.lack = L.acked) → ∃ (t : State) (L' : Link), exec (.flit l f) s = .next t ∧
        t = { s with links := t.links } ∧ t.links[l]? = some L' ∧ L' = { L with
          lack := L.lack + 1
          acked := f.lack
          asking := false
          resends := if f.lack = L.acked then L.resends else 0
          cred := L'.cred } ∧
        ∀ i < 3, vget L'.cred i 0 = vget L.cred i 0 + f.cred i) ∧
      (f.msg = some m → s.early = [] →
        let next := ((s.fseqIn.find? fun x => decide (x.1 = m.src.toNat ∧ x.2.1 = channelOf m.kind)).map (·.2.2)).getD 0
        ∃ t, exec (.flit l f) s = .next t ∧
          t = { s with links := t.links, arrived := t.arrived, early := t.early, fseqIn := t.fseqIn } ∧
          (m.dst = s.devId → m.fseq = next → t.arrived = s.arrived ++ [m] ∧ t.early = []) ∧
          (m.dst = s.devId → ahead m.fseq next = true → t.arrived = s.arrived ∧ t.early = [m]) ∧
          (m.dst ≠ s.devId ∨ (m.fseq ≠ next ∧ ahead m.fseq next = false) → t.arrived = s.arrived ∧ t.early = [])))) ∧
  (m ∈ s.arrived → refused →
    ∀ e ∈ [(1, Instr.readMessage m), (2, Instr.writeMessage m), (3, Instr.atomicMessage m)], m.kind.toNat = e.1 →
      ∃ t, exec e.2 s = .next t ∧ answers t 7 0 ∧ SameBytes s t) ∧
  (m ∈ s.arrived → ¬ refused →
    (m.kind = 1 → ∃ t data, exec (.readMessage m) s = .next t ∧ answers t 4 data ∧ SameBytes s t ∧
      ∀ i < 128, lineByte data i = s.byteAt key (line * 128 + i)) ∧
    (m.kind = 2 → ∃ t, exec (.writeMessage m) s = .next t ∧ answers t 5 0 ∧
      (∀ i < 128, t.byteAt key (line * 128 + i) = if m.mask.getLsbD i then lineByte m.data i else s.byteAt key (line * 128 + i)) ∧
      ∀ key' pa, (key' = key → lineOf pa ≠ line) → t.byteAt key' pa = s.byteAt key' pa) ∧
    (let w64 := m.aop.getLsbD 4
     let n := if w64 then 8 else 4
     let pa := line * 128 + (m.aop.extractLsb' 7 7).toNat
     let old : Dword := BitVec.ofNat 64 (ofBytes (s.bytesAt key pa n))
     let new := atomicValue (m.aop.extractLsb' 0 4).toNat w64 old (m.data.setWidth 64) (m.data.extractLsb' 64 64)
     m.kind = 3 → pa % n = 0 → Served s line key → s.poisoned key pa n = false → ∃ t, exec (.atomicMessage m) s = .next t ∧ answers t 6 (old.setWidth 1024) ∧
      (∀ i < n, t.byteAt key (pa + i) = (bytesOf n new.toNat).getD i 0) ∧
      ∀ key' x, (key' = key → x < pa ∨ pa + n ≤ x) → t.byteAt key' x = s.byteAt key' x)) ∧
  (m ∈ s.arrived → m.kind = 8 → exec (.sessionNotice m) s = .next { s with
    arrived := s.arrived.erase m
    sessions := s.sessions ++ [m] })

/-- R373, R374, R410: the response to a read fills the proxy copy but for its dirty bytes, unless an acquire has made it
stale, and the gangs that wait for the line alone go on; an acknowledgement cleans the bytes that were written back and have
not changed since; an atomic's answer is noted for its lane; an error response, or none within 1 ms, fails the request's
gang, gives up a release's bytes, or answers an atomic with a failure. Nothing is recorded or replayed. The model's own
readings are in log 15, log 30, log 54. -/
def Obligations.FabricResponses : Prop := ∀ (m : FabMsg) (s : State) (r : RemoteReq),
  (∀ p < 4, (s.part p).rrEn = false ∧ (s.part p).replaying = false) →
  let line := lineOf r.msg.pa.toNat
  let key := r.msg.key.toNat
  let x := s.remoteLine line key
  let open_ := s.requests.filter fun q => decide (q.msg.tag ≠ r.msg.tag)
  let noted (G : Gang) (v : Option Dword) := G.away.map fun op => if op.tag = some r.msg.tag then { op with answer := some v } else op
  let fails (e : Instr) : Prop := r.job = none →
    (∀ u g G y, r.msg.kind = 1 → r.gang = some (u, g) → s.gang? u g = some G → G.parked = some y → y.kind ≠ 0 →
      ∃ t, exec e s = .next t ∧ SameBytes s t ∧ t.requests = open_ ∧
      t.gang? u g = some { G with parked := some { y with kind := 2, va := BitVec.ofNat 72 (line * 128) } }) ∧
    (r.msg.kind = 1 → r.gang = none → ∃ t, exec e s = .next t ∧ SameBytes s t ∧ t.requests = open_ ∧
      t.deadLines = (line, key) :: s.deadLines) ∧
    (r.msg.kind = 2 → x.valid &&& ~~~ r.msg.mask ≠ 0 → ∃ t, exec e s = .next t ∧ SameBytes s t ∧ t.requests = open_ ∧
      t.remoteLine line key = { x with valid := x.valid &&& ~~~ r.msg.mask, dirty := x.dirty &&& ~~~ r.msg.mask }) ∧
    (∀ u g G op, r.msg.kind = 3 → r.gang = some (u, g) → s.gang? u g = some G → op ∈ G.away → op.tag = some r.msg.tag →
      ∃ t G', exec e s = .next t ∧ SameBytes s t ∧ t.requests = open_ ∧ t.gang? u g = some G' ∧
        G' = { G with away := noted G none, parked := G'.parked })
  (m ∈ s.arrived → (s.requests.find? fun q => decide (q.msg.tag = m.tag ∧ q.msg.dst = m.src)) = some r →
    (m.kind = 4 → r.msg.kind = 1 → ∃ t, exec (.readResponse m) s = .next t ∧ SameBytes s t ∧ t.requests = open_ ∧
      t.arrived = s.arrived.erase m ∧ (r.stale = true → t.remote = s.remote) ∧
      (r.stale = false → (t.remoteLine line key).valid = BitVec.allOnes 128 ∧ (t.remoteLine line key).dirty = x.dirty ∧
        ∀ i < 128, lineByte (t.remoteLine line key).data i = if x.dirty.getLsbD i then lineByte x.data i else lineByte m.data i) ∧
      ∀ u g G y, s.gang? u g = some G → G.parked = some y → y.kind = 1 ∨ y.kind = 3 →
        (∀ q ∈ open_, q.gang ≠ some (u, G.idx) ∧ ¬ (q.msg.kind = 1 ∧ lineOf q.msg.pa.toNat = lineOf y.va.toNat)) →
        t.gang? u g = some { G with parked := none }) ∧
    (m.kind = 5 → r.msg.kind = 2 → r.job = none → x.valid ≠ 0 → ∃ t, exec (.writeAcknowledgement m) s = .next t ∧ SameBytes s t ∧
      t.requests = open_ ∧ t.arrived = s.arrived.erase m ∧ (t.remoteLine line key).data = x.data ∧
      (t.remoteLine line key).valid = x.valid ∧
      ∀ i < 128, (t.remoteLine line key).dirty.getLsbD i
        = (x.dirty.getLsbD i && !(r.msg.mask.getLsbD i && decide (lineByte x.data i = lineByte r.msg.data i)))) ∧
    (∀ u g G, m.kind = 6 → r.gang = some (u, g) → s.gang? u g = some G → ∃ t G', exec (.atomicResponse m) s = .next t ∧ SameBytes s t ∧
      t.requests = open_ ∧ t.arrived = s.arrived.erase m ∧ t.gang? u g = some G' ∧
      G' = { G with away := noted G (some (m.data.setWidth 64)), parked := G'.parked }) ∧
    (m.kind = 7 → fails (.errorResponse m))) ∧
  ((s.requests.find? fun q => decide (q.msg.tag.toNat = r.msg.tag.toNat)) = some r →
    (r.sent + 800000 ≤ s.time → fails (.responseTimeout r.msg.tag.toNat)) ∧
    (s.time < r.sent + 800000 → exec (.responseTimeout r.msg.tag.toNat) s = .next s))

/-! ### The management port -/

/-- R98, R352, R354, R355, R360, R403, R404, R409, R413, R415-R420: a command whose sequence number is not above the last
one is discarded and counted, and any other is answered: carried out where its conditions hold (status 0), refused otherwise
(status 1). PARTCFG takes a partition code while no queue runs; CONNBIND opens a connection, and CONNRESET ends its error;
FABCFG sets the links, the routes and, while no queue runs, the device's number, a new one emptying the caches; KEYINST
installs a key whose packet authenticates in a free slot; SPAREPOOL declares frames; FWSTAGE stages an image that verifies,
and FWAPPLY starts it; POWCAP sets the cap; SVCREAD, DIRDUMP and ATTEST report. The layout of SVCREAD's answer is the
model's choice (log 31). The model's own readings are in log 14, log 41. -/
def Obligations.ManagementCommands : Prop := ∀ (seq n c p : Nat) (addr : BitVec 144) (ctl : BitVec 64) (routes : List (Nat × BitVec 18))
    (blob image nonce : List Byte) (frames : List (BitVec 64)) (version engine : BitVec 32) (s : State), s.mgmt.step = 4 →
  let runs : Prop := ∃ P ∈ s.parts.toList, ∃ Q ∈ P.queues.toList, Q.st = 1 ∨ Q.st = 3
  let replies (m : Mgmt) (x : Nat × List Byte) : Mgmt := { m with lastSeq := seq, reply := some x }
  let refuses (e : Instr) := exec e s = .next { s with mgmt := replies s.mgmt (1, []) }
  (seq ≤ s.mgmt.lastSeq → ∀ e ∈ [Instr.partcfg seq n, .connbind seq c p addr, .connreset seq c, .fabcfg seq ctl routes,
      .keyinst seq n p blob, .sparepool seq n frames, .fwstage seq version engine image, .fwapply seq, .svcread seq n, .dirdump seq n,
      .attest seq nonce, .powcap seq n],
    exec e s = .next { s with mgmt := { s.mgmt with discarded := s.mgmt.discarded + 1 } }) ∧
  (s.mgmt.lastSeq < seq →
    (n ≤ 2 → ¬ runs → exec (.partcfg seq n) s
      = .next { s with code := BitVec.ofNat 2 n, mgmt := replies s.mgmt (0, []) }) ∧
    (2 < n ∨ runs → refuses (.partcfg seq n)) ∧
    (c < 256 → p < partsOf s.code → ∃ f : Conn → Conn, exec (.connbind seq c p addr) s
      = .next { s.modConn c f with mgmt := replies s.mgmt (0, []) } ∧
      f (s.conn c) = { Conn.reset with part := p, addr := addr, bound := true }) ∧
    (256 ≤ c ∨ partsOf s.code ≤ p → refuses (.connbind seq c p addr)) ∧
    (c < 256 → ∃ f : Conn → Conn, exec (.connreset seq c) s = .next { s.modConn c f with mgmt := replies s.mgmt (0, []) } ∧
      f (s.conn c) = { s.conn c with error := false, held := (s.conn c).held.map fun x => { x with tries := 0 } }) ∧
    (256 ≤ c → refuses (.connreset seq c)) ∧
    (∃ t, exec (.fabcfg seq ctl routes) s = .next t ∧ t.mgmt = replies s.mgmt (0, []) ∧ t.linkEn = ctl.extractLsb' 8 18 ∧
      (∀ d < 256, vget t.routes d 0 = ((routes.reverse.find? fun x => decide (x.1 = d)).map (·.2)).getD (vget s.routes d 0)) ∧
      (runs ∨ s.devId = ctl.setWidth 8 → t = { s with linkEn := t.linkEn, routes := t.routes, mgmt := t.mgmt }) ∧
      (¬ runs → t.devId = ctl.setWidth 8 ∧
        (s.devId ≠ t.devId → t.l1 = [] ∧ t.l2 = [] ∧ t.l3 = [] ∧ t.dir = [] ∧ t.tlb = [] ∧ t.tables = [])) ∧ t.blocks = s.blocks) ∧
    (n ≠ 0 → n < 256 → p < partsOf s.code → s.mgmt.keysUsed.getLsbD n = false → (∀ x ∈ s.mgmt.keyPairs, x.1 ≠ n) →
      let used := s.mgmt.keysUsed ||| BitVec.twoPow 256 n
      let m : Mgmt := { s.mgmt with keysUsed := used, keyPairs := (n, blob) :: s.mgmt.keyPairs }
      ∃ t, exec (.keyinst seq n p blob) s
        = .next (if Config.keyUnwraps blob then t else { s with mgmt := replies s.mgmt (1, []) }) ∧
        t = { s with parts := t.parts, mgmt := replies m (0, []) } ∧
        t.part p = { s.part p with keyOwn := (s.part p).keyOwn ||| BitVec.twoPow 256 n } ∧ ∀ k ≠ p, t.part k = s.part k) ∧
    (n = 0 ∨ 256 ≤ n ∨ partsOf s.code ≤ p ∨ s.mgmt.keysUsed.getLsbD n = true → refuses (.keyinst seq n p blob)) ∧
    (frames ≠ [] → (∀ e ∈ frames, e ≠ 0) → s.mgmt.pool = [] → s.mgmt.retired = [] → frames.length ≤ 1024 →
      (frames.Nodup → (∀ e ∈ frames, e.toNat * 2 ^ 16 < 0xC000000000) → exec (.sparepool seq 0 frames) s
        = .next { s with mgmt := replies { s.mgmt with pool := frames.map fun e => (e.toNat, false) } (0, []) }) ∧
      (¬ frames.Nodup ∨ (∃ e ∈ frames, 0xC000000000 ≤ e.toNat * 2 ^ 16) → refuses (.sparepool seq 0 frames))) ∧
    (∀ m : Mgmt, m = { s.mgmt with fwStaged := some (version, engine, image) } →
      exec (.fwstage seq version engine image) s = .next { s with
        mgmt := if Config.signatureValid (bytesOf 4 version.toNat ++ bytesOf 4 engine.toNat ++ image) = true
            ∧ s.mgmt.fwFused.toNat ≤ version.toNat then replies m (0, []) else replies s.mgmt (1, []) }) ∧
    (s.mgmt.fwStaged = none → refuses (.fwapply seq)) ∧
    (s.mgmt.fwStaged = some (version, engine, image) → (∀ L ∈ s.launches, L.saved = []) → s.blocks = [] →
      let m : Mgmt := { s.mgmt with fwVersion := version, fwEngine := engine, fwImage := image, fwHeld := [], fwStaged := none }
      ∃ t, exec (.fwapply seq) s = .next t ∧ t = { s with parts := t.parts, mgmt := replies m (0, []) } ∧
        ∀ k < 4, t.part k = { s.part k with engine := engine }) ∧
    (1200 ≤ n → n ≤ 2600 → exec (.powcap seq n) s = .next { s with mgmt := replies { s.mgmt with capWatts := n } (0, []) }) ∧
    (n < 1200 ∨ 2600 < n → refuses (.powcap seq n)) ∧
    (∃ bs, exec (.svcread seq n) s = .next { s with mgmt := replies s.mgmt (0, bs) } ∧
      fieldAt bs 0 8 = s.mgmt.failedStep % 2 ^ 64 ∧ fieldAt bs 8 4 = (s.mgmt.records.length - n) % 2 ^ 32 ∧
      fieldAt bs 12 4 = s.mgmt.pool.length % 2 ^ 32 ∧
      ∀ r, s.mgmt.records[n]? = some r → fieldAt bs 16 8 = r.time % 2 ^ 64 ∧ fieldAt bs 24 1 = r.kind % 256 ∧
        fieldAt bs 25 1 = r.result % 256 ∧ fieldAt bs 26 6 = r.unit % 2 ^ 48 ∧ fieldAt bs 32 8 = r.pa % 2 ^ 64 ∧
        fieldAt bs 40 8 = r.count % 2 ^ 64) ∧
    (n < 256 → ∃ bs, exec (.dirdump seq n) s = .next { s with mgmt := replies s.mgmt (0, bs) } ∧
      let es := s.dir.filter fun e => decide (sliceOf e.line = n ∧ e.st ≠ .i)
      bs.length = 8 * es.length ∧ ∀ (k : Nat) (e : DirEntry), es[k]? = some e →
        let x := fieldAt bs (8 * k) 8
        x % 2 = (if e.remote then 1 else 0) ∧ x / 2 % 2 = (if e.priv then 1 else 0) ∧ x / 4 % 4 = e.owner.toNat ∧
          x / 16 % 16 = e.sharers.toNat ∧ x / 2 ^ 11 % 256 = e.key % 256 ∧ x / 2 ^ 19 = e.line % 2 ^ 45) ∧
    (256 ≤ n → refuses (.dirdump seq n)) ∧
    (nonce.length = 32 → ∃ bs sig, exec (.attest seq nonce) s
      = .next { s with mgmt := replies s.mgmt (0, bs ++ sig) } ∧ bs.length = 168 ∧ sig.length = 64 ∧ bs.take 32 = nonce ∧
      fieldAt bs 0x20 4 = s.mgmt.fwVersion.toNat ∧ fieldAt bs 0x24 4 = s.mgmt.fwFused.toNat ∧
      (bs.drop 0x28).take 64 = sha512 s.mgmt.fwImage ∧ fieldAt bs 0x68 1 = s.code.toNat ∧
      fieldAt bs 0x69 32 = s.mgmt.keysUsed.toNat) ∧
    (nonce.length ≠ 32 → refuses (.attest seq nonce)))

/-! ### Recording and replay -/

/-- R377, R382, R385, R387-R390: RRCTL starts a session whose ring is in order, with every clock at 0, or ends one, whose
launches go on unrecorded, while every queue of the partition is stopped; a clock beyond the limit ends the session too. A
chunk that has executed its instructions ends, its record joins its source's frame, and the next one starts at the next
clock. A source that closes its frame puts it at the head of the ring where there is room, and keeps it otherwise. The
model's own readings are in log 38, log 51. -/
def Obligations.SessionResults : Prop := ∀ (p src u g : Nat) (v : BitVec 64) (s : State), p < partsOf s.code →
  let P := s.part p
  let n := v.extractLsb' 1 6
  let ctl : Partition := { P with rrLog2sz := n, rrMode := v.getLsbD 7, rrDigest := v.getLsbD 8 }
  let ended (t : State) (clockEnd : Bool) : Prop := (t.part p).rrEn = false ∧ (t.part p).rrClockEnd = (P.rrClockEnd || clockEnd) ∧
    t.launches.length = s.launches.length ∧ (∀ L ∈ t.launches, L.part = p → L.number = none) ∧
    (∀ k, ((t.part p).frame k).bytes = []) ∧ (∀ L ∈ t.launches, L.part = p → ∀ x ∈ L.saved, ∀ G ∈ x.1.gangs, G.chunk = none) ∧
    ∀ u' g' G, t.gang? u' g' = some G → t.blockOf p u' = true → G.chunk = none
  let numbered : Prop := ∀ b ∈ s.blocks, ∀ (i : Nat) (G : Gang), b.gangs[i]? = some G → G.idx = i
  (P.idle = false → exec (.sessionStart p v) s = .next s ∧ exec (.sessionEnd p v) s = .next s) ∧
  (P.idle = true → v.getLsbD 0 = true → P.rrEn = false →
    (26 ≤ n.toNat → n.toNat ≤ 36 → P.rrBase.toNat % 2 ^ n.toNat = 0 → ∃ t, exec (.sessionStart p v) s = .next t ∧
      let zero : Clocks := { wclk := 0, wag := noAgent, rclk := 0, rag := noAgent }
      t = { s with l3 := t.l3, l2 := t.l2, remote := t.remote, floor := t.floor, parts := t.parts, links := t.links, fseqOut := t.fseqOut } ∧
      (∀ d line key, t.lineClocks p d line key = zero) ∧
      (∀ q < 4, q ≠ p → ∀ d line key, t.lineClocks q d line key = s.lineClocks q d line key) ∧ SameBytes s t ∧
      t.part p = { ctl with
        rrEn := true
        rrHead := 0
        rrTail := 0
        rrStalled := false
        rrClockEnd := false
        rrWrapped := false
        rrLost := 0
        hwm := 0
        lnums := 0
        frames := [] }) ∧
    (n.toNat < 26 ∨ 36 < n.toNat ∨ P.rrBase.toNat % 2 ^ n.toNat ≠ 0 → ∃ t, exec (.sessionStart p v) s = .next t ∧
      t = { s with parts := t.parts } ∧ t.part p = ctl)) ∧
  (P.idle = true → v.getLsbD 0 = false → P.rrEn = true → numbered → ∃ t, exec (.sessionEnd p v) s = .next t ∧ ended t false) ∧
  (P.rrEn = true → clockLimit < P.hwm + 1 → numbered → ∃ t, exec (.clockEnd p) s = .next t ∧ ended t true) ∧
  (∀ (b : Block) (L : Launch) (G : Gang) (k : ChunkState), s.block? u = some b → s.launchOf u = some L → s.gang? u g = some G →
    G.chunk = some k → s.replayOf u = none → L.r.chunk ≤ k.count → k.clock + 1 ≤ clockLimit → L.part < 4 →
    let F := (s.part L.part).frame (b.core / 8)
    let rec_ := chunkRecord k (L.number.getD 0) b.lin g (if k.cseq = 0 then L.lbase else k.prevClock) L.r.chunk 0
      (s.part L.part).rrDigest
    ∃ t G', exec (.chunkEnd u g) s = .next t ∧ t.gang? u g = some G' ∧ (t.part L.part).hwm = max (s.part L.part).hwm (k.clock + 1) ∧
      G' = { G with
        held := G'.held
        chunk := some { k with
          clock := k.clock + 1
          cseq := k.cseq + 1
          count := 0
          digest := 0
          clks := []
          traps := []
          deps := []
          fabric := []
          prevClock := k.clock } } ∧
      ((s.part L.part).rrEn = true → F.bytes.length + rec_.length < 60 * 1024 →
        ((t.part L.part).frame (b.core / 8)).bytes = F.bytes ++ rec_)) ∧
  (let F := P.frame src
   let N := (16 + F.bytes.length + 63) / 64 * 64
   let ring := 2 ^ P.rrLog2sz.toNat - 2 ^ 24
   let at_ := P.rrHead.toNat % ring
   F.kept = [] →
   (F.bytes = [] → exec (.frameClose p src) s = .next s) ∧
   (F.bytes ≠ [] → P.rrMode = false → at_ + N ≤ ring →
     ((P.rrHead - P.rrTail).toNat + N ≤ ring → ∃ t bs, exec (.frameClose p src) s = .next t ∧
       SameBytes (s.physWrite 0 (s.devId.toNat * 2 ^ 44 + P.rrBase.toNat % 2 ^ 44 + at_) bs) t ∧
       (t.part p).rrHead = P.rrHead + BitVec.ofNat 64 N ∧ (t.part p).frame src = { F with src := src, seq := F.seq + 1, bytes := [] } ∧
       bs.length = N ∧ fieldAt bs 0 4 = N % 2 ^ 32 ∧ fieldAt bs 4 2 = src % 2 ^ 16 ∧ fieldAt bs 6 2 = 0 ∧
       fieldAt bs 8 4 = F.seq % 2 ^ 32 ∧ fieldAt bs 12 4 = (crc32 (bs.drop 16)).toNat ∧
       (bs.drop 16).take F.bytes.length = F.bytes ∧ ∀ x ∈ (bs.drop 16).drop F.bytes.length, x = 0) ∧
     (ring < (P.rrHead - P.rrTail).toNat + N → ∃ t, exec (.frameClose p src) s = .next t ∧ t = { s with parts := t.parts } ∧
       (t.part p).rrHead = P.rrHead ∧ (t.part p).frame src = { F with src := src, kept := [F.bytes], bytes := [] })))

/-- R391, R392, R397, R398, R428: GO starts a replay of a buffer whose frames are in order, on a partition whose queues are
stopped and that does not record, and otherwise sets SRCERR; it resumes a stopped replay, leaves one with FREE, and is
ignored while one runs or has diverged. A GO whose buffer is on its way from another device waits for it. HALT sets a cut
above HWM, beside the one of an armed breakpoint. RPSEAL writes a new check value into a good image at a stop, and nothing
otherwise. A held gang goes on when its chunk's clock is clear. A stop that is reached has STATE 2 and its cut, but is put
off while a gang would halt inside a region. The model's own readings are in log 25, log 44. -/
def Obligations.ReplayResults : Prop := ∀ (p u g : Nat) (v : BitVec 64) (a : BitVec 128) (s : State), p < partsOf s.code →
  let P := s.part p
  let ctl : Partition := { P with rpFree := v.getLsbD 3, rpBrk := v.getLsbD 2, rpStop := if v.getLsbD 2 then P.rpStop else none }
  let s1 := s.modPart p fun _ => { ctl with rpGo := false }
  let s2 := s.modPart p fun P => { P with rpSeal := none }
  let base := (a.setWidth 72).toNat
  let gives (e : Instr) (P' : Partition) := ∃ t, exec e s = .next t ∧ t = { s with parts := t.parts } ∧ t.part p = P' ∧
    ∀ k ≠ p, t.part k = s.part k
  (v.getLsbD 0 = true → v.getLsbD 1 = false → v.getLsbD 2 = false →
    (P.rpState = 0 ∨ P.rpState = 4 → P.idle = true → P.rrEn = false →
      (∀ b : Option (List Byte), s1.replayBuffer p = (s1, some b) → b.bind readLog = none →
        gives (.go p v) { ctl with rpGo := false, rpSrcErr := true }) ∧
      (∀ s' : State, s1.replayBuffer p = (s', none) → exec (.go p v) s = .next (s'.modPart p fun P => { P with rpGo := true })) ∧
      ∀ (b : Option (List Byte)) rs, s1.replayBuffer p = (s1, some b) → b.bind readLog = some rs → gives (.go p v) { ctl with
        rpGo := false
        rpSrcErr := false
        rpState := 1
        rpLog := rs
        rpDone := []
        rpNext := 0
        rpLeft := false
        rpStop := none
        rpHalt := none
        rpParked := false
        rpCut := 0
        rpDiv := 0
        rpMoved := false
        rpDetail := List.replicate 48 0
        hwm := 0 }) ∧
    (P.rpState = 0 ∨ P.rpState = 4 → P.idle = false ∨ P.rrEn = true → gives (.go p v) { ctl with rpGo := false }) ∧
    (P.rpState = 2 → v.getLsbD 3 = false → gives (.go p v) { ctl with rpState := 1, rpStop := none, rpHalt := none }) ∧
    (P.rpState = 1 ∨ P.rpState = 5 ∨ (P.rpState = 3 ∧ v.getLsbD 3 = false) → gives (.go p v) ctl) ∧
    (P.rpState = 2 ∨ P.rpState = 3 → v.getLsbD 3 = true → ∃ t, exec (.go p v) s = .next t ∧
      t = { s with blocks := t.blocks, launches := t.launches, parts := t.parts } ∧
      t.part p = { ctl with rpState := 1, rpLeft := true, rpStop := none, rpHalt := none } ∧
      (∀ L ∈ t.launches, L.part = p → 64 ≤ L.queue → L.number = none ∧
        ∀ x ∈ L.saved, (∀ G ∈ x.1.gangs, G.held = false ∧ G.chunk = none) ∧ ∀ j ∈ x.1.jobs, j.held = false) ∧
      ∀ b ∈ t.blocks, ∀ L, t.launch? b.launch = some L → L.part = p → 64 ≤ L.queue →
        b.stop = none ∧ (∀ G ∈ b.gangs, G.held = false ∧ G.chunk = none) ∧ ∀ j ∈ b.jobs, j.held = false)) ∧
  (v.getLsbD 0 = false → v.getLsbD 1 = true →
    (P.rpState = 1 ∨ P.rpState = 5 → P.rpLeft = false → gives (.halt p v) { ctl with
      rpHalt := some (P.hwm + 1)
      rpMoved := false
      rpStop := if v.getLsbD 2 then (s.breakClock p).or P.rpStop else none }) ∧
    (P.rpState ≠ 1 ∧ P.rpState ≠ 5 ∨ P.rpLeft = true → gives (.halt p v) ctl)) ∧
  (P.rpState ≠ 2 ∨ s2.sealImage p base = (s2, some none) → gives (.rpseal p a) { P with rpSeal := none, rpSealErr := true }) ∧
  (∀ s' : State, P.rpState = 2 → s2.sealImage p base = (s', none) →
    exec (.rpseal p a) s = .next (s'.modPart p fun P => { P with rpSeal := some a })) ∧
  (∀ bs, P.rpState = 2 → s2.sealImage p base = (s2, some (some bs)) → ∃ t, exec (.rpseal p a) s = .next t ∧
    SameBytes (s2.virtWrite p ((base + 0x38) % 2 ^ 72)
      (bytesOf 8 (Config.checkValue (bs.take 0x38 ++ bs.drop 0x40)).toNat)) t ∧ t.part p = { P with rpSeal := none, rpSealErr := false }) ∧
  (∀ (b : Block) (L : Launch) (G : Gang) (k : ChunkState) (R : Partition), s.block? u = some b → s.launchOf u = some L →
    s.gang? u g = some G → G.held = true → G.chunk = some k → s.replayOf u = some R → (∀ j ∈ b.jobs, j.gang = g → j.held = false) →
    let clear : Prop := (∀ i < R.rpLog.length, R.holdsBack k.clock i = false) ∧ (∀ K, R.stopAt = some K → k.clock < K) ∧ R.rpState ≠ 2
    (clear → ∃ F : Gang → Gang, exec (.chunkHoldRelease u g) s = .next ((s.modGang u g F).raiseHwm L.part k.clock) ∧ F G = { G with held := false }) ∧
    (¬ clear → exec (.chunkHoldRelease u g) s = .next s)) ∧
  (∀ K, P.rpState = 1 ∨ P.rpState = 5 → P.rpLeft = false → P.stopAt = some K →
    ((∃ i < P.rpLog.length, P.holdsBack K i = true) → exec (.replayStop p) s = .next s) ∧
    ((∀ i < P.rpLog.length, P.holdsBack K i = false) →
      ((∀ b ∈ s.blocks, ∀ L, s.launch? b.launch = some L → L.part ≠ p) →
        gives (.replayStop p) { P with rpState := 2, rpStop := none, rpHalt := none, rpCut := BitVec.ofNat 32 K }) ∧
      ∀ C, s.regionHalt p = some C → gives (.replayStop p) { P with
        rpStop := P.rpStop.map (max (C + 1))
        rpHalt := P.rpHalt.map (max (C + 1))
        rpMoved := true }))

/-! ### Decoding, stepping, reset -/

/-- R158, R163-R172: words written out bit by bit from the formats decode to the instructions that they stand for, with the
number of their words: iadd v3, v2, v1 (E = 1); saddi s5, s4, -1; sli s1, 5 under no guard; icmp.lt.i32 p2, v7, s3; bra -1
on p3; jwait set 4; ldg.b32 v8, [s2 + v9]; lds.b64 v10, [v11 + 32]; atomg.add v12, [s5 + v13]; fence.ar.d; bar.credit s6, 9;
mma with its slots; rabort 0x80; an iaddi with an immediate prefix; and the all-zero word is Illegal-Instruction with reason
1. -/
def Obligations.DecodedWords : Prop :=
  (∀ x ∈ [
      (0b1_0100000_111_0000011_0000010_0000001#32, Instr.iadd (Hdr.plain true) 7 3 2 1),
      (0b0_0010001_000101_000100_111111111111#32, .saddi (Hdr.plain false) 5 4 0xFFF),
      (0b0_0010011_000001_000000000000000101#32, .sli (Hdr.plain false) 1 5),
      (0b0_0110010_111_010_0010_0000111_1110011#32, .icmp (Hdr.plain false) 7 2 2 7 0x73),
      (0b1_0000001_011_111111111111111111111#32, .bra (Hdr.plain true) 3 0x1FFFFF),
      (0b1_0000100_0100_000000_0000000000_0010#32, .jwait (Hdr.plain true) 4),
      (0b0_1100000_111_0001000_0001001_0010_100#32, .ldg (Hdr.plain false) 7 8 9 2 4),
      (0b0_1100100_111_0001010_0001011_0010_101#32, .lds (Hdr.plain false) 7 10 11 2 5),
      (0b0_1100110_111_0001100_0001101_101_0000#32, .atomg (Hdr.plain false) 7 12 13 5 0),
      (0b0_1101011_11_10_00_000000_000000_000000#32, .fence (Hdr.plain false) 3 2),
      (0b0_1101101_111_000110_000001001_000011#32, .barCredit (Hdr.plain false) 7 6 9),
      (0b0_1110001_111_000111_001000_001_010_1_0_0#32, .mma (Hdr.plain false) 7 7 8 1 2 1 0),
      (0b1_1111011_111_000000_10000000_0000001#32, .rabort (Hdr.plain true) 7 0x80)],
    decodeWords [x.1] = .ok x.2 1) ∧
  decodeWords [0b0_1111110_00_0000000000000000000001#32, 0b0_0111011_111_0000011_0000010_0000001#32]
    = .ok (.iaddi { Hdr.plain false with imm := some 1 } 7 3 2 1) 2 ∧
  decodeWords [0] = .illegal 1 0 0 1 none

/-- R158-R172: decoding the words of a well-formed encoded instruction gives it back, whatever words follow, with every
operand at every value that the encoding admits. -/
def Obligations.DecodeEncode : Prop := ∀ (i : Instr) (rest : List Word), i.hdr.isSome = true → i.wellFormed = true →
  decodeWords (encode i ++ rest) = .ok i (encode i).length

/-- R163, R166, R167: a word whose primary is assigned to nothing is no instruction, with reason 1, whatever its other bits.
R31, R33, R166, R167: with no sheaf in issue an encoded instruction has no executor, which is the model's one fault (log
12), and a word that is no instruction has no effect; in a run, the latter takes Illegal-Instruction on every member, a word
within the run's 24. The model's own readings are in log 47. -/
def Obligations.IllegalWords : Prop :=
  (∀ (w : Word) (rest : List Word),
    w.toNat / 2 ^ 24 % 2 ^ 7 ∈ [0x00, 0x0A, 0x0B, 0x0C, 0x0D, 0x0E, 0x0F, 0x1A, 0x1B, 0x1C, 0x1D, 0x1E, 0x1F, 0x5D, 0x5E, 0x5F, 0x76, 0x77, 0x7C,
        0x7D, 0x7F] →
      decodeWords (w :: rest) = .illegal 1 w 0 1 none) ∧
  (∀ (i : Instr) (reason : BitVec 8) (word : BitVec 32) (idx len : Nat) (s : State),
    (s.focus = none → i.hdr.isSome = true → exec i s = .fault .noSheaf) ∧
    (s.focus = none → exec (.wordNotAnInstruction reason word idx len) s = .next s) ∧
    (∀ u g S c, s.focus = some (u, g, S) → s.ctx u g (Hdr.plain false) (max 1 len) 7 = some c → s.chunkDue u g = false → c.G.held = false →
      S.pos + idx < 24 → TrapsTo c c.members → TakesTrap (exec (.wordNotAnInstruction reason word idx len) s) s c c.members 0x01 (word.setWidth 64)
        (BitVec.ofNat 64 (reason.toNat * 2 ^ 32 + S.pos + idx)) c.after))

/-- R24, R31, R169, R196, R346, R348: while a gang is in issue and nothing else is due, a step reads the words at its PC,
each through its own translation with execute permission, and runs the instruction that they decode to; time has gone on by
then, quadrants have counted it, and the TLBs hold translations of the group beside those that they held. An event of the
agenda is carried out; an encoded instruction there is no event. The model's order of a step's choices is log 4, and its
time log 6. -/
def Obligations.StepRunsDecoded : Prop := ∀ (s : State) (i : Instr),
  s.makeRoom = none →
  (∀ rest, s.agenda = i :: rest → ∃ t, t = { s with agenda := rest, tick := s.tick + 1, time := t.time, quads := t.quads } ∧ s.time ≤ t.time ∧
    step s = if i.hdr.isSome then .next t else exec i t) ∧
  (∀ u g S c (ws : List Word), s.agenda = [] → (∀ L ∈ s.launches, s.drainDue L = false) → s.focus = some (u, g, S) →
    s.ctx u g (Hdr.plain false) 1 7 = some c → c.G.isParked = false → c.G.held = false → (c.G.chunk = none ∨ c.G.mau = []) →
    ws.length ≤ 24 → decodeWords ws = .ok i ws.length →
    (∀ a ∈ [S.pc, S.pc + 92], ∀ pa key, s.place c.unit c.L.part (c.L.codeVa a) ⟨false, false, true⟩ = .ok pa key →
      Served s (lineOf pa) key) →
    (∀ (k : Nat) (w : Word), ws[k]? = some w → ∃ pa key,
      s.place (.thread c.B.core (g % 4)) c.L.part ((c.L.r.codeBase.toNat + (S.pc + BitVec.ofNat 32 (4 * k)).toNat) % 2 ^ 72)
        ⟨false, false, true⟩ = .ok pa key ∧
      s.local pa = true ∧ s.poisoned key pa 4 = false ∧ w = BitVec.ofNat 32 (ofBytes (s.bytesAt key pa 4))) →
    ∃ t, t = { s with
        tick := s.tick + 1
        time := t.time
        quads := t.quads
        tlb := t.tlb
        tables := t.tables
        freeCtr := t.freeCtr } ∧ s.time ≤ t.time ∧
      (∀ x ∈ t.tlb, x ∈ s.tlb ∨ x.core = c.B.core ∧ x.part = c.L.part ∧
        ∃ k < ws.length, x.va = c.L.codeVa (S.pc + BitVec.ofNat 32 (4 * k))) ∧ step s = exec i t)

/-- R31, R42: a run without a pending FP exception ends, in a launch that goes on, with the PC of each member that has not
left it at the next word; the gang's threads keep every other part of their state, and no other gang, no register and no
memory changes. The launch is not deterministic, and a replay has no region abort here. The model's own readings are in log
48. -/
def Obligations.RunEnds : Prop := ∀ (u g : Nat) (y : Bool) (s : State) (b : Block) (L : Launch) (G : Gang) (S : Sheaf),
  s.block? u = some b → s.launchOf u = some L → s.gang? u g = some G → G.sheaf = some S → S.fp = none → L.status = 0 → L.r.det = false →
  G.drained = false → G.eligible ≠ 0 → s.loggedTrap u g ≠ some 0x40 → ∃ F : Gang → Gang, s.endRun u g y = { s.modGang u g F with cur := none } ∧
    F G = { G with lanes := (F G).lanes, sheaf := none, runs := G.runs + 1 } ∧
    ∀ l < 32, (F G).lane l = if G.running.getLsbD l then { G.lane l with pc := S.pc } else G.lane l

/-- R19, R196, R308, R345, R389, R391, R414: after bring-up no block, launch, cached line or translation stands in the
device, memory lists nothing, every queue is stopped with its registers at 0, and the registers of the windows read as their
reset values; the invariants of this file hold. The values that no rule gives are the model's (log 2, log 3). -/
def Obligations.ResetState : Prop :=
  let s := State.reset
  s.mgmt.step = 4 ∧ s.time = 0 ∧ s.blocks = [] ∧ s.launches = [] ∧ s.l1 = [] ∧ s.l2 = [] ∧ s.l3 = [] ∧ s.dir = [] ∧ s.remote = [] ∧ s.tlb = [] ∧
  s.tables = [] ∧ s.mem = [] ∧
  s.code = 0 ∧ s.devId = 0 ∧ s.linkEn = 0 ∧ s.agenda = [] ∧ s.cur = none ∧
  (∀ p < 4, ∀ q < 64, (s.queue p q).ctl = 0 ∧ (s.queue p q).widx = 0 ∧ (s.queue p q).ridx = 0 ∧ (s.queue p q).st = 0) ∧
  (∀ p < 4, ∀ off ∈ [0x1108, 0x1208, 0x1220, 0x1300, 0x1330], (s.part p).readUnit off = 0) ∧
  canonical s ∧ linesOnce s ∧ named s

/-- Every step keeps the memory, the scratchpads and the tiles in canonical form, whatever it does: from every state in that
form, not only from those that a run reaches. The model's own readings are in log 2. -/
def Obligations.StepKeepsCanonical : Prop := ∀ (s t : State), canonical s → step s = .next t → canonical t

/-- R112, R113: no step gives a cluster a second copy of a line, so that a release leaves nothing behind. Every step keeps
the blocks and the launches under numbers of their own, and each gang at its place. The numbers are the model's (log 4). -/
def Obligations.StepKeepsReferences : Prop :=
  (∀ (s t : State), linesOnce s → step s = .next t → linesOnce t) ∧
  (∀ (s t : State), named s → step s = .next t → named t)

end
end

