-- ==== Sys2Proof/Laws/State.lean ====
section
/-! SUPPORT. What each named update of the state leaves as it is, one lemma per field, so that no proof unfolds a record update. -/

namespace Sys2Proof.Laws
open Sys2Proof.Machine

/-! A change of one block. -/

@[simp] theorem State.modBlock_agenda (s : State) (u : Nat) (f : Block → Block) : (s.modBlock u f).agenda = s.agenda := rfl
@[simp] theorem State.modBlock_cur (s : State) (u : Nat) (f : Block → Block) : (s.modBlock u f).cur = s.cur := rfl
@[simp] theorem State.modBlock_freeCtr (s : State) (u : Nat) (f : Block → Block) : (s.modBlock u f).freeCtr = s.freeCtr := rfl
@[simp] theorem State.modBlock_turn (s : State) (u : Nat) (f : Block → Block) : (s.modBlock u f).turn = s.turn := rfl
@[simp] theorem State.modBlock_tick (s : State) (u : Nat) (f : Block → Block) : (s.modBlock u f).tick = s.tick := rfl
@[simp] theorem State.modBlock_time (s : State) (u : Nat) (f : Block → Block) : (s.modBlock u f).time = s.time := rfl
@[simp] theorem State.modBlock_nextId (s : State) (u : Nat) (f : Block → Block) : (s.modBlock u f).nextId = s.nextId := rfl
@[simp] theorem State.modBlock_mem (s : State) (u : Nat) (f : Block → Block) : (s.modBlock u f).mem = s.mem := rfl
@[simp] theorem State.modBlock_lines (s : State) (u : Nat) (f : Block → Block) : (s.modBlock u f).lines = s.lines := rfl
@[simp] theorem State.modBlock_l3 (s : State) (u : Nat) (f : Block → Block) : (s.modBlock u f).l3 = s.l3 := rfl
@[simp] theorem State.modBlock_writes (s : State) (u : Nat) (f : Block → Block) : (s.modBlock u f).writes = s.writes := rfl
@[simp] theorem State.modBlock_floor (s : State) (u : Nat) (f : Block → Block) : (s.modBlock u f).floor = s.floor := rfl
@[simp] theorem State.modBlock_l1 (s : State) (u : Nat) (f : Block → Block) : (s.modBlock u f).l1 = s.l1 := rfl
@[simp] theorem State.modBlock_l2 (s : State) (u : Nat) (f : Block → Block) : (s.modBlock u f).l2 = s.l2 := rfl
@[simp] theorem State.modBlock_dir (s : State) (u : Nat) (f : Block → Block) : (s.modBlock u f).dir = s.dir := rfl
@[simp] theorem State.modBlock_remote (s : State) (u : Nat) (f : Block → Block) : (s.modBlock u f).remote = s.remote := rfl
@[simp] theorem State.modBlock_tlb (s : State) (u : Nat) (f : Block → Block) : (s.modBlock u f).tlb = s.tlb := rfl
@[simp] theorem State.modBlock_tables (s : State) (u : Nat) (f : Block → Block) : (s.modBlock u f).tables = s.tables := rfl
@[simp] theorem State.modBlock_launches (s : State) (u : Nat) (f : Block → Block) : (s.modBlock u f).launches = s.launches := rfl
@[simp] theorem State.modBlock_holders (s : State) (u : Nat) (f : Block → Block) : (s.modBlock u f).holders = s.holders := rfl
@[simp] theorem State.modBlock_quads (s : State) (u : Nat) (f : Block → Block) : (s.modBlock u f).quads = s.quads := rfl
@[simp] theorem State.modBlock_code (s : State) (u : Nat) (f : Block → Block) : (s.modBlock u f).code = s.code := rfl
@[simp] theorem State.modBlock_parts (s : State) (u : Nat) (f : Block → Block) : (s.modBlock u f).parts = s.parts := rfl
@[simp] theorem State.modBlock_dieFailed (s : State) (u : Nat) (f : Block → Block) : (s.modBlock u f).dieFailed = s.dieFailed := rfl
@[simp] theorem State.modBlock_dieInc (s : State) (u : Nat) (f : Block → Block) : (s.modBlock u f).dieInc = s.dieInc := rfl
@[simp] theorem State.modBlock_linkEn (s : State) (u : Nat) (f : Block → Block) : (s.modBlock u f).linkEn = s.linkEn := rfl
@[simp] theorem State.modBlock_devId (s : State) (u : Nat) (f : Block → Block) : (s.modBlock u f).devId = s.devId := rfl
@[simp] theorem State.modBlock_routes (s : State) (u : Nat) (f : Block → Block) : (s.modBlock u f).routes = s.routes := rfl
@[simp] theorem State.modBlock_links (s : State) (u : Nat) (f : Block → Block) : (s.modBlock u f).links = s.links := rfl
@[simp] theorem State.modBlock_fseqOut (s : State) (u : Nat) (f : Block → Block) : (s.modBlock u f).fseqOut = s.fseqOut := rfl
@[simp] theorem State.modBlock_fseqIn (s : State) (u : Nat) (f : Block → Block) : (s.modBlock u f).fseqIn = s.fseqIn := rfl
@[simp] theorem State.modBlock_arrived (s : State) (u : Nat) (f : Block → Block) : (s.modBlock u f).arrived = s.arrived := rfl
@[simp] theorem State.modBlock_early (s : State) (u : Nat) (f : Block → Block) : (s.modBlock u f).early = s.early := rfl
@[simp] theorem State.modBlock_requests (s : State) (u : Nat) (f : Block → Block) : (s.modBlock u f).requests = s.requests := rfl
@[simp] theorem State.modBlock_deadLines (s : State) (u : Nat) (f : Block → Block) : (s.modBlock u f).deadLines = s.deadLines := rfl
@[simp] theorem State.modBlock_nextTag (s : State) (u : Nat) (f : Block → Block) : (s.modBlock u f).nextTag = s.nextTag := rfl
@[simp] theorem State.modBlock_sessions (s : State) (u : Nat) (f : Block → Block) : (s.modBlock u f).sessions = s.sessions := rfl
@[simp] theorem State.modBlock_conns (s : State) (u : Nat) (f : Block → Block) : (s.modBlock u f).conns = s.conns := rfl
@[simp] theorem State.modBlock_portAddrs (s : State) (u : Nat) (f : Block → Block) : (s.modBlock u f).portAddrs = s.portAddrs := rfl
@[simp] theorem State.modBlock_portDiscards (s : State) (u : Nat) (f : Block → Block) : (s.modBlock u f).portDiscards = s.portDiscards := rfl
@[simp] theorem State.modBlock_mgmt (s : State) (u : Nat) (f : Block → Block) : (s.modBlock u f).mgmt = s.mgmt := rfl

/-! A change of one gang. -/

@[simp] theorem State.modGang_agenda (s : State) (u g : Nat) (f : Gang → Gang) : (s.modGang u g f).agenda = s.agenda := rfl
@[simp] theorem State.modGang_cur (s : State) (u g : Nat) (f : Gang → Gang) : (s.modGang u g f).cur = s.cur := rfl
@[simp] theorem State.modGang_freeCtr (s : State) (u g : Nat) (f : Gang → Gang) : (s.modGang u g f).freeCtr = s.freeCtr := rfl
@[simp] theorem State.modGang_turn (s : State) (u g : Nat) (f : Gang → Gang) : (s.modGang u g f).turn = s.turn := rfl
@[simp] theorem State.modGang_tick (s : State) (u g : Nat) (f : Gang → Gang) : (s.modGang u g f).tick = s.tick := rfl
@[simp] theorem State.modGang_time (s : State) (u g : Nat) (f : Gang → Gang) : (s.modGang u g f).time = s.time := rfl
@[simp] theorem State.modGang_nextId (s : State) (u g : Nat) (f : Gang → Gang) : (s.modGang u g f).nextId = s.nextId := rfl
@[simp] theorem State.modGang_mem (s : State) (u g : Nat) (f : Gang → Gang) : (s.modGang u g f).mem = s.mem := rfl
@[simp] theorem State.modGang_lines (s : State) (u g : Nat) (f : Gang → Gang) : (s.modGang u g f).lines = s.lines := rfl
@[simp] theorem State.modGang_l3 (s : State) (u g : Nat) (f : Gang → Gang) : (s.modGang u g f).l3 = s.l3 := rfl
@[simp] theorem State.modGang_writes (s : State) (u g : Nat) (f : Gang → Gang) : (s.modGang u g f).writes = s.writes := rfl
@[simp] theorem State.modGang_floor (s : State) (u g : Nat) (f : Gang → Gang) : (s.modGang u g f).floor = s.floor := rfl
@[simp] theorem State.modGang_l1 (s : State) (u g : Nat) (f : Gang → Gang) : (s.modGang u g f).l1 = s.l1 := rfl
@[simp] theorem State.modGang_l2 (s : State) (u g : Nat) (f : Gang → Gang) : (s.modGang u g f).l2 = s.l2 := rfl
@[simp] theorem State.modGang_dir (s : State) (u g : Nat) (f : Gang → Gang) : (s.modGang u g f).dir = s.dir := rfl
@[simp] theorem State.modGang_remote (s : State) (u g : Nat) (f : Gang → Gang) : (s.modGang u g f).remote = s.remote := rfl
@[simp] theorem State.modGang_tlb (s : State) (u g : Nat) (f : Gang → Gang) : (s.modGang u g f).tlb = s.tlb := rfl
@[simp] theorem State.modGang_tables (s : State) (u g : Nat) (f : Gang → Gang) : (s.modGang u g f).tables = s.tables := rfl
@[simp] theorem State.modGang_launches (s : State) (u g : Nat) (f : Gang → Gang) : (s.modGang u g f).launches = s.launches := rfl
@[simp] theorem State.modGang_holders (s : State) (u g : Nat) (f : Gang → Gang) : (s.modGang u g f).holders = s.holders := rfl
@[simp] theorem State.modGang_quads (s : State) (u g : Nat) (f : Gang → Gang) : (s.modGang u g f).quads = s.quads := rfl
@[simp] theorem State.modGang_code (s : State) (u g : Nat) (f : Gang → Gang) : (s.modGang u g f).code = s.code := rfl
@[simp] theorem State.modGang_parts (s : State) (u g : Nat) (f : Gang → Gang) : (s.modGang u g f).parts = s.parts := rfl
@[simp] theorem State.modGang_dieFailed (s : State) (u g : Nat) (f : Gang → Gang) : (s.modGang u g f).dieFailed = s.dieFailed := rfl
@[simp] theorem State.modGang_dieInc (s : State) (u g : Nat) (f : Gang → Gang) : (s.modGang u g f).dieInc = s.dieInc := rfl
@[simp] theorem State.modGang_linkEn (s : State) (u g : Nat) (f : Gang → Gang) : (s.modGang u g f).linkEn = s.linkEn := rfl
@[simp] theorem State.modGang_devId (s : State) (u g : Nat) (f : Gang → Gang) : (s.modGang u g f).devId = s.devId := rfl
@[simp] theorem State.modGang_routes (s : State) (u g : Nat) (f : Gang → Gang) : (s.modGang u g f).routes = s.routes := rfl
@[simp] theorem State.modGang_links (s : State) (u g : Nat) (f : Gang → Gang) : (s.modGang u g f).links = s.links := rfl
@[simp] theorem State.modGang_fseqOut (s : State) (u g : Nat) (f : Gang → Gang) : (s.modGang u g f).fseqOut = s.fseqOut := rfl
@[simp] theorem State.modGang_fseqIn (s : State) (u g : Nat) (f : Gang → Gang) : (s.modGang u g f).fseqIn = s.fseqIn := rfl
@[simp] theorem State.modGang_arrived (s : State) (u g : Nat) (f : Gang → Gang) : (s.modGang u g f).arrived = s.arrived := rfl
@[simp] theorem State.modGang_early (s : State) (u g : Nat) (f : Gang → Gang) : (s.modGang u g f).early = s.early := rfl
@[simp] theorem State.modGang_requests (s : State) (u g : Nat) (f : Gang → Gang) : (s.modGang u g f).requests = s.requests := rfl
@[simp] theorem State.modGang_deadLines (s : State) (u g : Nat) (f : Gang → Gang) : (s.modGang u g f).deadLines = s.deadLines := rfl
@[simp] theorem State.modGang_nextTag (s : State) (u g : Nat) (f : Gang → Gang) : (s.modGang u g f).nextTag = s.nextTag := rfl
@[simp] theorem State.modGang_sessions (s : State) (u g : Nat) (f : Gang → Gang) : (s.modGang u g f).sessions = s.sessions := rfl
@[simp] theorem State.modGang_conns (s : State) (u g : Nat) (f : Gang → Gang) : (s.modGang u g f).conns = s.conns := rfl
@[simp] theorem State.modGang_portAddrs (s : State) (u g : Nat) (f : Gang → Gang) : (s.modGang u g f).portAddrs = s.portAddrs := rfl
@[simp] theorem State.modGang_portDiscards (s : State) (u g : Nat) (f : Gang → Gang) : (s.modGang u g f).portDiscards = s.portDiscards := rfl
@[simp] theorem State.modGang_mgmt (s : State) (u g : Nat) (f : Gang → Gang) : (s.modGang u g f).mgmt = s.mgmt := rfl

/-! A change of one launch. -/

@[simp] theorem State.modLaunch_agenda (s : State) (a : Nat) (f : Launch → Launch) : (s.modLaunch a f).agenda = s.agenda := rfl
@[simp] theorem State.modLaunch_cur (s : State) (a : Nat) (f : Launch → Launch) : (s.modLaunch a f).cur = s.cur := rfl
@[simp] theorem State.modLaunch_freeCtr (s : State) (a : Nat) (f : Launch → Launch) : (s.modLaunch a f).freeCtr = s.freeCtr := rfl
@[simp] theorem State.modLaunch_turn (s : State) (a : Nat) (f : Launch → Launch) : (s.modLaunch a f).turn = s.turn := rfl
@[simp] theorem State.modLaunch_tick (s : State) (a : Nat) (f : Launch → Launch) : (s.modLaunch a f).tick = s.tick := rfl
@[simp] theorem State.modLaunch_time (s : State) (a : Nat) (f : Launch → Launch) : (s.modLaunch a f).time = s.time := rfl
@[simp] theorem State.modLaunch_nextId (s : State) (a : Nat) (f : Launch → Launch) : (s.modLaunch a f).nextId = s.nextId := rfl
@[simp] theorem State.modLaunch_mem (s : State) (a : Nat) (f : Launch → Launch) : (s.modLaunch a f).mem = s.mem := rfl
@[simp] theorem State.modLaunch_lines (s : State) (a : Nat) (f : Launch → Launch) : (s.modLaunch a f).lines = s.lines := rfl
@[simp] theorem State.modLaunch_l3 (s : State) (a : Nat) (f : Launch → Launch) : (s.modLaunch a f).l3 = s.l3 := rfl
@[simp] theorem State.modLaunch_writes (s : State) (a : Nat) (f : Launch → Launch) : (s.modLaunch a f).writes = s.writes := rfl
@[simp] theorem State.modLaunch_floor (s : State) (a : Nat) (f : Launch → Launch) : (s.modLaunch a f).floor = s.floor := rfl
@[simp] theorem State.modLaunch_l1 (s : State) (a : Nat) (f : Launch → Launch) : (s.modLaunch a f).l1 = s.l1 := rfl
@[simp] theorem State.modLaunch_l2 (s : State) (a : Nat) (f : Launch → Launch) : (s.modLaunch a f).l2 = s.l2 := rfl
@[simp] theorem State.modLaunch_dir (s : State) (a : Nat) (f : Launch → Launch) : (s.modLaunch a f).dir = s.dir := rfl
@[simp] theorem State.modLaunch_remote (s : State) (a : Nat) (f : Launch → Launch) : (s.modLaunch a f).remote = s.remote := rfl
@[simp] theorem State.modLaunch_tlb (s : State) (a : Nat) (f : Launch → Launch) : (s.modLaunch a f).tlb = s.tlb := rfl
@[simp] theorem State.modLaunch_tables (s : State) (a : Nat) (f : Launch → Launch) : (s.modLaunch a f).tables = s.tables := rfl
@[simp] theorem State.modLaunch_blocks (s : State) (a : Nat) (f : Launch → Launch) : (s.modLaunch a f).blocks = s.blocks := rfl
@[simp] theorem State.modLaunch_holders (s : State) (a : Nat) (f : Launch → Launch) : (s.modLaunch a f).holders = s.holders := rfl
@[simp] theorem State.modLaunch_quads (s : State) (a : Nat) (f : Launch → Launch) : (s.modLaunch a f).quads = s.quads := rfl
@[simp] theorem State.modLaunch_code (s : State) (a : Nat) (f : Launch → Launch) : (s.modLaunch a f).code = s.code := rfl
@[simp] theorem State.modLaunch_parts (s : State) (a : Nat) (f : Launch → Launch) : (s.modLaunch a f).parts = s.parts := rfl
@[simp] theorem State.modLaunch_dieFailed (s : State) (a : Nat) (f : Launch → Launch) : (s.modLaunch a f).dieFailed = s.dieFailed := rfl
@[simp] theorem State.modLaunch_dieInc (s : State) (a : Nat) (f : Launch → Launch) : (s.modLaunch a f).dieInc = s.dieInc := rfl
@[simp] theorem State.modLaunch_linkEn (s : State) (a : Nat) (f : Launch → Launch) : (s.modLaunch a f).linkEn = s.linkEn := rfl
@[simp] theorem State.modLaunch_devId (s : State) (a : Nat) (f : Launch → Launch) : (s.modLaunch a f).devId = s.devId := rfl
@[simp] theorem State.modLaunch_routes (s : State) (a : Nat) (f : Launch → Launch) : (s.modLaunch a f).routes = s.routes := rfl
@[simp] theorem State.modLaunch_links (s : State) (a : Nat) (f : Launch → Launch) : (s.modLaunch a f).links = s.links := rfl
@[simp] theorem State.modLaunch_fseqOut (s : State) (a : Nat) (f : Launch → Launch) : (s.modLaunch a f).fseqOut = s.fseqOut := rfl
@[simp] theorem State.modLaunch_fseqIn (s : State) (a : Nat) (f : Launch → Launch) : (s.modLaunch a f).fseqIn = s.fseqIn := rfl
@[simp] theorem State.modLaunch_arrived (s : State) (a : Nat) (f : Launch → Launch) : (s.modLaunch a f).arrived = s.arrived := rfl
@[simp] theorem State.modLaunch_early (s : State) (a : Nat) (f : Launch → Launch) : (s.modLaunch a f).early = s.early := rfl
@[simp] theorem State.modLaunch_requests (s : State) (a : Nat) (f : Launch → Launch) : (s.modLaunch a f).requests = s.requests := rfl
@[simp] theorem State.modLaunch_deadLines (s : State) (a : Nat) (f : Launch → Launch) : (s.modLaunch a f).deadLines = s.deadLines := rfl
@[simp] theorem State.modLaunch_nextTag (s : State) (a : Nat) (f : Launch → Launch) : (s.modLaunch a f).nextTag = s.nextTag := rfl
@[simp] theorem State.modLaunch_sessions (s : State) (a : Nat) (f : Launch → Launch) : (s.modLaunch a f).sessions = s.sessions := rfl
@[simp] theorem State.modLaunch_conns (s : State) (a : Nat) (f : Launch → Launch) : (s.modLaunch a f).conns = s.conns := rfl
@[simp] theorem State.modLaunch_portAddrs (s : State) (a : Nat) (f : Launch → Launch) : (s.modLaunch a f).portAddrs = s.portAddrs := rfl
@[simp] theorem State.modLaunch_portDiscards (s : State) (a : Nat) (f : Launch → Launch) : (s.modLaunch a f).portDiscards = s.portDiscards := rfl
@[simp] theorem State.modLaunch_mgmt (s : State) (a : Nat) (f : Launch → Launch) : (s.modLaunch a f).mgmt = s.mgmt := rfl

/-! A change of one partition. -/

@[simp] theorem State.modPart_agenda (s : State) (p : Nat) (f : Partition → Partition) : (s.modPart p f).agenda = s.agenda := rfl
@[simp] theorem State.modPart_cur (s : State) (p : Nat) (f : Partition → Partition) : (s.modPart p f).cur = s.cur := rfl
@[simp] theorem State.modPart_freeCtr (s : State) (p : Nat) (f : Partition → Partition) : (s.modPart p f).freeCtr = s.freeCtr := rfl
@[simp] theorem State.modPart_turn (s : State) (p : Nat) (f : Partition → Partition) : (s.modPart p f).turn = s.turn := rfl
@[simp] theorem State.modPart_tick (s : State) (p : Nat) (f : Partition → Partition) : (s.modPart p f).tick = s.tick := rfl
@[simp] theorem State.modPart_time (s : State) (p : Nat) (f : Partition → Partition) : (s.modPart p f).time = s.time := rfl
@[simp] theorem State.modPart_nextId (s : State) (p : Nat) (f : Partition → Partition) : (s.modPart p f).nextId = s.nextId := rfl
@[simp] theorem State.modPart_mem (s : State) (p : Nat) (f : Partition → Partition) : (s.modPart p f).mem = s.mem := rfl
@[simp] theorem State.modPart_lines (s : State) (p : Nat) (f : Partition → Partition) : (s.modPart p f).lines = s.lines := rfl
@[simp] theorem State.modPart_l3 (s : State) (p : Nat) (f : Partition → Partition) : (s.modPart p f).l3 = s.l3 := rfl
@[simp] theorem State.modPart_writes (s : State) (p : Nat) (f : Partition → Partition) : (s.modPart p f).writes = s.writes := rfl
@[simp] theorem State.modPart_floor (s : State) (p : Nat) (f : Partition → Partition) : (s.modPart p f).floor = s.floor := rfl
@[simp] theorem State.modPart_l1 (s : State) (p : Nat) (f : Partition → Partition) : (s.modPart p f).l1 = s.l1 := rfl
@[simp] theorem State.modPart_l2 (s : State) (p : Nat) (f : Partition → Partition) : (s.modPart p f).l2 = s.l2 := rfl
@[simp] theorem State.modPart_dir (s : State) (p : Nat) (f : Partition → Partition) : (s.modPart p f).dir = s.dir := rfl
@[simp] theorem State.modPart_remote (s : State) (p : Nat) (f : Partition → Partition) : (s.modPart p f).remote = s.remote := rfl
@[simp] theorem State.modPart_tlb (s : State) (p : Nat) (f : Partition → Partition) : (s.modPart p f).tlb = s.tlb := rfl
@[simp] theorem State.modPart_tables (s : State) (p : Nat) (f : Partition → Partition) : (s.modPart p f).tables = s.tables := rfl
@[simp] theorem State.modPart_blocks (s : State) (p : Nat) (f : Partition → Partition) : (s.modPart p f).blocks = s.blocks := rfl
@[simp] theorem State.modPart_launches (s : State) (p : Nat) (f : Partition → Partition) : (s.modPart p f).launches = s.launches := rfl
@[simp] theorem State.modPart_holders (s : State) (p : Nat) (f : Partition → Partition) : (s.modPart p f).holders = s.holders := rfl
@[simp] theorem State.modPart_quads (s : State) (p : Nat) (f : Partition → Partition) : (s.modPart p f).quads = s.quads := rfl
@[simp] theorem State.modPart_code (s : State) (p : Nat) (f : Partition → Partition) : (s.modPart p f).code = s.code := rfl
@[simp] theorem State.modPart_dieFailed (s : State) (p : Nat) (f : Partition → Partition) : (s.modPart p f).dieFailed = s.dieFailed := rfl
@[simp] theorem State.modPart_dieInc (s : State) (p : Nat) (f : Partition → Partition) : (s.modPart p f).dieInc = s.dieInc := rfl
@[simp] theorem State.modPart_linkEn (s : State) (p : Nat) (f : Partition → Partition) : (s.modPart p f).linkEn = s.linkEn := rfl
@[simp] theorem State.modPart_devId (s : State) (p : Nat) (f : Partition → Partition) : (s.modPart p f).devId = s.devId := rfl
@[simp] theorem State.modPart_routes (s : State) (p : Nat) (f : Partition → Partition) : (s.modPart p f).routes = s.routes := rfl
@[simp] theorem State.modPart_links (s : State) (p : Nat) (f : Partition → Partition) : (s.modPart p f).links = s.links := rfl
@[simp] theorem State.modPart_fseqOut (s : State) (p : Nat) (f : Partition → Partition) : (s.modPart p f).fseqOut = s.fseqOut := rfl
@[simp] theorem State.modPart_fseqIn (s : State) (p : Nat) (f : Partition → Partition) : (s.modPart p f).fseqIn = s.fseqIn := rfl
@[simp] theorem State.modPart_arrived (s : State) (p : Nat) (f : Partition → Partition) : (s.modPart p f).arrived = s.arrived := rfl
@[simp] theorem State.modPart_early (s : State) (p : Nat) (f : Partition → Partition) : (s.modPart p f).early = s.early := rfl
@[simp] theorem State.modPart_requests (s : State) (p : Nat) (f : Partition → Partition) : (s.modPart p f).requests = s.requests := rfl
@[simp] theorem State.modPart_deadLines (s : State) (p : Nat) (f : Partition → Partition) : (s.modPart p f).deadLines = s.deadLines := rfl
@[simp] theorem State.modPart_nextTag (s : State) (p : Nat) (f : Partition → Partition) : (s.modPart p f).nextTag = s.nextTag := rfl
@[simp] theorem State.modPart_sessions (s : State) (p : Nat) (f : Partition → Partition) : (s.modPart p f).sessions = s.sessions := rfl
@[simp] theorem State.modPart_conns (s : State) (p : Nat) (f : Partition → Partition) : (s.modPart p f).conns = s.conns := rfl
@[simp] theorem State.modPart_portAddrs (s : State) (p : Nat) (f : Partition → Partition) : (s.modPart p f).portAddrs = s.portAddrs := rfl
@[simp] theorem State.modPart_portDiscards (s : State) (p : Nat) (f : Partition → Partition) : (s.modPart p f).portDiscards = s.portDiscards := rfl
@[simp] theorem State.modPart_mgmt (s : State) (p : Nat) (f : Partition → Partition) : (s.modPart p f).mgmt = s.mgmt := rfl

/-! A change of one queue slot. -/

@[simp] theorem State.modQueue_agenda (s : State) (p q : Nat) (f : Queue → Queue) : (s.modQueue p q f).agenda = s.agenda := rfl
@[simp] theorem State.modQueue_cur (s : State) (p q : Nat) (f : Queue → Queue) : (s.modQueue p q f).cur = s.cur := rfl
@[simp] theorem State.modQueue_freeCtr (s : State) (p q : Nat) (f : Queue → Queue) : (s.modQueue p q f).freeCtr = s.freeCtr := rfl
@[simp] theorem State.modQueue_turn (s : State) (p q : Nat) (f : Queue → Queue) : (s.modQueue p q f).turn = s.turn := rfl
@[simp] theorem State.modQueue_tick (s : State) (p q : Nat) (f : Queue → Queue) : (s.modQueue p q f).tick = s.tick := rfl
@[simp] theorem State.modQueue_time (s : State) (p q : Nat) (f : Queue → Queue) : (s.modQueue p q f).time = s.time := rfl
@[simp] theorem State.modQueue_nextId (s : State) (p q : Nat) (f : Queue → Queue) : (s.modQueue p q f).nextId = s.nextId := rfl
@[simp] theorem State.modQueue_mem (s : State) (p q : Nat) (f : Queue → Queue) : (s.modQueue p q f).mem = s.mem := rfl
@[simp] theorem State.modQueue_lines (s : State) (p q : Nat) (f : Queue → Queue) : (s.modQueue p q f).lines = s.lines := rfl
@[simp] theorem State.modQueue_l3 (s : State) (p q : Nat) (f : Queue → Queue) : (s.modQueue p q f).l3 = s.l3 := rfl
@[simp] theorem State.modQueue_writes (s : State) (p q : Nat) (f : Queue → Queue) : (s.modQueue p q f).writes = s.writes := rfl
@[simp] theorem State.modQueue_floor (s : State) (p q : Nat) (f : Queue → Queue) : (s.modQueue p q f).floor = s.floor := rfl
@[simp] theorem State.modQueue_l1 (s : State) (p q : Nat) (f : Queue → Queue) : (s.modQueue p q f).l1 = s.l1 := rfl
@[simp] theorem State.modQueue_l2 (s : State) (p q : Nat) (f : Queue → Queue) : (s.modQueue p q f).l2 = s.l2 := rfl
@[simp] theorem State.modQueue_dir (s : State) (p q : Nat) (f : Queue → Queue) : (s.modQueue p q f).dir = s.dir := rfl
@[simp] theorem State.modQueue_remote (s : State) (p q : Nat) (f : Queue → Queue) : (s.modQueue p q f).remote = s.remote := rfl
@[simp] theorem State.modQueue_tlb (s : State) (p q : Nat) (f : Queue → Queue) : (s.modQueue p q f).tlb = s.tlb := rfl
@[simp] theorem State.modQueue_tables (s : State) (p q : Nat) (f : Queue → Queue) : (s.modQueue p q f).tables = s.tables := rfl
@[simp] theorem State.modQueue_blocks (s : State) (p q : Nat) (f : Queue → Queue) : (s.modQueue p q f).blocks = s.blocks := rfl
@[simp] theorem State.modQueue_launches (s : State) (p q : Nat) (f : Queue → Queue) : (s.modQueue p q f).launches = s.launches := rfl
@[simp] theorem State.modQueue_holders (s : State) (p q : Nat) (f : Queue → Queue) : (s.modQueue p q f).holders = s.holders := rfl
@[simp] theorem State.modQueue_quads (s : State) (p q : Nat) (f : Queue → Queue) : (s.modQueue p q f).quads = s.quads := rfl
@[simp] theorem State.modQueue_code (s : State) (p q : Nat) (f : Queue → Queue) : (s.modQueue p q f).code = s.code := rfl
@[simp] theorem State.modQueue_dieFailed (s : State) (p q : Nat) (f : Queue → Queue) : (s.modQueue p q f).dieFailed = s.dieFailed := rfl
@[simp] theorem State.modQueue_dieInc (s : State) (p q : Nat) (f : Queue → Queue) : (s.modQueue p q f).dieInc = s.dieInc := rfl
@[simp] theorem State.modQueue_linkEn (s : State) (p q : Nat) (f : Queue → Queue) : (s.modQueue p q f).linkEn = s.linkEn := rfl
@[simp] theorem State.modQueue_devId (s : State) (p q : Nat) (f : Queue → Queue) : (s.modQueue p q f).devId = s.devId := rfl
@[simp] theorem State.modQueue_routes (s : State) (p q : Nat) (f : Queue → Queue) : (s.modQueue p q f).routes = s.routes := rfl
@[simp] theorem State.modQueue_links (s : State) (p q : Nat) (f : Queue → Queue) : (s.modQueue p q f).links = s.links := rfl
@[simp] theorem State.modQueue_fseqOut (s : State) (p q : Nat) (f : Queue → Queue) : (s.modQueue p q f).fseqOut = s.fseqOut := rfl
@[simp] theorem State.modQueue_fseqIn (s : State) (p q : Nat) (f : Queue → Queue) : (s.modQueue p q f).fseqIn = s.fseqIn := rfl
@[simp] theorem State.modQueue_arrived (s : State) (p q : Nat) (f : Queue → Queue) : (s.modQueue p q f).arrived = s.arrived := rfl
@[simp] theorem State.modQueue_early (s : State) (p q : Nat) (f : Queue → Queue) : (s.modQueue p q f).early = s.early := rfl
@[simp] theorem State.modQueue_requests (s : State) (p q : Nat) (f : Queue → Queue) : (s.modQueue p q f).requests = s.requests := rfl
@[simp] theorem State.modQueue_deadLines (s : State) (p q : Nat) (f : Queue → Queue) : (s.modQueue p q f).deadLines = s.deadLines := rfl
@[simp] theorem State.modQueue_nextTag (s : State) (p q : Nat) (f : Queue → Queue) : (s.modQueue p q f).nextTag = s.nextTag := rfl
@[simp] theorem State.modQueue_sessions (s : State) (p q : Nat) (f : Queue → Queue) : (s.modQueue p q f).sessions = s.sessions := rfl
@[simp] theorem State.modQueue_conns (s : State) (p q : Nat) (f : Queue → Queue) : (s.modQueue p q f).conns = s.conns := rfl
@[simp] theorem State.modQueue_portAddrs (s : State) (p q : Nat) (f : Queue → Queue) : (s.modQueue p q f).portAddrs = s.portAddrs := rfl
@[simp] theorem State.modQueue_portDiscards (s : State) (p q : Nat) (f : Queue → Queue) : (s.modQueue p q f).portDiscards = s.portDiscards := rfl
@[simp] theorem State.modQueue_mgmt (s : State) (p q : Nat) (f : Queue → Queue) : (s.modQueue p q f).mgmt = s.mgmt := rfl

/-! A change of one connection. -/

@[simp] theorem State.modConn_agenda (s : State) (n : Nat) (f : Conn → Conn) : (s.modConn n f).agenda = s.agenda := rfl
@[simp] theorem State.modConn_cur (s : State) (n : Nat) (f : Conn → Conn) : (s.modConn n f).cur = s.cur := rfl
@[simp] theorem State.modConn_freeCtr (s : State) (n : Nat) (f : Conn → Conn) : (s.modConn n f).freeCtr = s.freeCtr := rfl
@[simp] theorem State.modConn_turn (s : State) (n : Nat) (f : Conn → Conn) : (s.modConn n f).turn = s.turn := rfl
@[simp] theorem State.modConn_tick (s : State) (n : Nat) (f : Conn → Conn) : (s.modConn n f).tick = s.tick := rfl
@[simp] theorem State.modConn_time (s : State) (n : Nat) (f : Conn → Conn) : (s.modConn n f).time = s.time := rfl
@[simp] theorem State.modConn_nextId (s : State) (n : Nat) (f : Conn → Conn) : (s.modConn n f).nextId = s.nextId := rfl
@[simp] theorem State.modConn_mem (s : State) (n : Nat) (f : Conn → Conn) : (s.modConn n f).mem = s.mem := rfl
@[simp] theorem State.modConn_lines (s : State) (n : Nat) (f : Conn → Conn) : (s.modConn n f).lines = s.lines := rfl
@[simp] theorem State.modConn_l3 (s : State) (n : Nat) (f : Conn → Conn) : (s.modConn n f).l3 = s.l3 := rfl
@[simp] theorem State.modConn_writes (s : State) (n : Nat) (f : Conn → Conn) : (s.modConn n f).writes = s.writes := rfl
@[simp] theorem State.modConn_floor (s : State) (n : Nat) (f : Conn → Conn) : (s.modConn n f).floor = s.floor := rfl
@[simp] theorem State.modConn_l1 (s : State) (n : Nat) (f : Conn → Conn) : (s.modConn n f).l1 = s.l1 := rfl
@[simp] theorem State.modConn_l2 (s : State) (n : Nat) (f : Conn → Conn) : (s.modConn n f).l2 = s.l2 := rfl
@[simp] theorem State.modConn_dir (s : State) (n : Nat) (f : Conn → Conn) : (s.modConn n f).dir = s.dir := rfl
@[simp] theorem State.modConn_remote (s : State) (n : Nat) (f : Conn → Conn) : (s.modConn n f).remote = s.remote := rfl
@[simp] theorem State.modConn_tlb (s : State) (n : Nat) (f : Conn → Conn) : (s.modConn n f).tlb = s.tlb := rfl
@[simp] theorem State.modConn_tables (s : State) (n : Nat) (f : Conn → Conn) : (s.modConn n f).tables = s.tables := rfl
@[simp] theorem State.modConn_blocks (s : State) (n : Nat) (f : Conn → Conn) : (s.modConn n f).blocks = s.blocks := rfl
@[simp] theorem State.modConn_launches (s : State) (n : Nat) (f : Conn → Conn) : (s.modConn n f).launches = s.launches := rfl
@[simp] theorem State.modConn_holders (s : State) (n : Nat) (f : Conn → Conn) : (s.modConn n f).holders = s.holders := rfl
@[simp] theorem State.modConn_quads (s : State) (n : Nat) (f : Conn → Conn) : (s.modConn n f).quads = s.quads := rfl
@[simp] theorem State.modConn_code (s : State) (n : Nat) (f : Conn → Conn) : (s.modConn n f).code = s.code := rfl
@[simp] theorem State.modConn_parts (s : State) (n : Nat) (f : Conn → Conn) : (s.modConn n f).parts = s.parts := rfl
@[simp] theorem State.modConn_dieFailed (s : State) (n : Nat) (f : Conn → Conn) : (s.modConn n f).dieFailed = s.dieFailed := rfl
@[simp] theorem State.modConn_dieInc (s : State) (n : Nat) (f : Conn → Conn) : (s.modConn n f).dieInc = s.dieInc := rfl
@[simp] theorem State.modConn_linkEn (s : State) (n : Nat) (f : Conn → Conn) : (s.modConn n f).linkEn = s.linkEn := rfl
@[simp] theorem State.modConn_devId (s : State) (n : Nat) (f : Conn → Conn) : (s.modConn n f).devId = s.devId := rfl
@[simp] theorem State.modConn_routes (s : State) (n : Nat) (f : Conn → Conn) : (s.modConn n f).routes = s.routes := rfl
@[simp] theorem State.modConn_links (s : State) (n : Nat) (f : Conn → Conn) : (s.modConn n f).links = s.links := rfl
@[simp] theorem State.modConn_fseqOut (s : State) (n : Nat) (f : Conn → Conn) : (s.modConn n f).fseqOut = s.fseqOut := rfl
@[simp] theorem State.modConn_fseqIn (s : State) (n : Nat) (f : Conn → Conn) : (s.modConn n f).fseqIn = s.fseqIn := rfl
@[simp] theorem State.modConn_arrived (s : State) (n : Nat) (f : Conn → Conn) : (s.modConn n f).arrived = s.arrived := rfl
@[simp] theorem State.modConn_early (s : State) (n : Nat) (f : Conn → Conn) : (s.modConn n f).early = s.early := rfl
@[simp] theorem State.modConn_requests (s : State) (n : Nat) (f : Conn → Conn) : (s.modConn n f).requests = s.requests := rfl
@[simp] theorem State.modConn_deadLines (s : State) (n : Nat) (f : Conn → Conn) : (s.modConn n f).deadLines = s.deadLines := rfl
@[simp] theorem State.modConn_nextTag (s : State) (n : Nat) (f : Conn → Conn) : (s.modConn n f).nextTag = s.nextTag := rfl
@[simp] theorem State.modConn_sessions (s : State) (n : Nat) (f : Conn → Conn) : (s.modConn n f).sessions = s.sessions := rfl
@[simp] theorem State.modConn_portAddrs (s : State) (n : Nat) (f : Conn → Conn) : (s.modConn n f).portAddrs = s.portAddrs := rfl
@[simp] theorem State.modConn_portDiscards (s : State) (n : Nat) (f : Conn → Conn) : (s.modConn n f).portDiscards = s.portDiscards := rfl
@[simp] theorem State.modConn_mgmt (s : State) (n : Nat) (f : Conn → Conn) : (s.modConn n f).mgmt = s.mgmt := rfl

/-! A change of a line of one L1. -/

@[simp] theorem State.modL1_agenda (s : State) (cl line key : Nat) (f : L1Line → Option L1Line) : (s.modL1 cl line key f).agenda = s.agenda := rfl
@[simp] theorem State.modL1_cur (s : State) (cl line key : Nat) (f : L1Line → Option L1Line) : (s.modL1 cl line key f).cur = s.cur := rfl
@[simp] theorem State.modL1_freeCtr (s : State) (cl line key : Nat) (f : L1Line → Option L1Line) : (s.modL1 cl line key f).freeCtr = s.freeCtr := rfl
@[simp] theorem State.modL1_turn (s : State) (cl line key : Nat) (f : L1Line → Option L1Line) : (s.modL1 cl line key f).turn = s.turn := rfl
@[simp] theorem State.modL1_tick (s : State) (cl line key : Nat) (f : L1Line → Option L1Line) : (s.modL1 cl line key f).tick = s.tick := rfl
@[simp] theorem State.modL1_time (s : State) (cl line key : Nat) (f : L1Line → Option L1Line) : (s.modL1 cl line key f).time = s.time := rfl
@[simp] theorem State.modL1_nextId (s : State) (cl line key : Nat) (f : L1Line → Option L1Line) : (s.modL1 cl line key f).nextId = s.nextId := rfl
@[simp] theorem State.modL1_mem (s : State) (cl line key : Nat) (f : L1Line → Option L1Line) : (s.modL1 cl line key f).mem = s.mem := rfl
@[simp] theorem State.modL1_lines (s : State) (cl line key : Nat) (f : L1Line → Option L1Line) : (s.modL1 cl line key f).lines = s.lines := rfl
@[simp] theorem State.modL1_l3 (s : State) (cl line key : Nat) (f : L1Line → Option L1Line) : (s.modL1 cl line key f).l3 = s.l3 := rfl
@[simp] theorem State.modL1_writes (s : State) (cl line key : Nat) (f : L1Line → Option L1Line) : (s.modL1 cl line key f).writes = s.writes := rfl
@[simp] theorem State.modL1_floor (s : State) (cl line key : Nat) (f : L1Line → Option L1Line) : (s.modL1 cl line key f).floor = s.floor := rfl
@[simp] theorem State.modL1_l2 (s : State) (cl line key : Nat) (f : L1Line → Option L1Line) : (s.modL1 cl line key f).l2 = s.l2 := rfl
@[simp] theorem State.modL1_dir (s : State) (cl line key : Nat) (f : L1Line → Option L1Line) : (s.modL1 cl line key f).dir = s.dir := rfl
@[simp] theorem State.modL1_remote (s : State) (cl line key : Nat) (f : L1Line → Option L1Line) : (s.modL1 cl line key f).remote = s.remote := rfl
@[simp] theorem State.modL1_tlb (s : State) (cl line key : Nat) (f : L1Line → Option L1Line) : (s.modL1 cl line key f).tlb = s.tlb := rfl
@[simp] theorem State.modL1_tables (s : State) (cl line key : Nat) (f : L1Line → Option L1Line) : (s.modL1 cl line key f).tables = s.tables := rfl
@[simp] theorem State.modL1_blocks (s : State) (cl line key : Nat) (f : L1Line → Option L1Line) : (s.modL1 cl line key f).blocks = s.blocks := rfl
@[simp] theorem State.modL1_launches (s : State) (cl line key : Nat) (f : L1Line → Option L1Line) : (s.modL1 cl line key f).launches = s.launches := rfl
@[simp] theorem State.modL1_holders (s : State) (cl line key : Nat) (f : L1Line → Option L1Line) : (s.modL1 cl line key f).holders = s.holders := rfl
@[simp] theorem State.modL1_quads (s : State) (cl line key : Nat) (f : L1Line → Option L1Line) : (s.modL1 cl line key f).quads = s.quads := rfl
@[simp] theorem State.modL1_code (s : State) (cl line key : Nat) (f : L1Line → Option L1Line) : (s.modL1 cl line key f).code = s.code := rfl
@[simp] theorem State.modL1_parts (s : State) (cl line key : Nat) (f : L1Line → Option L1Line) : (s.modL1 cl line key f).parts = s.parts := rfl
@[simp] theorem State.modL1_dieFailed (s : State) (cl line key : Nat) (f : L1Line → Option L1Line) : (s.modL1 cl line key f).dieFailed = s.dieFailed := rfl
@[simp] theorem State.modL1_dieInc (s : State) (cl line key : Nat) (f : L1Line → Option L1Line) : (s.modL1 cl line key f).dieInc = s.dieInc := rfl
@[simp] theorem State.modL1_linkEn (s : State) (cl line key : Nat) (f : L1Line → Option L1Line) : (s.modL1 cl line key f).linkEn = s.linkEn := rfl
@[simp] theorem State.modL1_devId (s : State) (cl line key : Nat) (f : L1Line → Option L1Line) : (s.modL1 cl line key f).devId = s.devId := rfl
@[simp] theorem State.modL1_routes (s : State) (cl line key : Nat) (f : L1Line → Option L1Line) : (s.modL1 cl line key f).routes = s.routes := rfl
@[simp] theorem State.modL1_links (s : State) (cl line key : Nat) (f : L1Line → Option L1Line) : (s.modL1 cl line key f).links = s.links := rfl
@[simp] theorem State.modL1_fseqOut (s : State) (cl line key : Nat) (f : L1Line → Option L1Line) : (s.modL1 cl line key f).fseqOut = s.fseqOut := rfl
@[simp] theorem State.modL1_fseqIn (s : State) (cl line key : Nat) (f : L1Line → Option L1Line) : (s.modL1 cl line key f).fseqIn = s.fseqIn := rfl
@[simp] theorem State.modL1_arrived (s : State) (cl line key : Nat) (f : L1Line → Option L1Line) : (s.modL1 cl line key f).arrived = s.arrived := rfl
@[simp] theorem State.modL1_early (s : State) (cl line key : Nat) (f : L1Line → Option L1Line) : (s.modL1 cl line key f).early = s.early := rfl
@[simp] theorem State.modL1_requests (s : State) (cl line key : Nat) (f : L1Line → Option L1Line) : (s.modL1 cl line key f).requests = s.requests := rfl
@[simp] theorem State.modL1_deadLines (s : State) (cl line key : Nat) (f : L1Line → Option L1Line) : (s.modL1 cl line key f).deadLines = s.deadLines := rfl
@[simp] theorem State.modL1_nextTag (s : State) (cl line key : Nat) (f : L1Line → Option L1Line) : (s.modL1 cl line key f).nextTag = s.nextTag := rfl
@[simp] theorem State.modL1_sessions (s : State) (cl line key : Nat) (f : L1Line → Option L1Line) : (s.modL1 cl line key f).sessions = s.sessions := rfl
@[simp] theorem State.modL1_conns (s : State) (cl line key : Nat) (f : L1Line → Option L1Line) : (s.modL1 cl line key f).conns = s.conns := rfl
@[simp] theorem State.modL1_portAddrs (s : State) (cl line key : Nat) (f : L1Line → Option L1Line) : (s.modL1 cl line key f).portAddrs = s.portAddrs := rfl
@[simp] theorem State.modL1_portDiscards (s : State) (cl line key : Nat) (f : L1Line → Option L1Line) : (s.modL1 cl line key f).portDiscards = s.portDiscards := rfl
@[simp] theorem State.modL1_mgmt (s : State) (cl line key : Nat) (f : L1Line → Option L1Line) : (s.modL1 cl line key f).mgmt = s.mgmt := rfl

/-! A change of a line of one L2. -/

@[simp] theorem State.setL2_agenda (s : State) (x : L2Line) : (s.setL2 x).agenda = s.agenda := rfl
@[simp] theorem State.setL2_cur (s : State) (x : L2Line) : (s.setL2 x).cur = s.cur := rfl
@[simp] theorem State.setL2_freeCtr (s : State) (x : L2Line) : (s.setL2 x).freeCtr = s.freeCtr := rfl
@[simp] theorem State.setL2_turn (s : State) (x : L2Line) : (s.setL2 x).turn = s.turn := rfl
@[simp] theorem State.setL2_tick (s : State) (x : L2Line) : (s.setL2 x).tick = s.tick := rfl
@[simp] theorem State.setL2_time (s : State) (x : L2Line) : (s.setL2 x).time = s.time := rfl
@[simp] theorem State.setL2_nextId (s : State) (x : L2Line) : (s.setL2 x).nextId = s.nextId := rfl
@[simp] theorem State.setL2_mem (s : State) (x : L2Line) : (s.setL2 x).mem = s.mem := rfl
@[simp] theorem State.setL2_lines (s : State) (x : L2Line) : (s.setL2 x).lines = s.lines := rfl
@[simp] theorem State.setL2_l3 (s : State) (x : L2Line) : (s.setL2 x).l3 = s.l3 := rfl
@[simp] theorem State.setL2_writes (s : State) (x : L2Line) : (s.setL2 x).writes = s.writes := rfl
@[simp] theorem State.setL2_floor (s : State) (x : L2Line) : (s.setL2 x).floor = s.floor := rfl
@[simp] theorem State.setL2_l1 (s : State) (x : L2Line) : (s.setL2 x).l1 = s.l1 := rfl
@[simp] theorem State.setL2_dir (s : State) (x : L2Line) : (s.setL2 x).dir = s.dir := rfl
@[simp] theorem State.setL2_remote (s : State) (x : L2Line) : (s.setL2 x).remote = s.remote := rfl
@[simp] theorem State.setL2_tlb (s : State) (x : L2Line) : (s.setL2 x).tlb = s.tlb := rfl
@[simp] theorem State.setL2_tables (s : State) (x : L2Line) : (s.setL2 x).tables = s.tables := rfl
@[simp] theorem State.setL2_blocks (s : State) (x : L2Line) : (s.setL2 x).blocks = s.blocks := rfl
@[simp] theorem State.setL2_launches (s : State) (x : L2Line) : (s.setL2 x).launches = s.launches := rfl
@[simp] theorem State.setL2_holders (s : State) (x : L2Line) : (s.setL2 x).holders = s.holders := rfl
@[simp] theorem State.setL2_quads (s : State) (x : L2Line) : (s.setL2 x).quads = s.quads := rfl
@[simp] theorem State.setL2_code (s : State) (x : L2Line) : (s.setL2 x).code = s.code := rfl
@[simp] theorem State.setL2_parts (s : State) (x : L2Line) : (s.setL2 x).parts = s.parts := rfl
@[simp] theorem State.setL2_dieFailed (s : State) (x : L2Line) : (s.setL2 x).dieFailed = s.dieFailed := rfl
@[simp] theorem State.setL2_dieInc (s : State) (x : L2Line) : (s.setL2 x).dieInc = s.dieInc := rfl
@[simp] theorem State.setL2_linkEn (s : State) (x : L2Line) : (s.setL2 x).linkEn = s.linkEn := rfl
@[simp] theorem State.setL2_devId (s : State) (x : L2Line) : (s.setL2 x).devId = s.devId := rfl
@[simp] theorem State.setL2_routes (s : State) (x : L2Line) : (s.setL2 x).routes = s.routes := rfl
@[simp] theorem State.setL2_links (s : State) (x : L2Line) : (s.setL2 x).links = s.links := rfl
@[simp] theorem State.setL2_fseqOut (s : State) (x : L2Line) : (s.setL2 x).fseqOut = s.fseqOut := rfl
@[simp] theorem State.setL2_fseqIn (s : State) (x : L2Line) : (s.setL2 x).fseqIn = s.fseqIn := rfl
@[simp] theorem State.setL2_arrived (s : State) (x : L2Line) : (s.setL2 x).arrived = s.arrived := rfl
@[simp] theorem State.setL2_early (s : State) (x : L2Line) : (s.setL2 x).early = s.early := rfl
@[simp] theorem State.setL2_requests (s : State) (x : L2Line) : (s.setL2 x).requests = s.requests := rfl
@[simp] theorem State.setL2_deadLines (s : State) (x : L2Line) : (s.setL2 x).deadLines = s.deadLines := rfl
@[simp] theorem State.setL2_nextTag (s : State) (x : L2Line) : (s.setL2 x).nextTag = s.nextTag := rfl
@[simp] theorem State.setL2_sessions (s : State) (x : L2Line) : (s.setL2 x).sessions = s.sessions := rfl
@[simp] theorem State.setL2_conns (s : State) (x : L2Line) : (s.setL2 x).conns = s.conns := rfl
@[simp] theorem State.setL2_portAddrs (s : State) (x : L2Line) : (s.setL2 x).portAddrs = s.portAddrs := rfl
@[simp] theorem State.setL2_portDiscards (s : State) (x : L2Line) : (s.setL2 x).portDiscards = s.portDiscards := rfl
@[simp] theorem State.setL2_mgmt (s : State) (x : L2Line) : (s.setL2 x).mgmt = s.mgmt := rfl

/-! A change of a line of a slice. -/

@[simp] theorem State.modL3_agenda (s : State) (line key : Nat) (f : L3Line → L3Line) : (s.modL3 line key f).agenda = s.agenda := rfl
@[simp] theorem State.modL3_cur (s : State) (line key : Nat) (f : L3Line → L3Line) : (s.modL3 line key f).cur = s.cur := rfl
@[simp] theorem State.modL3_freeCtr (s : State) (line key : Nat) (f : L3Line → L3Line) : (s.modL3 line key f).freeCtr = s.freeCtr := rfl
@[simp] theorem State.modL3_turn (s : State) (line key : Nat) (f : L3Line → L3Line) : (s.modL3 line key f).turn = s.turn := rfl
@[simp] theorem State.modL3_tick (s : State) (line key : Nat) (f : L3Line → L3Line) : (s.modL3 line key f).tick = s.tick := rfl
@[simp] theorem State.modL3_time (s : State) (line key : Nat) (f : L3Line → L3Line) : (s.modL3 line key f).time = s.time := rfl
@[simp] theorem State.modL3_nextId (s : State) (line key : Nat) (f : L3Line → L3Line) : (s.modL3 line key f).nextId = s.nextId := rfl
@[simp] theorem State.modL3_mem (s : State) (line key : Nat) (f : L3Line → L3Line) : (s.modL3 line key f).mem = s.mem := rfl
@[simp] theorem State.modL3_lines (s : State) (line key : Nat) (f : L3Line → L3Line) : (s.modL3 line key f).lines = s.lines := rfl
@[simp] theorem State.modL3_writes (s : State) (line key : Nat) (f : L3Line → L3Line) : (s.modL3 line key f).writes = s.writes := rfl
@[simp] theorem State.modL3_floor (s : State) (line key : Nat) (f : L3Line → L3Line) : (s.modL3 line key f).floor = s.floor := rfl
@[simp] theorem State.modL3_l1 (s : State) (line key : Nat) (f : L3Line → L3Line) : (s.modL3 line key f).l1 = s.l1 := rfl
@[simp] theorem State.modL3_l2 (s : State) (line key : Nat) (f : L3Line → L3Line) : (s.modL3 line key f).l2 = s.l2 := rfl
@[simp] theorem State.modL3_dir (s : State) (line key : Nat) (f : L3Line → L3Line) : (s.modL3 line key f).dir = s.dir := rfl
@[simp] theorem State.modL3_remote (s : State) (line key : Nat) (f : L3Line → L3Line) : (s.modL3 line key f).remote = s.remote := rfl
@[simp] theorem State.modL3_tlb (s : State) (line key : Nat) (f : L3Line → L3Line) : (s.modL3 line key f).tlb = s.tlb := rfl
@[simp] theorem State.modL3_tables (s : State) (line key : Nat) (f : L3Line → L3Line) : (s.modL3 line key f).tables = s.tables := rfl
@[simp] theorem State.modL3_blocks (s : State) (line key : Nat) (f : L3Line → L3Line) : (s.modL3 line key f).blocks = s.blocks := rfl
@[simp] theorem State.modL3_launches (s : State) (line key : Nat) (f : L3Line → L3Line) : (s.modL3 line key f).launches = s.launches := rfl
@[simp] theorem State.modL3_holders (s : State) (line key : Nat) (f : L3Line → L3Line) : (s.modL3 line key f).holders = s.holders := rfl
@[simp] theorem State.modL3_quads (s : State) (line key : Nat) (f : L3Line → L3Line) : (s.modL3 line key f).quads = s.quads := rfl
@[simp] theorem State.modL3_code (s : State) (line key : Nat) (f : L3Line → L3Line) : (s.modL3 line key f).code = s.code := rfl
@[simp] theorem State.modL3_parts (s : State) (line key : Nat) (f : L3Line → L3Line) : (s.modL3 line key f).parts = s.parts := rfl
@[simp] theorem State.modL3_dieFailed (s : State) (line key : Nat) (f : L3Line → L3Line) : (s.modL3 line key f).dieFailed = s.dieFailed := rfl
@[simp] theorem State.modL3_dieInc (s : State) (line key : Nat) (f : L3Line → L3Line) : (s.modL3 line key f).dieInc = s.dieInc := rfl
@[simp] theorem State.modL3_linkEn (s : State) (line key : Nat) (f : L3Line → L3Line) : (s.modL3 line key f).linkEn = s.linkEn := rfl
@[simp] theorem State.modL3_devId (s : State) (line key : Nat) (f : L3Line → L3Line) : (s.modL3 line key f).devId = s.devId := rfl
@[simp] theorem State.modL3_routes (s : State) (line key : Nat) (f : L3Line → L3Line) : (s.modL3 line key f).routes = s.routes := rfl
@[simp] theorem State.modL3_links (s : State) (line key : Nat) (f : L3Line → L3Line) : (s.modL3 line key f).links = s.links := rfl
@[simp] theorem State.modL3_fseqOut (s : State) (line key : Nat) (f : L3Line → L3Line) : (s.modL3 line key f).fseqOut = s.fseqOut := rfl
@[simp] theorem State.modL3_fseqIn (s : State) (line key : Nat) (f : L3Line → L3Line) : (s.modL3 line key f).fseqIn = s.fseqIn := rfl
@[simp] theorem State.modL3_arrived (s : State) (line key : Nat) (f : L3Line → L3Line) : (s.modL3 line key f).arrived = s.arrived := rfl
@[simp] theorem State.modL3_early (s : State) (line key : Nat) (f : L3Line → L3Line) : (s.modL3 line key f).early = s.early := rfl
@[simp] theorem State.modL3_requests (s : State) (line key : Nat) (f : L3Line → L3Line) : (s.modL3 line key f).requests = s.requests := rfl
@[simp] theorem State.modL3_deadLines (s : State) (line key : Nat) (f : L3Line → L3Line) : (s.modL3 line key f).deadLines = s.deadLines := rfl
@[simp] theorem State.modL3_nextTag (s : State) (line key : Nat) (f : L3Line → L3Line) : (s.modL3 line key f).nextTag = s.nextTag := rfl
@[simp] theorem State.modL3_sessions (s : State) (line key : Nat) (f : L3Line → L3Line) : (s.modL3 line key f).sessions = s.sessions := rfl
@[simp] theorem State.modL3_conns (s : State) (line key : Nat) (f : L3Line → L3Line) : (s.modL3 line key f).conns = s.conns := rfl
@[simp] theorem State.modL3_portAddrs (s : State) (line key : Nat) (f : L3Line → L3Line) : (s.modL3 line key f).portAddrs = s.portAddrs := rfl
@[simp] theorem State.modL3_portDiscards (s : State) (line key : Nat) (f : L3Line → L3Line) : (s.modL3 line key f).portDiscards = s.portDiscards := rfl
@[simp] theorem State.modL3_mgmt (s : State) (line key : Nat) (f : L3Line → L3Line) : (s.modL3 line key f).mgmt = s.mgmt := rfl

/-! A write of a line takes its place. -/

@[simp] theorem State.countWrite_agenda (s : State) (line key : Nat) : (s.countWrite line key).agenda = s.agenda := rfl
@[simp] theorem State.countWrite_cur (s : State) (line key : Nat) : (s.countWrite line key).cur = s.cur := rfl
@[simp] theorem State.countWrite_freeCtr (s : State) (line key : Nat) : (s.countWrite line key).freeCtr = s.freeCtr := rfl
@[simp] theorem State.countWrite_turn (s : State) (line key : Nat) : (s.countWrite line key).turn = s.turn := rfl
@[simp] theorem State.countWrite_tick (s : State) (line key : Nat) : (s.countWrite line key).tick = s.tick := rfl
@[simp] theorem State.countWrite_time (s : State) (line key : Nat) : (s.countWrite line key).time = s.time := rfl
@[simp] theorem State.countWrite_nextId (s : State) (line key : Nat) : (s.countWrite line key).nextId = s.nextId := rfl
@[simp] theorem State.countWrite_mem (s : State) (line key : Nat) : (s.countWrite line key).mem = s.mem := rfl
@[simp] theorem State.countWrite_lines (s : State) (line key : Nat) : (s.countWrite line key).lines = s.lines := rfl
@[simp] theorem State.countWrite_l3 (s : State) (line key : Nat) : (s.countWrite line key).l3 = s.l3 := rfl
@[simp] theorem State.countWrite_floor (s : State) (line key : Nat) : (s.countWrite line key).floor = s.floor := rfl
@[simp] theorem State.countWrite_l1 (s : State) (line key : Nat) : (s.countWrite line key).l1 = s.l1 := rfl
@[simp] theorem State.countWrite_l2 (s : State) (line key : Nat) : (s.countWrite line key).l2 = s.l2 := rfl
@[simp] theorem State.countWrite_dir (s : State) (line key : Nat) : (s.countWrite line key).dir = s.dir := rfl
@[simp] theorem State.countWrite_remote (s : State) (line key : Nat) : (s.countWrite line key).remote = s.remote := rfl
@[simp] theorem State.countWrite_tlb (s : State) (line key : Nat) : (s.countWrite line key).tlb = s.tlb := rfl
@[simp] theorem State.countWrite_tables (s : State) (line key : Nat) : (s.countWrite line key).tables = s.tables := rfl
@[simp] theorem State.countWrite_blocks (s : State) (line key : Nat) : (s.countWrite line key).blocks = s.blocks := rfl
@[simp] theorem State.countWrite_launches (s : State) (line key : Nat) : (s.countWrite line key).launches = s.launches := rfl
@[simp] theorem State.countWrite_holders (s : State) (line key : Nat) : (s.countWrite line key).holders = s.holders := rfl
@[simp] theorem State.countWrite_quads (s : State) (line key : Nat) : (s.countWrite line key).quads = s.quads := rfl
@[simp] theorem State.countWrite_code (s : State) (line key : Nat) : (s.countWrite line key).code = s.code := rfl
@[simp] theorem State.countWrite_parts (s : State) (line key : Nat) : (s.countWrite line key).parts = s.parts := rfl
@[simp] theorem State.countWrite_dieFailed (s : State) (line key : Nat) : (s.countWrite line key).dieFailed = s.dieFailed := rfl
@[simp] theorem State.countWrite_dieInc (s : State) (line key : Nat) : (s.countWrite line key).dieInc = s.dieInc := rfl
@[simp] theorem State.countWrite_linkEn (s : State) (line key : Nat) : (s.countWrite line key).linkEn = s.linkEn := rfl
@[simp] theorem State.countWrite_devId (s : State) (line key : Nat) : (s.countWrite line key).devId = s.devId := rfl
@[simp] theorem State.countWrite_routes (s : State) (line key : Nat) : (s.countWrite line key).routes = s.routes := rfl
@[simp] theorem State.countWrite_links (s : State) (line key : Nat) : (s.countWrite line key).links = s.links := rfl
@[simp] theorem State.countWrite_fseqOut (s : State) (line key : Nat) : (s.countWrite line key).fseqOut = s.fseqOut := rfl
@[simp] theorem State.countWrite_fseqIn (s : State) (line key : Nat) : (s.countWrite line key).fseqIn = s.fseqIn := rfl
@[simp] theorem State.countWrite_arrived (s : State) (line key : Nat) : (s.countWrite line key).arrived = s.arrived := rfl
@[simp] theorem State.countWrite_early (s : State) (line key : Nat) : (s.countWrite line key).early = s.early := rfl
@[simp] theorem State.countWrite_requests (s : State) (line key : Nat) : (s.countWrite line key).requests = s.requests := rfl
@[simp] theorem State.countWrite_deadLines (s : State) (line key : Nat) : (s.countWrite line key).deadLines = s.deadLines := rfl
@[simp] theorem State.countWrite_nextTag (s : State) (line key : Nat) : (s.countWrite line key).nextTag = s.nextTag := rfl
@[simp] theorem State.countWrite_sessions (s : State) (line key : Nat) : (s.countWrite line key).sessions = s.sessions := rfl
@[simp] theorem State.countWrite_conns (s : State) (line key : Nat) : (s.countWrite line key).conns = s.conns := rfl
@[simp] theorem State.countWrite_portAddrs (s : State) (line key : Nat) : (s.countWrite line key).portAddrs = s.portAddrs := rfl
@[simp] theorem State.countWrite_portDiscards (s : State) (line key : Nat) : (s.countWrite line key).portDiscards = s.portDiscards := rfl
@[simp] theorem State.countWrite_mgmt (s : State) (line key : Nat) : (s.countWrite line key).mgmt = s.mgmt := rfl

/-! Taking an open value. -/

@[simp] theorem State.takeFree_agenda (s : State) : (s.takeFree).agenda = s.agenda := rfl
@[simp] theorem State.takeFree_cur (s : State) : (s.takeFree).cur = s.cur := rfl
@[simp] theorem State.takeFree_turn (s : State) : (s.takeFree).turn = s.turn := rfl
@[simp] theorem State.takeFree_tick (s : State) : (s.takeFree).tick = s.tick := rfl
@[simp] theorem State.takeFree_time (s : State) : (s.takeFree).time = s.time := rfl
@[simp] theorem State.takeFree_nextId (s : State) : (s.takeFree).nextId = s.nextId := rfl
@[simp] theorem State.takeFree_mem (s : State) : (s.takeFree).mem = s.mem := rfl
@[simp] theorem State.takeFree_lines (s : State) : (s.takeFree).lines = s.lines := rfl
@[simp] theorem State.takeFree_l3 (s : State) : (s.takeFree).l3 = s.l3 := rfl
@[simp] theorem State.takeFree_writes (s : State) : (s.takeFree).writes = s.writes := rfl
@[simp] theorem State.takeFree_floor (s : State) : (s.takeFree).floor = s.floor := rfl
@[simp] theorem State.takeFree_l1 (s : State) : (s.takeFree).l1 = s.l1 := rfl
@[simp] theorem State.takeFree_l2 (s : State) : (s.takeFree).l2 = s.l2 := rfl
@[simp] theorem State.takeFree_dir (s : State) : (s.takeFree).dir = s.dir := rfl
@[simp] theorem State.takeFree_remote (s : State) : (s.takeFree).remote = s.remote := rfl
@[simp] theorem State.takeFree_tlb (s : State) : (s.takeFree).tlb = s.tlb := rfl
@[simp] theorem State.takeFree_tables (s : State) : (s.takeFree).tables = s.tables := rfl
@[simp] theorem State.takeFree_blocks (s : State) : (s.takeFree).blocks = s.blocks := rfl
@[simp] theorem State.takeFree_launches (s : State) : (s.takeFree).launches = s.launches := rfl
@[simp] theorem State.takeFree_holders (s : State) : (s.takeFree).holders = s.holders := rfl
@[simp] theorem State.takeFree_quads (s : State) : (s.takeFree).quads = s.quads := rfl
@[simp] theorem State.takeFree_code (s : State) : (s.takeFree).code = s.code := rfl
@[simp] theorem State.takeFree_parts (s : State) : (s.takeFree).parts = s.parts := rfl
@[simp] theorem State.takeFree_dieFailed (s : State) : (s.takeFree).dieFailed = s.dieFailed := rfl
@[simp] theorem State.takeFree_dieInc (s : State) : (s.takeFree).dieInc = s.dieInc := rfl
@[simp] theorem State.takeFree_linkEn (s : State) : (s.takeFree).linkEn = s.linkEn := rfl
@[simp] theorem State.takeFree_devId (s : State) : (s.takeFree).devId = s.devId := rfl
@[simp] theorem State.takeFree_routes (s : State) : (s.takeFree).routes = s.routes := rfl
@[simp] theorem State.takeFree_links (s : State) : (s.takeFree).links = s.links := rfl
@[simp] theorem State.takeFree_fseqOut (s : State) : (s.takeFree).fseqOut = s.fseqOut := rfl
@[simp] theorem State.takeFree_fseqIn (s : State) : (s.takeFree).fseqIn = s.fseqIn := rfl
@[simp] theorem State.takeFree_arrived (s : State) : (s.takeFree).arrived = s.arrived := rfl
@[simp] theorem State.takeFree_early (s : State) : (s.takeFree).early = s.early := rfl
@[simp] theorem State.takeFree_requests (s : State) : (s.takeFree).requests = s.requests := rfl
@[simp] theorem State.takeFree_deadLines (s : State) : (s.takeFree).deadLines = s.deadLines := rfl
@[simp] theorem State.takeFree_nextTag (s : State) : (s.takeFree).nextTag = s.nextTag := rfl
@[simp] theorem State.takeFree_sessions (s : State) : (s.takeFree).sessions = s.sessions := rfl
@[simp] theorem State.takeFree_conns (s : State) : (s.takeFree).conns = s.conns := rfl
@[simp] theorem State.takeFree_portAddrs (s : State) : (s.takeFree).portAddrs = s.portAddrs := rfl
@[simp] theorem State.takeFree_portDiscards (s : State) : (s.takeFree).portDiscards = s.portDiscards := rfl
@[simp] theorem State.takeFree_mgmt (s : State) : (s.takeFree).mgmt = s.mgmt := rfl

/-! A change of one gang of a block. -/

@[simp] theorem Block.modGang_lin (b : Block) (g : Nat) (f : Gang → Gang) : (b.modGang g f).lin = b.lin := rfl
@[simp] theorem Block.modGang_recNo (b : Block) (g : Nat) (f : Gang → Gang) : (b.modGang g f).recNo = b.recNo := rfl
@[simp] theorem Block.modGang_core (b : Block) (g : Nat) (f : Gang → Gang) : (b.modGang g f).core = b.core := rfl
@[simp] theorem Block.modGang_stamp (b : Block) (g : Nat) (f : Gang → Gang) : (b.modGang g f).stamp = b.stamp := rfl
@[simp] theorem Block.modGang_spad (b : Block) (g : Nat) (f : Gang → Gang) : (b.modGang g f).spad = b.spad := rfl
@[simp] theorem Block.modGang_bufs (b : Block) (g : Nat) (f : Gang → Gang) : (b.modGang g f).bufs = b.bufs := rfl
@[simp] theorem Block.modGang_acc (b : Block) (g : Nat) (f : Gang → Gang) : (b.modGang g f).acc = b.acc := rfl
@[simp] theorem Block.modGang_ovf (b : Block) (g : Nat) (f : Gang → Gang) : (b.modGang g f).ovf = b.ovf := rfl
@[simp] theorem Block.modGang_jobs (b : Block) (g : Nat) (f : Gang → Gang) : (b.modGang g f).jobs = b.jobs := rfl
@[simp] theorem Block.modGang_nextJob (b : Block) (g : Nat) (f : Gang → Gang) : (b.modGang g f).nextJob = b.nextJob := rfl
@[simp] theorem Block.modGang_clocks (b : Block) (g : Nat) (f : Gang → Gang) : (b.modGang g f).clocks = b.clocks := rfl
@[simp] theorem Block.modGang_baseClock (b : Block) (g : Nat) (f : Gang → Gang) : (b.modGang g f).baseClock = b.baseClock := rfl
@[simp] theorem Block.modGang_stop (b : Block) (g : Nat) (f : Gang → Gang) : (b.modGang g f).stop = b.stop := rfl
@[simp] theorem Block.modGang_parked (b : Block) (g : Nat) (f : Gang → Gang) : (b.modGang g f).parked = b.parked := rfl

/-! A change of lanes. -/

@[simp] theorem Gang.modLanes_idx (G : Gang) (m : BitVec 32) (f : Nat → Lane → Lane) : (G.modLanes m f).idx = G.idx := rfl
@[simp] theorem Gang.modLanes_role (G : Gang) (m : BitVec 32) (f : Nat → Lane → Lane) : (G.modLanes m f).role = G.role := rfl
@[simp] theorem Gang.modLanes_vb (G : Gang) (m : BitVec 32) (f : Nat → Lane → Lane) : (G.modLanes m f).vb = G.vb := rfl
@[simp] theorem Gang.modLanes_sb (G : Gang) (m : BitVec 32) (f : Nat → Lane → Lane) : (G.modLanes m f).sb = G.sb := rfl
@[simp] theorem Gang.modLanes_jm (G : Gang) (m : BitVec 32) (f : Nat → Lane → Lane) : (G.modLanes m f).jm = G.jm := rfl
@[simp] theorem Gang.modLanes_ja (G : Gang) (m : BitVec 32) (f : Nat → Lane → Lane) : (G.modLanes m f).ja = G.ja := rfl
@[simp] theorem Gang.modLanes_fpstat (G : Gang) (m : BitVec 32) (f : Nat → Lane → Lane) : (G.modLanes m f).fpstat = G.fpstat := rfl
@[simp] theorem Gang.modLanes_spfault (G : Gang) (m : BitVec 32) (f : Nat → Lane → Lane) : (G.modLanes m f).spfault = G.spfault := rfl
@[simp] theorem Gang.modLanes_grow (G : Gang) (m : BitVec 32) (f : Nat → Lane → Lane) : (G.modLanes m f).grow = G.grow := rfl
@[simp] theorem Gang.modLanes_evicted (G : Gang) (m : BitVec 32) (f : Nat → Lane → Lane) : (G.modLanes m f).evicted = G.evicted := rfl
@[simp] theorem Gang.modLanes_area (G : Gang) (m : BitVec 32) (f : Nat → Lane → Lane) : (G.modLanes m f).area = G.area := rfl
@[simp] theorem Gang.modLanes_drained (G : Gang) (m : BitVec 32) (f : Nat → Lane → Lane) : (G.modLanes m f).drained = G.drained := rfl
@[simp] theorem Gang.modLanes_parked (G : Gang) (m : BitVec 32) (f : Nat → Lane → Lane) : (G.modLanes m f).parked = G.parked := rfl
@[simp] theorem Gang.modLanes_resp (G : Gang) (m : BitVec 32) (f : Nat → Lane → Lane) : (G.modLanes m f).resp = G.resp := rfl
@[simp] theorem Gang.modLanes_mau (G : Gang) (m : BitVec 32) (f : Nat → Lane → Lane) : (G.modLanes m f).mau = G.mau := rfl
@[simp] theorem Gang.modLanes_away (G : Gang) (m : BitVec 32) (f : Nat → Lane → Lane) : (G.modLanes m f).away = G.away := rfl
@[simp] theorem Gang.modLanes_stored (G : Gang) (m : BitVec 32) (f : Nat → Lane → Lane) : (G.modLanes m f).stored = G.stored := rfl
@[simp] theorem Gang.modLanes_tokens (G : Gang) (m : BitVec 32) (f : Nat → Lane → Lane) : (G.modLanes m f).tokens = G.tokens := rfl
@[simp] theorem Gang.modLanes_accRegs (G : Gang) (m : BitVec 32) (f : Nat → Lane → Lane) : (G.modLanes m f).accRegs = G.accRegs := rfl
@[simp] theorem Gang.modLanes_events (G : Gang) (m : BitVec 32) (f : Nat → Lane → Lane) : (G.modLanes m f).events = G.events := rfl
@[simp] theorem Gang.modLanes_lastIssue (G : Gang) (m : BitVec 32) (f : Nat → Lane → Lane) : (G.modLanes m f).lastIssue = G.lastIssue := rfl
@[simp] theorem Gang.modLanes_runs (G : Gang) (m : BitVec 32) (f : Nat → Lane → Lane) : (G.modLanes m f).runs = G.runs := rfl
@[simp] theorem Gang.modLanes_ymark (G : Gang) (m : BitVec 32) (f : Nat → Lane → Lane) : (G.modLanes m f).ymark = G.ymark := rfl
@[simp] theorem Gang.modLanes_held (G : Gang) (m : BitVec 32) (f : Nat → Lane → Lane) : (G.modLanes m f).held = G.held := rfl
@[simp] theorem Gang.modLanes_cut (G : Gang) (m : BitVec 32) (f : Nat → Lane → Lane) : (G.modLanes m f).cut = G.cut := rfl
@[simp] theorem Gang.modLanes_checked (G : Gang) (m : BitVec 32) (f : Nat → Lane → Lane) : (G.modLanes m f).checked = G.checked := rfl

/-! A change of one lane. -/

@[simp] theorem Gang.modLane_idx (G : Gang) (l : Nat) (f : Lane → Lane) : (G.modLane l f).idx = G.idx := rfl
@[simp] theorem Gang.modLane_role (G : Gang) (l : Nat) (f : Lane → Lane) : (G.modLane l f).role = G.role := rfl
@[simp] theorem Gang.modLane_vb (G : Gang) (l : Nat) (f : Lane → Lane) : (G.modLane l f).vb = G.vb := rfl
@[simp] theorem Gang.modLane_sb (G : Gang) (l : Nat) (f : Lane → Lane) : (G.modLane l f).sb = G.sb := rfl
@[simp] theorem Gang.modLane_s (G : Gang) (l : Nat) (f : Lane → Lane) : (G.modLane l f).s = G.s := rfl
@[simp] theorem Gang.modLane_jm (G : Gang) (l : Nat) (f : Lane → Lane) : (G.modLane l f).jm = G.jm := rfl
@[simp] theorem Gang.modLane_ja (G : Gang) (l : Nat) (f : Lane → Lane) : (G.modLane l f).ja = G.ja := rfl
@[simp] theorem Gang.modLane_fpstat (G : Gang) (l : Nat) (f : Lane → Lane) : (G.modLane l f).fpstat = G.fpstat := rfl
@[simp] theorem Gang.modLane_spfault (G : Gang) (l : Nat) (f : Lane → Lane) : (G.modLane l f).spfault = G.spfault := rfl
@[simp] theorem Gang.modLane_sheaf (G : Gang) (l : Nat) (f : Lane → Lane) : (G.modLane l f).sheaf = G.sheaf := rfl
@[simp] theorem Gang.modLane_grow (G : Gang) (l : Nat) (f : Lane → Lane) : (G.modLane l f).grow = G.grow := rfl
@[simp] theorem Gang.modLane_evicted (G : Gang) (l : Nat) (f : Lane → Lane) : (G.modLane l f).evicted = G.evicted := rfl
@[simp] theorem Gang.modLane_area (G : Gang) (l : Nat) (f : Lane → Lane) : (G.modLane l f).area = G.area := rfl
@[simp] theorem Gang.modLane_drained (G : Gang) (l : Nat) (f : Lane → Lane) : (G.modLane l f).drained = G.drained := rfl
@[simp] theorem Gang.modLane_parked (G : Gang) (l : Nat) (f : Lane → Lane) : (G.modLane l f).parked = G.parked := rfl
@[simp] theorem Gang.modLane_resp (G : Gang) (l : Nat) (f : Lane → Lane) : (G.modLane l f).resp = G.resp := rfl
@[simp] theorem Gang.modLane_mau (G : Gang) (l : Nat) (f : Lane → Lane) : (G.modLane l f).mau = G.mau := rfl
@[simp] theorem Gang.modLane_away (G : Gang) (l : Nat) (f : Lane → Lane) : (G.modLane l f).away = G.away := rfl
@[simp] theorem Gang.modLane_stored (G : Gang) (l : Nat) (f : Lane → Lane) : (G.modLane l f).stored = G.stored := rfl
@[simp] theorem Gang.modLane_tokens (G : Gang) (l : Nat) (f : Lane → Lane) : (G.modLane l f).tokens = G.tokens := rfl
@[simp] theorem Gang.modLane_accRegs (G : Gang) (l : Nat) (f : Lane → Lane) : (G.modLane l f).accRegs = G.accRegs := rfl
@[simp] theorem Gang.modLane_events (G : Gang) (l : Nat) (f : Lane → Lane) : (G.modLane l f).events = G.events := rfl
@[simp] theorem Gang.modLane_lastIssue (G : Gang) (l : Nat) (f : Lane → Lane) : (G.modLane l f).lastIssue = G.lastIssue := rfl
@[simp] theorem Gang.modLane_runs (G : Gang) (l : Nat) (f : Lane → Lane) : (G.modLane l f).runs = G.runs := rfl
@[simp] theorem Gang.modLane_ymark (G : Gang) (l : Nat) (f : Lane → Lane) : (G.modLane l f).ymark = G.ymark := rfl
@[simp] theorem Gang.modLane_chunk (G : Gang) (l : Nat) (f : Lane → Lane) : (G.modLane l f).chunk = G.chunk := rfl
@[simp] theorem Gang.modLane_held (G : Gang) (l : Nat) (f : Lane → Lane) : (G.modLane l f).held = G.held := rfl
@[simp] theorem Gang.modLane_cut (G : Gang) (l : Nat) (f : Lane → Lane) : (G.modLane l f).cut = G.cut := rfl
@[simp] theorem Gang.modLane_checked (G : Gang) (l : Nat) (f : Lane → Lane) : (G.modLane l f).checked = G.checked := rfl

/-! A write of a scalar register. -/

@[simp] theorem Gang.setSreg_idx (G : Gang) (n : Nat) (x : Wide) : (G.setSreg n x).idx = G.idx := rfl
@[simp] theorem Gang.setSreg_role (G : Gang) (n : Nat) (x : Wide) : (G.setSreg n x).role = G.role := rfl
@[simp] theorem Gang.setSreg_vb (G : Gang) (n : Nat) (x : Wide) : (G.setSreg n x).vb = G.vb := rfl
@[simp] theorem Gang.setSreg_sb (G : Gang) (n : Nat) (x : Wide) : (G.setSreg n x).sb = G.sb := rfl
@[simp] theorem Gang.setSreg_lanes (G : Gang) (n : Nat) (x : Wide) : (G.setSreg n x).lanes = G.lanes := rfl
@[simp] theorem Gang.setSreg_jm (G : Gang) (n : Nat) (x : Wide) : (G.setSreg n x).jm = G.jm := rfl
@[simp] theorem Gang.setSreg_ja (G : Gang) (n : Nat) (x : Wide) : (G.setSreg n x).ja = G.ja := rfl
@[simp] theorem Gang.setSreg_fpstat (G : Gang) (n : Nat) (x : Wide) : (G.setSreg n x).fpstat = G.fpstat := rfl
@[simp] theorem Gang.setSreg_spfault (G : Gang) (n : Nat) (x : Wide) : (G.setSreg n x).spfault = G.spfault := rfl
@[simp] theorem Gang.setSreg_sheaf (G : Gang) (n : Nat) (x : Wide) : (G.setSreg n x).sheaf = G.sheaf := rfl
@[simp] theorem Gang.setSreg_grow (G : Gang) (n : Nat) (x : Wide) : (G.setSreg n x).grow = G.grow := rfl
@[simp] theorem Gang.setSreg_evicted (G : Gang) (n : Nat) (x : Wide) : (G.setSreg n x).evicted = G.evicted := rfl
@[simp] theorem Gang.setSreg_area (G : Gang) (n : Nat) (x : Wide) : (G.setSreg n x).area = G.area := rfl
@[simp] theorem Gang.setSreg_drained (G : Gang) (n : Nat) (x : Wide) : (G.setSreg n x).drained = G.drained := rfl
@[simp] theorem Gang.setSreg_parked (G : Gang) (n : Nat) (x : Wide) : (G.setSreg n x).parked = G.parked := rfl
@[simp] theorem Gang.setSreg_resp (G : Gang) (n : Nat) (x : Wide) : (G.setSreg n x).resp = G.resp := rfl
@[simp] theorem Gang.setSreg_mau (G : Gang) (n : Nat) (x : Wide) : (G.setSreg n x).mau = G.mau := rfl
@[simp] theorem Gang.setSreg_away (G : Gang) (n : Nat) (x : Wide) : (G.setSreg n x).away = G.away := rfl
@[simp] theorem Gang.setSreg_stored (G : Gang) (n : Nat) (x : Wide) : (G.setSreg n x).stored = G.stored := rfl
@[simp] theorem Gang.setSreg_tokens (G : Gang) (n : Nat) (x : Wide) : (G.setSreg n x).tokens = G.tokens := rfl
@[simp] theorem Gang.setSreg_accRegs (G : Gang) (n : Nat) (x : Wide) : (G.setSreg n x).accRegs = G.accRegs := rfl
@[simp] theorem Gang.setSreg_events (G : Gang) (n : Nat) (x : Wide) : (G.setSreg n x).events = G.events := rfl
@[simp] theorem Gang.setSreg_lastIssue (G : Gang) (n : Nat) (x : Wide) : (G.setSreg n x).lastIssue = G.lastIssue := rfl
@[simp] theorem Gang.setSreg_runs (G : Gang) (n : Nat) (x : Wide) : (G.setSreg n x).runs = G.runs := rfl
@[simp] theorem Gang.setSreg_ymark (G : Gang) (n : Nat) (x : Wide) : (G.setSreg n x).ymark = G.ymark := rfl
@[simp] theorem Gang.setSreg_chunk (G : Gang) (n : Nat) (x : Wide) : (G.setSreg n x).chunk = G.chunk := rfl
@[simp] theorem Gang.setSreg_held (G : Gang) (n : Nat) (x : Wide) : (G.setSreg n x).held = G.held := rfl
@[simp] theorem Gang.setSreg_cut (G : Gang) (n : Nat) (x : Wide) : (G.setSreg n x).cut = G.cut := rfl
@[simp] theorem Gang.setSreg_checked (G : Gang) (n : Nat) (x : Wide) : (G.setSreg n x).checked = G.checked := rfl

/-! A write of a set's members. -/

@[simp] theorem Gang.setM_idx (G : Gang) (j : Nat) (x : Word) : (G.setM j x).idx = G.idx := rfl
@[simp] theorem Gang.setM_role (G : Gang) (j : Nat) (x : Word) : (G.setM j x).role = G.role := rfl
@[simp] theorem Gang.setM_vb (G : Gang) (j : Nat) (x : Word) : (G.setM j x).vb = G.vb := rfl
@[simp] theorem Gang.setM_sb (G : Gang) (j : Nat) (x : Word) : (G.setM j x).sb = G.sb := rfl
@[simp] theorem Gang.setM_lanes (G : Gang) (j : Nat) (x : Word) : (G.setM j x).lanes = G.lanes := rfl
@[simp] theorem Gang.setM_s (G : Gang) (j : Nat) (x : Word) : (G.setM j x).s = G.s := rfl
@[simp] theorem Gang.setM_ja (G : Gang) (j : Nat) (x : Word) : (G.setM j x).ja = G.ja := rfl
@[simp] theorem Gang.setM_fpstat (G : Gang) (j : Nat) (x : Word) : (G.setM j x).fpstat = G.fpstat := rfl
@[simp] theorem Gang.setM_spfault (G : Gang) (j : Nat) (x : Word) : (G.setM j x).spfault = G.spfault := rfl
@[simp] theorem Gang.setM_sheaf (G : Gang) (j : Nat) (x : Word) : (G.setM j x).sheaf = G.sheaf := rfl
@[simp] theorem Gang.setM_grow (G : Gang) (j : Nat) (x : Word) : (G.setM j x).grow = G.grow := rfl
@[simp] theorem Gang.setM_evicted (G : Gang) (j : Nat) (x : Word) : (G.setM j x).evicted = G.evicted := rfl
@[simp] theorem Gang.setM_area (G : Gang) (j : Nat) (x : Word) : (G.setM j x).area = G.area := rfl
@[simp] theorem Gang.setM_drained (G : Gang) (j : Nat) (x : Word) : (G.setM j x).drained = G.drained := rfl
@[simp] theorem Gang.setM_parked (G : Gang) (j : Nat) (x : Word) : (G.setM j x).parked = G.parked := rfl
@[simp] theorem Gang.setM_resp (G : Gang) (j : Nat) (x : Word) : (G.setM j x).resp = G.resp := rfl
@[simp] theorem Gang.setM_mau (G : Gang) (j : Nat) (x : Word) : (G.setM j x).mau = G.mau := rfl
@[simp] theorem Gang.setM_away (G : Gang) (j : Nat) (x : Word) : (G.setM j x).away = G.away := rfl
@[simp] theorem Gang.setM_stored (G : Gang) (j : Nat) (x : Word) : (G.setM j x).stored = G.stored := rfl
@[simp] theorem Gang.setM_tokens (G : Gang) (j : Nat) (x : Word) : (G.setM j x).tokens = G.tokens := rfl
@[simp] theorem Gang.setM_accRegs (G : Gang) (j : Nat) (x : Word) : (G.setM j x).accRegs = G.accRegs := rfl
@[simp] theorem Gang.setM_events (G : Gang) (j : Nat) (x : Word) : (G.setM j x).events = G.events := rfl
@[simp] theorem Gang.setM_lastIssue (G : Gang) (j : Nat) (x : Word) : (G.setM j x).lastIssue = G.lastIssue := rfl
@[simp] theorem Gang.setM_runs (G : Gang) (j : Nat) (x : Word) : (G.setM j x).runs = G.runs := rfl
@[simp] theorem Gang.setM_ymark (G : Gang) (j : Nat) (x : Word) : (G.setM j x).ymark = G.ymark := rfl
@[simp] theorem Gang.setM_chunk (G : Gang) (j : Nat) (x : Word) : (G.setM j x).chunk = G.chunk := rfl
@[simp] theorem Gang.setM_held (G : Gang) (j : Nat) (x : Word) : (G.setM j x).held = G.held := rfl
@[simp] theorem Gang.setM_cut (G : Gang) (j : Nat) (x : Word) : (G.setM j x).cut = G.cut := rfl
@[simp] theorem Gang.setM_checked (G : Gang) (j : Nat) (x : Word) : (G.setM j x).checked = G.checked := rfl

/-! A write of a set's arrivals. -/

@[simp] theorem Gang.setA_idx (G : Gang) (j : Nat) (x : Word) : (G.setA j x).idx = G.idx := rfl
@[simp] theorem Gang.setA_role (G : Gang) (j : Nat) (x : Word) : (G.setA j x).role = G.role := rfl
@[simp] theorem Gang.setA_vb (G : Gang) (j : Nat) (x : Word) : (G.setA j x).vb = G.vb := rfl
@[simp] theorem Gang.setA_sb (G : Gang) (j : Nat) (x : Word) : (G.setA j x).sb = G.sb := rfl
@[simp] theorem Gang.setA_lanes (G : Gang) (j : Nat) (x : Word) : (G.setA j x).lanes = G.lanes := rfl
@[simp] theorem Gang.setA_s (G : Gang) (j : Nat) (x : Word) : (G.setA j x).s = G.s := rfl
@[simp] theorem Gang.setA_jm (G : Gang) (j : Nat) (x : Word) : (G.setA j x).jm = G.jm := rfl
@[simp] theorem Gang.setA_fpstat (G : Gang) (j : Nat) (x : Word) : (G.setA j x).fpstat = G.fpstat := rfl
@[simp] theorem Gang.setA_spfault (G : Gang) (j : Nat) (x : Word) : (G.setA j x).spfault = G.spfault := rfl
@[simp] theorem Gang.setA_sheaf (G : Gang) (j : Nat) (x : Word) : (G.setA j x).sheaf = G.sheaf := rfl
@[simp] theorem Gang.setA_grow (G : Gang) (j : Nat) (x : Word) : (G.setA j x).grow = G.grow := rfl
@[simp] theorem Gang.setA_evicted (G : Gang) (j : Nat) (x : Word) : (G.setA j x).evicted = G.evicted := rfl
@[simp] theorem Gang.setA_area (G : Gang) (j : Nat) (x : Word) : (G.setA j x).area = G.area := rfl
@[simp] theorem Gang.setA_drained (G : Gang) (j : Nat) (x : Word) : (G.setA j x).drained = G.drained := rfl
@[simp] theorem Gang.setA_parked (G : Gang) (j : Nat) (x : Word) : (G.setA j x).parked = G.parked := rfl
@[simp] theorem Gang.setA_resp (G : Gang) (j : Nat) (x : Word) : (G.setA j x).resp = G.resp := rfl
@[simp] theorem Gang.setA_mau (G : Gang) (j : Nat) (x : Word) : (G.setA j x).mau = G.mau := rfl
@[simp] theorem Gang.setA_away (G : Gang) (j : Nat) (x : Word) : (G.setA j x).away = G.away := rfl
@[simp] theorem Gang.setA_stored (G : Gang) (j : Nat) (x : Word) : (G.setA j x).stored = G.stored := rfl
@[simp] theorem Gang.setA_tokens (G : Gang) (j : Nat) (x : Word) : (G.setA j x).tokens = G.tokens := rfl
@[simp] theorem Gang.setA_accRegs (G : Gang) (j : Nat) (x : Word) : (G.setA j x).accRegs = G.accRegs := rfl
@[simp] theorem Gang.setA_events (G : Gang) (j : Nat) (x : Word) : (G.setA j x).events = G.events := rfl
@[simp] theorem Gang.setA_lastIssue (G : Gang) (j : Nat) (x : Word) : (G.setA j x).lastIssue = G.lastIssue := rfl
@[simp] theorem Gang.setA_runs (G : Gang) (j : Nat) (x : Word) : (G.setA j x).runs = G.runs := rfl
@[simp] theorem Gang.setA_ymark (G : Gang) (j : Nat) (x : Word) : (G.setA j x).ymark = G.ymark := rfl
@[simp] theorem Gang.setA_chunk (G : Gang) (j : Nat) (x : Word) : (G.setA j x).chunk = G.chunk := rfl
@[simp] theorem Gang.setA_held (G : Gang) (j : Nat) (x : Word) : (G.setA j x).held = G.held := rfl
@[simp] theorem Gang.setA_cut (G : Gang) (j : Nat) (x : Word) : (G.setA j x).cut = G.cut := rfl
@[simp] theorem Gang.setA_checked (G : Gang) (j : Nat) (x : Word) : (G.setA j x).checked = G.checked := rfl

/-! A write of a vector register. -/

@[simp] theorem Lane.setReg_st (t : Lane) (n : Nat) (x : Word) : (t.setReg n x).st = t.st := rfl
@[simp] theorem Lane.setReg_pc (t : Lane) (n : Nat) (x : Word) : (t.setReg n x).pc = t.pc := rfl
@[simp] theorem Lane.setReg_lnk (t : Lane) (n : Nat) (x : Word) : (t.setReg n x).lnk = t.lnk := rfl
@[simp] theorem Lane.setReg_draw (t : Lane) (n : Nat) (x : Word) : (t.setReg n x).draw = t.draw := rfl
@[simp] theorem Lane.setReg_waitCount (t : Lane) (n : Nat) (x : Word) : (t.setReg n x).waitCount = t.waitCount := rfl
@[simp] theorem Lane.setReg_ymark (t : Lane) (n : Nat) (x : Word) : (t.setReg n x).ymark = t.ymark := rfl
@[simp] theorem Lane.setReg_p (t : Lane) (n : Nat) (x : Word) : (t.setReg n x).p = t.p := rfl
@[simp] theorem Lane.setReg_tcause (t : Lane) (n : Nat) (x : Word) : (t.setReg n x).tcause = t.tcause := rfl
@[simp] theorem Lane.setReg_tpc (t : Lane) (n : Nat) (x : Word) : (t.setReg n x).tpc = t.tpc := rfl
@[simp] theorem Lane.setReg_taddr (t : Lane) (n : Nat) (x : Word) : (t.setReg n x).taddr = t.taddr := rfl
@[simp] theorem Lane.setReg_tinfo (t : Lane) (n : Nat) (x : Word) : (t.setReg n x).tinfo = t.tinfo := rfl
@[simp] theorem Lane.setReg_handler (t : Lane) (n : Nat) (x : Word) : (t.setReg n x).handler = t.handler := rfl
@[simp] theorem Lane.setReg_resume (t : Lane) (n : Nat) (x : Word) : (t.setReg n x).resume = t.resume := rfl
@[simp] theorem Lane.setReg_watchPass (t : Lane) (n : Nat) (x : Word) : (t.setReg n x).watchPass = t.watchPass := rfl
@[simp] theorem Lane.setReg_restored (t : Lane) (n : Nat) (x : Word) : (t.setReg n x).restored = t.restored := rfl
@[simp] theorem Lane.setReg_seq (t : Lane) (n : Nat) (x : Word) : (t.setReg n x).seq = t.seq := rfl
@[simp] theorem Lane.setReg_epoch (t : Lane) (n : Nat) (x : Word) : (t.setReg n x).epoch = t.epoch := rfl
@[simp] theorem Lane.setReg_jobSeq (t : Lane) (n : Nat) (x : Word) : (t.setReg n x).jobSeq = t.jobSeq := rfl
@[simp] theorem Lane.setReg_ranSinceTret (t : Lane) (n : Nat) (x : Word) : (t.setReg n x).ranSinceTret = t.ranSinceTret := rfl
@[simp] theorem Lane.setReg_rstat (t : Lane) (n : Nat) (x : Word) : (t.setReg n x).rstat = t.rstat := rfl
@[simp] theorem Lane.setReg_woken (t : Lane) (n : Nat) (x : Word) : (t.setReg n x).woken = t.woken := rfl
@[simp] theorem Lane.setReg_region (t : Lane) (n : Nat) (x : Word) : (t.setReg n x).region = t.region := rfl

/-! A write of a pair. -/

@[simp] theorem Lane.setPair_st (t : Lane) (n : Nat) (x : Dword) : (t.setPair n x).st = t.st := rfl
@[simp] theorem Lane.setPair_pc (t : Lane) (n : Nat) (x : Dword) : (t.setPair n x).pc = t.pc := rfl
@[simp] theorem Lane.setPair_lnk (t : Lane) (n : Nat) (x : Dword) : (t.setPair n x).lnk = t.lnk := rfl
@[simp] theorem Lane.setPair_draw (t : Lane) (n : Nat) (x : Dword) : (t.setPair n x).draw = t.draw := rfl
@[simp] theorem Lane.setPair_waitCount (t : Lane) (n : Nat) (x : Dword) : (t.setPair n x).waitCount = t.waitCount := rfl
@[simp] theorem Lane.setPair_ymark (t : Lane) (n : Nat) (x : Dword) : (t.setPair n x).ymark = t.ymark := rfl
@[simp] theorem Lane.setPair_p (t : Lane) (n : Nat) (x : Dword) : (t.setPair n x).p = t.p := rfl
@[simp] theorem Lane.setPair_tcause (t : Lane) (n : Nat) (x : Dword) : (t.setPair n x).tcause = t.tcause := rfl
@[simp] theorem Lane.setPair_tpc (t : Lane) (n : Nat) (x : Dword) : (t.setPair n x).tpc = t.tpc := rfl
@[simp] theorem Lane.setPair_taddr (t : Lane) (n : Nat) (x : Dword) : (t.setPair n x).taddr = t.taddr := rfl
@[simp] theorem Lane.setPair_tinfo (t : Lane) (n : Nat) (x : Dword) : (t.setPair n x).tinfo = t.tinfo := rfl
@[simp] theorem Lane.setPair_handler (t : Lane) (n : Nat) (x : Dword) : (t.setPair n x).handler = t.handler := rfl
@[simp] theorem Lane.setPair_resume (t : Lane) (n : Nat) (x : Dword) : (t.setPair n x).resume = t.resume := rfl
@[simp] theorem Lane.setPair_watchPass (t : Lane) (n : Nat) (x : Dword) : (t.setPair n x).watchPass = t.watchPass := rfl
@[simp] theorem Lane.setPair_restored (t : Lane) (n : Nat) (x : Dword) : (t.setPair n x).restored = t.restored := rfl
@[simp] theorem Lane.setPair_seq (t : Lane) (n : Nat) (x : Dword) : (t.setPair n x).seq = t.seq := rfl
@[simp] theorem Lane.setPair_epoch (t : Lane) (n : Nat) (x : Dword) : (t.setPair n x).epoch = t.epoch := rfl
@[simp] theorem Lane.setPair_jobSeq (t : Lane) (n : Nat) (x : Dword) : (t.setPair n x).jobSeq = t.jobSeq := rfl
@[simp] theorem Lane.setPair_ranSinceTret (t : Lane) (n : Nat) (x : Dword) : (t.setPair n x).ranSinceTret = t.ranSinceTret := rfl
@[simp] theorem Lane.setPair_rstat (t : Lane) (n : Nat) (x : Dword) : (t.setPair n x).rstat = t.rstat := rfl
@[simp] theorem Lane.setPair_woken (t : Lane) (n : Nat) (x : Dword) : (t.setPair n x).woken = t.woken := rfl
@[simp] theorem Lane.setPair_region (t : Lane) (n : Nat) (x : Dword) : (t.setPair n x).region = t.region := rfl

/-! The registers and lanes that a write leaves, and the one that it changes. -/

/-- A vector of registers reads the value written, at the index written. -/
theorem vget_vset_same {n : Nat} {α : Type} (v : Vector α n) (i : Nat) (x d : α) (h : i < n) : vget (vset v i x) i d = x := by
  simp [vget, vset, h]

/-- And every other register reads as before. -/
theorem vget_vset_other {n : Nat} {α : Type} (v : Vector α n) (i j : Nat) (x d : α) (h : j ≠ i) :
    vget (vset v i x) j d = vget v j d := by
  simp [vget, vset, Ne.symm h]

/-- A partition reads as what changed it made of it. -/
theorem State.part_modPart_same (s : State) (p : Nat) (f : Partition → Partition) (h : p < 4) :
    (s.modPart p f).part p = f (s.part p) := vget_vset_same _ _ _ _ h

/-- No other partition changes. -/
theorem State.part_modPart_other (s : State) (p q : Nat) (f : Partition → Partition) (h : q ≠ p) :
    (s.modPart p f).part q = s.part q := vget_vset_other _ _ _ _ _ h

/-- A queue slot reads as what changed it made of it. -/
theorem State.queue_modQueue_same (s : State) (p q : Nat) (f : Queue → Queue) (hp : p < 4) (hq : q < 64) :
    (s.modQueue p q f).queue p q = f (s.queue p q) := by
  unfold State.queue State.modQueue
  rw [State.part_modPart_same _ _ _ hp]
  exact vget_vset_same _ _ _ _ hq

/-- No other slot of the partition changes. -/
theorem State.queue_modQueue_other (s : State) (p q r : Nat) (f : Queue → Queue) (hp : p < 4) (h : r ≠ q) :
    (s.modQueue p q f).queue p r = s.queue p r := by
  unfold State.queue State.modQueue
  rw [State.part_modPart_same _ _ _ hp]
  exact vget_vset_other _ _ _ _ _ h

end Sys2Proof.Laws
end

