-- ==== Sys2Proof/Laws/Memory.lean ====
section
/-! SUPPORT. The laws of memory: reads after writes, and that every memory operation keeps the canonical form. -/

namespace Sys2Proof.Laws
open Sys2Proof.Machine Sys2Proof.Safety

/-! ### One value -/

/-- A form that holds from an address on holds from every lower one. -/
theorem swfFrom_lower {n : Nat} {m : List (Nat × BitVec n)} {lo lo' : Nat} (h : lo' ≤ lo) (w : swfFrom lo m = true) :
    swfFrom lo' m = true := by
  cases m with
  | nil => rfl
  | cons x t =>
    simp only [swfFrom, Bool.and_eq_true, decide_eq_true_eq] at w ⊢
    exact ⟨⟨by omega, w.1.2⟩, w.2⟩

/-- Below its first address a canonical array reads zero. -/
theorem sread_below {n : Nat} {m : List (Nat × BitVec n)} {lo a : Nat} (w : swfFrom lo m = true) (h : a < lo) :
    sread m a = 0 := by
  induction m generalizing lo with
  | nil => rfl
  | cons x t ih =>
    simp only [swfFrom, Bool.and_eq_true, decide_eq_true_eq] at w
    rw [sread, if_neg (by omega)]
    exact ih w.2 (by omega)

/-- A write leaves every other address as it was. -/
theorem sread_swrite_other {n : Nat} (m : List (Nat × BitVec n)) (a c : Nat) (b : BitVec n) (h : c ≠ a) :
    sread (swrite m a b) c = sread m c := by
  induction m with
  | nil => unfold swrite; split <;> simp [sread, h.symm]
  | cons x t ih =>
    simp only [swrite]
    split
    · split <;> simp [sread, h.symm]
    · split
      · rename_i e; subst e; split <;> simp [sread, h.symm]
      · simp only [sread, ih]

/-- A read of the address written gives the value written. -/
theorem sread_swrite_same {n : Nat} {m : List (Nat × BitVec n)} {lo : Nat} (a : Nat) (b : BitVec n) (w : swfFrom lo m = true) :
    sread (swrite m a b) a = b := by
  induction m generalizing lo with
  | nil => unfold swrite; split <;> simp_all [sread]
  | cons x t ih =>
    simp only [swfFrom, Bool.and_eq_true, decide_eq_true_eq] at w
    simp only [swrite]
    split
    · rename_i h
      split
      · rename_i hb
        rw [hb, sread, if_neg (by omega)]
        exact sread_below w.2 (by omega)
      · simp [sread]
    · split
      · rename_i e
        split
        · rename_i hb; rw [hb]; exact sread_below w.2 (by omega)
        · simp [sread]
      · rename_i e
        rw [sread, if_neg (Ne.symm e)]
        exact ih w.2

/-- A write keeps the canonical form. -/
theorem swfFrom_swrite {n : Nat} {m : List (Nat × BitVec n)} {lo a : Nat} (b : BitVec n) (w : swfFrom lo m = true)
    (h : lo ≤ a) : swfFrom lo (swrite m a b) = true := by
  induction m generalizing lo with
  | nil => unfold swrite; split <;> simp_all [swfFrom]
  | cons x t ih =>
    simp only [swfFrom, Bool.and_eq_true, decide_eq_true_eq] at w
    simp only [swrite]
    split
    · split
      · simp_all [swfFrom]
      · simp only [swfFrom, Bool.and_eq_true, decide_eq_true_eq]
        exact ⟨⟨h, ‹_›⟩, ⟨by omega, w.1.2⟩, w.2⟩
    · split
      · split
        · exact swfFrom_lower (by omega) w.2
        · simp only [swfFrom, Bool.and_eq_true, decide_eq_true_eq]
          rename_i e _
          exact ⟨⟨h, ‹_›⟩, e ▸ w.2⟩
      · simp only [swfFrom, Bool.and_eq_true, decide_eq_true_eq]
        exact ⟨w.1, ih w.2 (by omega)⟩

/-- Equal contents are equal data. -/
theorem eq_of_sread {n : Nat} {m m' : List (Nat × BitVec n)} {lo : Nat} (w : swfFrom lo m = true) (w' : swfFrom lo m' = true)
    (h : ∀ a, sread m a = sread m' a) : m = m' := by
  induction m generalizing lo m' with
  | nil =>
    cases m' with
    | nil => rfl
    | cons y t' =>
      have := h y.1
      simp only [swfFrom, Bool.and_eq_true, decide_eq_true_eq] at w'
      simp [sread] at this
      exact absurd this.symm w'.1.2
  | cons x t ih =>
    have wx := w
    simp only [swfFrom, Bool.and_eq_true, decide_eq_true_eq] at w
    cases m' with
    | nil =>
      have := h x.1
      simp [sread] at this
      exact absurd this w.1.2
    | cons y t' =>
      have wy := w'
      simp only [swfFrom, Bool.and_eq_true, decide_eq_true_eq] at w'
      have hk : x.1 = y.1 := by
        rcases Nat.lt_trichotomy x.1 y.1 with l | e | l
        · have := h x.1
          have z : sread t' x.1 = 0 := sread_below w'.2 (by omega)
          simp [sread, z, Nat.ne_of_gt l] at this
          exact absurd this w.1.2
        · exact e
        · have := h y.1
          have z : sread t y.1 = 0 := sread_below w.2 (by omega)
          simp [sread, z, Nat.ne_of_gt l] at this
          exact absurd this.symm w'.1.2
      have hv : x.2 = y.2 := by simpa [sread, hk] using h x.1
      have ht : t = t' := by
        refine ih w.2 (hk ▸ w'.2) fun a => ?_
        by_cases e : x.1 = a
        · rw [← e, sread_below w.2 (by omega), sread_below w'.2 (by omega)]
        · have := h a
          simpa [sread, e, hk ▸ e] using this
      rw [Prod.ext hk hv, ht]

/-! ### Several bytes -/

theorem swfFrom_writeBytes (bs : List Byte) {m : List Host.Cell} {lo a : Nat} (w : swfFrom lo m = true) (h : lo ≤ a) :
    swfFrom lo (writeBytes m a bs) = true := by
  induction bs generalizing m a with
  | nil => exact w
  | cons b t ih => exact ih (swfFrom_swrite b w h) (by omega)

/-- Writing bytes keeps the canonical form. -/
theorem wf_writeBytes (bs : List Byte) {m : List Host.Cell} (a : Nat) (w : Memory.wf m = true) :
    Memory.wf (writeBytes m a bs) = true := swfFrom_writeBytes bs w (Nat.zero_le _)

/-- Writing a number keeps the canonical form. -/
theorem wf_writeLE (n v : Nat) {m : List Host.Cell} (a : Nat) (w : Memory.wf m = true) :
    Memory.wf (writeLE m a n v) = true := by
  induction n generalizing m a v with
  | zero => exact w
  | succ n ih => exact ih _ _ (swfFrom_swrite _ w (Nat.zero_le _))

/-- Writing bytes leaves every address outside them as it was. -/
theorem sread_writeBytes_other (bs : List Byte) (m : List Host.Cell) (a c : Nat) (h : c < a ∨ a + bs.length ≤ c) :
    sread (writeBytes m a bs) c = sread m c := by
  induction bs generalizing m a with
  | nil => rfl
  | cons b t ih =>
    simp only [List.length_cons] at h
    rw [writeBytes, ih _ _ (by omega), sread_swrite_other _ _ _ _ (by omega)]

/-- Byte i of the bytes written reads at place i. -/
theorem sread_writeBytes_same (bs : List Byte) {m : List Host.Cell} (a i : Nat) (w : Memory.wf m = true) (h : i < bs.length) :
    sread (writeBytes m a bs) (a + i) = bs[i] := by
  induction bs generalizing m a i with
  | nil => simp at h
  | cons b t ih =>
    rw [writeBytes]
    cases i with
    | zero =>
      rw [sread_writeBytes_other _ _ _ _ (by omega)]
      exact sread_swrite_same _ _ w
    | succ i =>
      have := ih (m := swrite m a b) (a + 1) i (swfFrom_swrite b w (Nat.zero_le _)) (by simpa using h)
      rw [show a + (i + 1) = a + 1 + i by omega, this]
      rfl

/-- Writing a number leaves every address outside it as it was. -/
theorem sread_writeLE_other (n v : Nat) (m : List Host.Cell) (a c : Nat) (h : c < a ∨ a + n ≤ c) :
    sread (writeLE m a n v) c = sread m c := by
  induction n generalizing m a v with
  | zero => rfl
  | succ n ih => rw [writeLE, ih _ _ _ (by omega), sread_swrite_other _ _ _ _ (by omega)]

/-- A number written reads back, as far as its bytes go (R2). -/
theorem readLE_writeLE (n v : Nat) {m : List Host.Cell} (a : Nat) (w : Memory.wf m = true) :
    readLE (writeLE m a n v) a n = v % 256 ^ n := by
  induction n generalizing m a v with
  | zero => simp [readLE, Nat.mod_one]
  | succ n ih =>
    rw [writeLE, readLE, ih _ _ (swfFrom_swrite _ w (Nat.zero_le _)), sread_writeLE_other _ _ _ _ _ (by omega),
      sread_swrite_same _ _ w, BitVec.toNat_ofNat, show 256 ^ (n + 1) = 256 * 256 ^ n by rw [Nat.pow_succ, Nat.mul_comm], Nat.mod_mul]

/-! ### The bytes of a line -/

theorem lineByte_setLineByte (d : BitVec 1024) (i j : Nat) (b : Byte) (hi : i < 128) (hj : j < 128) :
    lineByte (setLineByte d i b) j = if i = j then b else lineByte d j := by
  apply BitVec.eq_of_getLsbD_eq
  intro k hk
  have hff : ∀ n, (0xFF#1024).getLsbD n = (decide (n < 1024) && decide (n < 8)) := by
    intro n
    rw [BitVec.getLsbD_ofNat, show (0xFF : Nat) = 2 ^ 8 - 1 by decide, Nat.testBit_two_pow_sub_one]
  simp only [lineByte, setLineByte, BitVec.getLsbD_extractLsb', BitVec.getLsbD_or, BitVec.getLsbD_and, BitVec.getLsbD_not,
    BitVec.getLsbD_shiftLeft, hff, BitVec.getLsbD_setWidth]
  by_cases h : i = j
  · subst h
    have h1 : 8 * i + k < 1024 := by omega
    have h2 : k < 1024 := by omega
    simp [hk, h1, h2]
  · rw [if_neg h]
    simp only [BitVec.getLsbD_extractLsb', hk, decide_true, Bool.true_and]
    by_cases h1 : 8 * j + k < 8 * i
    · simp [h1]; omega
    · have h2 : ¬ (8 * j + k - 8 * i < 8) := by omega
      have h3 : b.getLsbD (8 * j + k - 8 * i) = false := BitVec.getLsbD_of_ge _ _ (by omega)
      simp [h2, h3]; omega

theorem lineByte_fold (f : Nat → Byte) (n i : Nat) (hn : n ≤ 128) (hi : i < n) :
    lineByte ((List.range n).foldl (fun d i => setLineByte d i (f i)) 0) i = f i := by
  induction n with
  | zero => omega
  | succ n ih =>
    rw [List.range_succ, List.foldl_append]
    simp only [List.foldl_cons, List.foldl_nil]
    rw [lineByte_setLineByte _ _ _ _ (by omega) (by omega)]
    split
    · rename_i h; rw [h]
    · exact ih (by omega) (by omega)

/-- A line made of bytes has them. -/
@[simp] theorem lineByte_lineFrom (f : Nat → Byte) (i : Nat) (h : i < 128) : lineByte (lineFrom f) i = f i :=
  lineByte_fold f 128 i (by omega) h

/-- Bytes put into a line. -/
theorem lineByte_patchLine (line pa : Nat) (bs : List Byte) (d : BitVec 1024) (i : Nat) (h : i < 128) :
    lineByte (patchLine line pa bs d) i =
      if pa ≤ line * 128 + i ∧ line * 128 + i < pa + bs.length then bs.getD (line * 128 + i - pa) 0 else lineByte d i :=
  lineByte_lineFrom _ i h

/-- Bytes of a mask put into a line. -/
theorem lineByte_maskLine (new : BitVec 1024) (mask : BitVec 128) (d : BitVec 1024) (i : Nat) (h : i < 128) :
    lineByte (maskLine new mask d) i = if mask.getLsbD i then lineByte new i else lineByte d i :=
  lineByte_lineFrom _ i h

/-! ### What lines hold -/

/-- A line that a slice has filled is there. -/
theorem l3Line?_l3Fill (s : State) (line key : Nat) : ((s.l3Fill line key).l3Line? line key).isSome := by
  unfold State.l3Fill
  split
  · rename_i h; simp [h]
  · rename_i h
    unfold State.l3Line? at h ⊢
    simp only [List.find?_append, h, Option.none_or, List.find?_cons, and_self, decide_true]
    rfl

/-- Filling a line changes no byte (R355). -/
@[simp] theorem byteAt_l3Fill (s : State) (line key key' pa : Nat) : (s.l3Fill line key).byteAt key' pa = s.byteAt key' pa := by
  unfold State.l3Fill
  split
  · rfl
  · rename_i h
    unfold State.byteAt
    unfold State.l3Line? at h ⊢
    simp only [List.find?_append]
    cases hf : s.l3.find? fun x => decide (x.line = lineOf pa ∧ x.key = key') with
    | some x => simp
    | none =>
      simp only [Option.none_or, List.find?_cons, List.find?_nil]
      by_cases hk : line = lineOf pa ∧ key = key'
      · obtain ⟨rfl, rfl⟩ := hk
        simp only [and_self, decide_true]
        rw [lineByte_lineFrom _ _ (Nat.mod_lt _ (by omega))]
        have : lineOf pa * 128 + pa % 128 = pa := by unfold lineOf; omega
        rw [this]
      · simp only [hk, decide_false]
        rfl

/-- A line of a slice after a change of one of them. -/
theorem l3Line?_modL3 (s : State) (line key line' key' : Nat) (f : L3Line → L3Line) (hf : ∀ x, (f x).line = x.line ∧ (f x).key = x.key) :
    (s.modL3 line key f).l3Line? line' key' =
      if line = line' ∧ key = key' then (s.l3Line? line' key').map f else s.l3Line? line' key' := by
  unfold State.l3Line? State.modL3
  induction s.l3 with
  | nil => simp
  | cons x t ih =>
    simp only [List.map_cons, List.find?_cons]
    by_cases h : x.line = line ∧ x.key = key
    · obtain ⟨rfl, rfl⟩ := h
      simp only [and_self, if_true, (hf x).1, (hf x).2]
      by_cases h2 : x.line = line' ∧ x.key = key'
      · simp [h2]
      · simp only [h2, decide_false, if_false]
        rw [ih]; simp [h2]
    · simp only [h, if_false]
      by_cases h2 : x.line = line' ∧ x.key = key'
      · have h3 : ¬ (line = line' ∧ key = key') := by rintro ⟨rfl, rfl⟩; exact h h2
        simp [h2, h3]
      · simp only [h2, decide_false]
        exact ih

/-- A write of a line: a byte is what the write makes of it (R10). -/
theorem byteAt_writeLine (s : State) (line key key' pa : Nat) (put : BitVec 1024 → BitVec 1024) (w : BitVec 16) (v : Byte)
    (hp : line = lineOf pa → key = key' → ∀ d, lineByte d (pa % 128) = s.byteAt key' pa → lineByte (put d) (pa % 128) = v) :
    (s.writeLine line key put w).byteAt key' pa = if line = lineOf pa ∧ key = key' then v else s.byteAt key' pa := by
  have h0 := byteAt_l3Fill s line key key' pa
  have h1 := l3Line?_modL3 (s.l3Fill line key) line key (lineOf pa) key'
    (fun x => { x with data := put x.data, dirty := true, poison := x.poison &&& ~~~ w }) fun _ => ⟨rfl, rfl⟩
  show (match ((s.l3Fill line key).modL3 line key fun x =>
      { x with data := put x.data, dirty := true, poison := x.poison &&& ~~~ w }).l3Line? (lineOf pa) key' with
    | some x => lineByte x.data (pa % 128)
    | none => (s.l3Fill line key).hbmByte key' pa) = _
  rw [h1]
  by_cases hk : line = lineOf pa ∧ key = key'
  · have hk' := hk
    obtain ⟨rfl, rfl⟩ := hk
    have hs := l3Line?_l3Fill s (lineOf pa) key
    unfold State.byteAt at h0
    rw [if_pos hk', if_pos hk']
    cases hl : (s.l3Fill (lineOf pa) key).l3Line? (lineOf pa) key with
    | none => simp [hl] at hs
    | some x =>
      rw [hl] at h0
      exact hp rfl rfl _ h0
  · rw [if_neg hk, if_neg hk]
    exact h0

theorem byteAt_writeLines (s : State) (ls : List Nat) (key key' pa a : Nat) (bs : List Byte) :
    (ls.foldl (fun s l => s.writeLine l key (patchLine l a bs) (coveredPieces l a bs.length)) s).byteAt key' pa =
      if lineOf pa ∈ ls ∧ key = key' ∧ a ≤ pa ∧ pa < a + bs.length then bs.getD (pa - a) 0 else s.byteAt key' pa := by
  induction ls generalizing s with
  | nil => simp
  | cons l t ih =>
    have hpa : lineOf pa * 128 + pa % 128 = pa := by unfold lineOf; omega
    rw [List.foldl_cons, ih, byteAt_writeLine s l key key' pa _ _
      (if a ≤ pa ∧ pa < a + bs.length then bs.getD (pa - a) 0 else s.byteAt key' pa) ?_]
    · by_cases hk : key = key'
      · by_cases hr : a ≤ pa ∧ pa < a + bs.length
        · by_cases hl : l = lineOf pa
          · simp [hk, hr, hl]
          · have hl' : ¬ (lineOf pa = l) := fun h => hl h.symm
            simp [hk, hr, hl, hl']
        · simp [hr]
      · simp [hk]
    · rintro rfl rfl d hd
      rw [lineByte_patchLine _ _ _ _ _ (Nat.mod_lt _ (by omega)), hpa, hd]

/-- Bytes written at their homes read back, and every other byte reads as before (R10). -/
theorem byteAt_physWrite (s : State) (key key' pa a : Nat) (bs : List Byte) :
    (s.physWrite key a bs).byteAt key' pa =
      if key = key' ∧ a ≤ pa ∧ pa < a + bs.length then bs.getD (pa - a) 0 else s.byteAt key' pa := by
  unfold State.physWrite
  rw [byteAt_writeLines]
  by_cases hr : a ≤ pa ∧ pa < a + bs.length
  · have hm : lineOf pa ∈ linesOf a bs.length := by
      unfold linesOf lineOf
      rw [if_neg (by omega), List.mem_map]
      refine ⟨pa / 128 - a / 128, ?_, ?_⟩
      · rw [List.mem_range]
        omega
      · omega
    simp [hm, hr]
  · simp [hr]

/-! ### The state's memory -/

/-- A fold of operations that each keep a property keeps it. -/
theorem foldl_keeps {α β : Type} (p : β → Prop) (f : β → α → β) (h : ∀ s x, p s → p (f s x)) (l : List α) (s : β) (hs : p s) :
    p (l.foldl f s) := by
  induction l generalizing s with
  | nil => exact hs
  | cons x t ih => exact ih _ (h _ _ hs)

theorem foldl_mem {α : Type} (f : State → α → State) (h : ∀ s x, (f s x).mem = s.mem) (l : List α) (s : State) :
    (l.foldl f s).mem = s.mem := foldl_keeps (fun t => t.mem = s.mem) f (fun t x e => (h t x).trans e) l s rfl

/-- After reset the memory is canonical. -/
theorem memOk_reset : memOk State.reset := rfl

/-- States with one memory are canonical together. -/
theorem memOk_of_mem {s t : State} (h : t.mem = s.mem) (w : memOk s) : memOk t := by unfold memOk; rw [h]; exact w

@[simp] theorem modLine_mem (s : State) (n : Nat) (f : LineMeta → LineMeta) : (s.modLine n f).mem = s.mem := by
  unfold State.modLine; split <;> rfl
@[simp] theorem raiseFloor_mem (s : State) (n : Nat) (c : Vector Clocks 4) : (s.raiseFloor n c).mem = s.mem :=
  foldl_mem _ (fun s _ => by dsimp only; split <;> rfl) _ _
@[simp] theorem l3Fill_mem (s : State) (line key : Nat) : (s.l3Fill line key).mem = s.mem := by
  unfold State.l3Fill; split <;> rfl
@[simp] theorem writeLine_mem (s : State) (line key : Nat) (put : BitVec 1024 → BitVec 1024) (w : BitVec 16) :
    (s.writeLine line key put w).mem = s.mem := l3Fill_mem s line key
@[simp] theorem physWrite_mem (s : State) (key pa : Nat) (bs : List Byte) : (s.physWrite key pa bs).mem = s.mem :=
  foldl_mem _ (fun s l => writeLine_mem s l key _ _) _ _
@[simp] theorem poison_mem (s : State) (line key : Nat) (x : BitVec 16) (c : BitVec 2) : (s.poison line key x c).mem = s.mem := by
  unfold State.poison
  split
  · exact l3Fill_mem s line key
  · exact modLine_mem ..
@[simp] theorem setEntry_mem (s : State) (e : DirEntry) : (s.setEntry e).mem = s.mem := by
  unfold State.setEntry; simp only; split <;> rfl
@[simp] theorem freeEntry_mem (s : State) (line key : Nat) : (s.freeEntry line key).mem = s.mem := rfl
@[simp] theorem setL2st_mem (s : State) (d line key : Nat) (st : L2State) : (s.setL2st d line key st).mem = s.mem := rfl
@[simp] theorem useL2_mem (s : State) (d line key : Nat) : (s.useL2 d line key).mem = s.mem := by
  unfold State.useL2; split <;> rfl
@[simp] theorem setRemote_mem (s : State) (x : RemoteLine) : (s.setRemote x).mem = s.mem := by
  unfold State.setRemote
  dsimp only
  split
  · exact raiseFloor_mem ..
  · rfl
@[simp] theorem l1Store_mem (s : State) (cl key pa : Nat) (bs : List Byte) : (s.l1Store cl key pa bs).mem = s.mem := by
  unfold State.l1Store; simp only; split <;> rfl
@[simp] theorem acquireCluster_mem (s : State) (cl : Nat) : (s.acquireCluster cl).mem = s.mem := rfl
@[simp] theorem acquireRemote_mem (s : State) : s.acquireRemote.mem = s.mem := foldl_mem _ (fun s _ => raiseFloor_mem s _ _) _ _
@[simp] theorem dropL1_mem (s : State) (mine : Nat → Bool) (key pa n : Nat) : (s.dropL1 mine key pa n).mem = s.mem := rfl
@[simp] theorem dropForRecord_mem (s : State) (d line key : Nat) : (s.dropForRecord d line key).mem = s.mem := by
  unfold State.dropForRecord; split <;> rfl
@[simp] theorem downgrade_mem (s : State) (line key d : Nat) (st : L2State) : (s.downgrade line key d st).mem = s.mem :=
  dropForRecord_mem _ d line key
@[simp] theorem modHomeClocks_mem (s : State) (line key : Nat) (f : Vector Clocks 4 → Vector Clocks 4) :
    (s.modHomeClocks line key f).mem = s.mem := by
  unfold State.modHomeClocks
  split
  · exact l3Fill_mem s line key
  · rfl
@[simp] theorem homeData_mem (s : State) (line key : Nat) : (s.homeData line key).mem = s.mem := by
  unfold State.homeData; split
  · exact l3Fill_mem ..
  · rfl

/-- A masked write of a line goes to its slice or to its proxy copy. -/
@[simp] theorem writeMasked_mem (s : State) (line key : Nat) (d : BitVec 1024) (m : BitVec 128) (whole : BitVec 16) :
    (s.writeMasked line key d m whole).mem = s.mem := by
  unfold State.writeMasked
  split
  · rfl
  · split
    · exact writeLine_mem ..
    · dsimp only
      rw [setRemote_mem]
      split
      · rfl
      · exact modLine_mem ..

@[simp] theorem collectL1_mem (s : State) (cl line key : Nat) (allow : BitVec 128) : (s.collectL1 cl line key allow).mem = s.mem := by
  unfold State.collectL1
  split
  · rfl
  · dsimp only
    split
    · rfl
    · exact writeMasked_mem ..

@[simp] theorem collectDie_mem (s : State) (d line key : Nat) : (s.collectDie d line key).mem = s.mem := by
  have e (a : BitVec 128) (l : List Nat) (t : State) : (l.foldl (fun s c => s.collectL1 (8 * d + c) line key a) t).mem = t.mem :=
    foldl_mem (fun s c => s.collectL1 (8 * d + c) line key a) (fun s c => collectL1_mem s _ _ _ _) l t
  unfold State.collectDie
  dsimp only
  split
  · rw [State.setL2_mem, e]
  · rw [e]

@[simp] theorem giveUp_mem (s : State) (line key d : Nat) : (s.giveUp line key d).mem = s.mem := by
  unfold State.giveUp
  dsimp only
  rw [dropForRecord_mem, setL2st_mem]
  split
  · rw [modHomeClocks_mem, collectDie_mem]
  · exact collectDie_mem ..

@[simp] theorem recallCopies_mem (s : State) (line key : Nat) : (s.recallCopies line key).mem = s.mem :=
  foldl_mem _ (fun s d => giveUp_mem s line key d) _ _

@[simp] theorem idleEntry_mem (s : State) (line key : Nat) : (s.idleEntry line key).mem = s.mem := by
  unfold State.idleEntry; dsimp only; split <;> simp

@[simp] theorem restEntry_mem (s : State) (line key : Nat) : (s.restEntry line key).mem = s.mem := by
  unfold State.restEntry; dsimp only; split <;> simp

/-- What a home does for a failed die changes no byte of HBM4. -/
@[simp] theorem settle_mem (s : State) (line key : Nat) : (s.settle line key).mem = s.mem := by
  have e (l : List Nat) (x : State) : (l.foldl (fun s d => s.setL2st d line key .i) x).mem = x.mem :=
    foldl_mem (fun s d => s.setL2st d line key .i) (fun _ _ => rfl) _ _
  unfold State.settle
  dsimp only
  repeat' split
  all_goals simp [e]

@[simp] theorem readEntry_mem (s : State) (line key : Nat) : (s.readEntry line key).mem = s.mem := by
  unfold State.readEntry State.directoryError
  dsimp only
  repeat' split
  all_goals simp

@[simp] theorem privatise_mem (s : State) (line key : Nat) (ms : List (Nat × BitVec 128)) : (s.privatise line key ms).mem = s.mem := by
  unfold State.privatise
  dsimp only
  rw [setEntry_mem]
  have e (f : Nat × BitVec 128 → L2Line) (l : List (Nat × BitVec 128)) (t : State) : (l.foldl (fun s x => s.setL2 (f x)) t).mem = t.mem :=
    foldl_mem (fun s x => s.setL2 (f x)) (fun _ _ => rfl) l t
  exact e _ ms s

@[simp] theorem grantS_mem (s : State) (line key d : Nat) : (s.grantS line key d).mem = s.mem := by
  unfold State.grantS
  dsimp only
  repeat' split
  all_goals simp

@[simp] theorem grantM_mem (s : State) (line key d : Nat) (mask : BitVec 128) : (s.grantM line key d mask).mem = s.mem := by
  have e (l : List Nat) (x : State) : (l.foldl (fun s k => s.giveUp line key k) x).mem = x.mem :=
    foldl_mem _ (fun s k => giveUp_mem s line key k) _ _
  unfold State.grantM
  dsimp only
  repeat' split
  all_goals simp [e]

@[simp] theorem grant_mem (s : State) (line key : Nat) (r : Nat × Bool) : (s.grant line key r).mem = s.mem := by
  unfold State.grant
  dsimp only
  repeat' split
  all_goals simp

@[simp] theorem finishHeld_mem (s : State) (line key : Nat) : (s.finishHeld line key).mem = s.mem := by
  unfold State.finishHeld
  dsimp only
  split
  · rfl
  · exact (foldl_mem _ (fun s r => grant_mem s line key r) _ _).trans (restEntry_mem ..)

/-- A home's work before it serves an access changes no byte of HBM4. -/
@[simp] theorem touch_mem (s : State) (line key : Nat) : (s.touch line key).mem = s.mem := by
  unfold State.touch; simp

/-- Nor does a recall: what it brings home stands in the slice. -/
@[simp] theorem recallLine_mem (s : State) (line key : Nat) : (s.recallLine line key).mem = s.mem := by
  unfold State.recallLine; simp

@[simp] theorem allocEntry_mem (s : State) (line key : Nat) : (s.allocEntry line key).mem = s.mem := by
  unfold State.allocEntry
  dsimp only
  repeat' split
  all_goals simp

/-- A die that obtains a line changes no byte of HBM4. -/
@[simp] theorem getShared_mem (s : State) (line key d : Nat) (mask : BitVec 128) : (s.getShared line key d mask).mem = s.mem := by
  unfold State.getShared
  dsimp only
  repeat' split
  all_goals simp

/-- A dirty line written back to HBM4 leaves the memory canonical. -/
theorem memOk_hbmPut {s : State} (x : L3Line) (w : memOk s) : memOk (s.hbmPut x) := by
  unfold State.hbmPut
  split
  · unfold memOk at w ⊢
    rw [modLine_mem]
    dsimp only
    generalize (List.range 128).map (lineByte x.data) = bs
    exact wf_writeBytes bs _ w
  · exact w

/-- So does a line that leaves its slice. -/
theorem memOk_l3Drop {s : State} (line key : Nat) (w : memOk s) : memOk (s.l3Drop line key) := by
  unfold State.l3Drop
  split
  · exact w
  · exact memOk_hbmPut _ (memOk_of_mem (raiseFloor_mem _ _ _) w)

end Sys2Proof.Laws
end

