-- ==== Sys2Proof/Laws/PerInstr.lean ====
section
/-! SUPPORT. The decoder and the encoder agree on the word of every instruction: one lemma per constructor. The words of
an event are none. -/

namespace Sys2Proof

/-- A field whose bits are those of x reads as x. -/
theorem bitsAt_eq {n : Nat} (x : BitVec n) (w lo : Nat) (h : w / 2 ^ lo % 2 ^ n = x.toNat) : bitsAt w lo n = x := by
  apply BitVec.eq_of_toNat_eq
  simpa [bitsAt] using h

end Sys2Proof

namespace Sys2Proof.Laws

/-- The word of a well-formed instruction stays below bit 31, and with either value of the E bit it selects the
instruction, with every required-zero field zero. -/
def Words.Statement (i : Instr) : Prop :=
  ∀ h w, encodeMain i = some (h, w) → i.wellFormed = true → ∀ e < 2,
    w < 2 ^ 31 ∧ mainOf h (w + e * 2 ^ 31) = .ok ⟨true, i⟩

/-- An event has no words. -/
theorem Words.event {i : Instr} (h : encodeMain i = none) : Words.Statement i := by
  intro h' w hw
  rw [h] at hw
  cases hw

/-- Width code 6 of sld names sldp (R203). -/
theorem Words.noPointerWidthLoad {h : Hdr} {d a : BitVec 6} {w : BitVec 3} {i : BitVec 9}
    (hf : (Instr.sld h d a w i).wellFormed = true) : w.toNat ≠ 6 := by
  simp only [Instr.wellFormed, Bool.and_eq_true] at hf
  have h5 : decide (w.toNat ≤ 5) = true := hf.1.2
  have := of_decide_eq_true h5
  omega

/-- Width code 6 of sst names sstp (R203). -/
theorem Words.noPointerWidthStore {h : Hdr} {d a : BitVec 6} {w : BitVec 3} {i : BitVec 9}
    (hf : (Instr.sst h d a w i).wellFormed = true) : w.toNat ≠ 6 := by
  simp only [Instr.wellFormed, Bool.and_eq_true] at hf
  have h5 : (storeWidth w && decide (w.toNat ≤ 5)) = true := hf.1.2
  have := of_decide_eq_true ((Bool.and_eq_true _ _).mp h5).2
  omega

/-- The fields of the three-operand vector formats (R158). -/
theorem Words.vector {K e W : Nat} {g : BitVec 3} {d a b : BitVec 7} (hK : K < 128)
    (hW : K * 2 ^ 24 + g.toNat * 2 ^ 21 + d.toNat * 2 ^ 14 + a.toNat * 2 ^ 7 + b.toNat * 2 ^ 0 + e * 2 ^ 31 = W) :
    W / 2 ^ 24 % 2 ^ 7 = K ∧ bitsAt W 21 3 = g ∧ bitsAt W 14 7 = d ∧ bitsAt W 7 7 = a ∧ bitsAt W 0 7 = b := by
  have := g.isLt
  have := d.isLt
  have := a.isLt
  have := b.isLt
  exact ⟨by omega, bitsAt_eq g W 21 (by omega), bitsAt_eq d W 14 (by omega), bitsAt_eq a W 7 (by omega),
    bitsAt_eq b W 0 (by omega)⟩

/-- The word of a three-operand vector format lies below bit 31. -/
theorem Words.vectorLt {K : Nat} {g : BitVec 3} {d a b : BitVec 7} (hK : K < 128) :
    K * 2 ^ 24 + g.toNat * 2 ^ 21 + d.toNat * 2 ^ 14 + a.toNat * 2 ^ 7 + b.toNat * 2 ^ 0 < 2 ^ 31 := by
  have := g.isLt
  have := d.isLt
  have := a.isLt
  have := b.isLt
  omega

/-- The words of primary 0x3 are those of its own table. -/
theorem Words.table03 (h : Hdr) (W : Nat) (hp : W / 2 ^ 24 % 2 ^ 7 = 3) : mainOf h W = main03 h W := by
  unfold mainOf; rw [hp]; rfl

/-- The words of primary 0x4 are those of its own table. -/
theorem Words.table04 (h : Hdr) (W : Nat) (hp : W / 2 ^ 24 % 2 ^ 7 = 4) : mainOf h W = main04 h W := by
  unfold mainOf; rw [hp]; rfl

/-- The words of primary 0x5 are those of its own table. -/
theorem Words.table05 (h : Hdr) (W : Nat) (hp : W / 2 ^ 24 % 2 ^ 7 = 5) : mainOf h W = main05 h W := by
  unfold mainOf; rw [hp]; rfl

/-- The words of primary 0x8 are those of its own table. -/
theorem Words.table08 (h : Hdr) (W : Nat) (hp : W / 2 ^ 24 % 2 ^ 7 = 8) : mainOf h W = main08 h W := by
  unfold mainOf; rw [hp]; rfl

/-- The words of primary 0x9 are those of its own table. -/
theorem Words.table09 (h : Hdr) (W : Nat) (hp : W / 2 ^ 24 % 2 ^ 7 = 9) : mainOf h W = main09 h W := by
  unfold mainOf; rw [hp]; rfl

/-- The words of primary 0x10 are those of its own table. -/
theorem Words.table10 (h : Hdr) (W : Nat) (hp : W / 2 ^ 24 % 2 ^ 7 = 16) : mainOf h W = main10 h W := by
  unfold mainOf; rw [hp]; rfl

/-- The words of primary 0x3c are those of its own table. -/
theorem Words.table3C (h : Hdr) (W : Nat) (hp : W / 2 ^ 24 % 2 ^ 7 = 60) : mainOf h W = main3C h W := by
  unfold mainOf; rw [hp]; rfl

/-- The words of primary 0x6d are those of its own table. -/
theorem Words.table6D (h : Hdr) (W : Nat) (hp : W / 2 ^ 24 % 2 ^ 7 = 109) : mainOf h W = main6D h W := by
  unfold mainOf; rw [hp]; rfl

/-- The words of primary 0x6f are those of its own table. -/
theorem Words.table6F (h : Hdr) (W : Nat) (hp : W / 2 ^ 24 % 2 ^ 7 = 111) : mainOf h W = main6F h W := by
  unfold mainOf; rw [hp]; rfl

/-- The words of primary 0x75 are those of its own table. -/
theorem Words.table75 (h : Hdr) (W : Nat) (hp : W / 2 ^ 24 % 2 ^ 7 = 117) : mainOf h W = main75 h W := by
  unfold mainOf; rw [hp]; rfl

/-- The words of primary 0x79 are those of its own table. -/
theorem Words.table79 (h : Hdr) (W : Nat) (hp : W / 2 ^ 24 % 2 ^ 7 = 121) : mainOf h W = main79 h W := by
  unfold mainOf; rw [hp]; rfl

/-- The words of primary 0x7b are those of its own table. -/
theorem Words.table7B (h : Hdr) (W : Nat) (hp : W / 2 ^ 24 % 2 ^ 7 = 123) : mainOf h W = main7B h W := by
  unfold mainOf; rw [hp]; rfl

/-- The words of primary 0x16. -/
theorem Words.primary16 (h : Hdr) (W : Nat) (hp : W / 2 ^ 24 % 2 ^ 7 = 22) : mainOf h W =
    (if W / 2 ^ 9 % 2 ^ 3 = 6 then .ok ⟨true, .sldp h (bitsAt W 18 6) (bitsAt W 12 6) (bitsAt W 0 9)⟩ else .ok ⟨true, .sld h (bitsAt W 18 6) (bitsAt W 12 6) (bitsAt W 9 3) (bitsAt W 0 9)⟩) := by
  unfold mainOf; rw [hp]; rfl

/-- The words of primary 0x17. -/
theorem Words.primary17 (h : Hdr) (W : Nat) (hp : W / 2 ^ 24 % 2 ^ 7 = 23) : mainOf h W =
    (if W / 2 ^ 9 % 2 ^ 3 = 6 then .ok ⟨true, .sstp h (bitsAt W 18 6) (bitsAt W 12 6) (bitsAt W 0 9)⟩ else .ok ⟨true, .sst h (bitsAt W 18 6) (bitsAt W 12 6) (bitsAt W 9 3) (bitsAt W 0 9)⟩) := by
  unfold mainOf; rw [hp]; rfl

/-- The words of primary 0x3e. -/
theorem Words.primary3E (h : Hdr) (W : Nat) (hp : W / 2 ^ 24 % 2 ^ 7 = 62) : mainOf h W =
    (if W % 2 ^ 7 = 0 then .ok ⟨true, .vfirst h (bitsAt W 21 3) (bitsAt W 14 7) (bitsAt W 7 7)⟩
    else if W / 2 ^ 5 % 2 ^ 2 = 1 then .ok ⟨true, .vbcast h (bitsAt W 21 3) (bitsAt W 14 7) (bitsAt W 7 7) (bitsAt W 0 5)⟩
    else if W / 2 ^ 3 % 2 ^ 4 = 8 then .ok ⟨true, .vscan h (bitsAt W 21 3) (bitsAt W 14 7) (bitsAt W 7 7) (bitsAt W 0 3)⟩
    else .error 2) := by
  unfold mainOf; rw [hp]; rfl

theorem Words.bra (h : Hdr) (g : BitVec 3) (o : BitVec 21) : Words.Statement (.bra h g o) := by
  intro h' w hw _ e he
  obtain ⟨rfl, rfl⟩ := Prod.mk.inj (Option.some.inj hw)
  have := g.isLt
  have := o.isLt
  simp only [put]
  refine ⟨by omega, ?_⟩
  generalize hW : 0x01000000 + g.toNat * 2 ^ 21 + o.toNat * 2 ^ 0 + e * 2 ^ 31 = W
  have hp : W / 2 ^ 24 % 2 ^ 7 = 1 := by omega
  have hm : mainOf h W = .ok ⟨true, .bra h (bitsAt W 21 3) (bitsAt W 0 21)⟩ := by
    unfold mainOf; rw [hp]; rfl
  rw [hm, bitsAt_eq g W 21 (by omega), bitsAt_eq o W 0 (by omega)]

theorem Words.call (h : Hdr) (g : BitVec 3) (o : BitVec 21) : Words.Statement (.call h g o) := by
  intro h' w hw _ e he
  obtain ⟨rfl, rfl⟩ := Prod.mk.inj (Option.some.inj hw)
  have := g.isLt
  have := o.isLt
  simp only [put]
  refine ⟨by omega, ?_⟩
  generalize hW : 0x02000000 + g.toNat * 2 ^ 21 + o.toNat * 2 ^ 0 + e * 2 ^ 31 = W
  have hp : W / 2 ^ 24 % 2 ^ 7 = 2 := by omega
  have hm : mainOf h W = .ok ⟨true, .call h (bitsAt W 21 3) (bitsAt W 0 21)⟩ := by
    unfold mainOf; rw [hp]; rfl
  rw [hm, bitsAt_eq g W 21 (by omega), bitsAt_eq o W 0 (by omega)]

theorem Words.nop (h : Hdr) (g : BitVec 3) : Words.Statement (.nop h g) := by
  intro h' w hw _ e he
  obtain ⟨rfl, rfl⟩ := Prod.mk.inj (Option.some.inj hw)
  have := g.isLt
  simp only [put]
  refine ⟨by omega, ?_⟩
  generalize hW : 0x03000000 + g.toNat * 2 ^ 21 + e * 2 ^ 31 = W
  have hp : W / 2 ^ 24 % 2 ^ 7 = 3 := by omega
  have hs : W / 2 ^ 0 % 2 ^ 6 = 0 := by omega
  have hm : main03 h W = .ok ⟨decide (W / 2 ^ 6 % 2 ^ 15 = 0), .nop h (bitsAt W 21 3)⟩ := by
    unfold main03; rw [hs]; rfl
  rw [Words.table03 h W hp]
  rw [hm, decide_eq_true (show W / 2 ^ 6 % 2 ^ 15 = 0 by omega), bitsAt_eq g W 21 (by omega)]

theorem Words.ret (h : Hdr) (g : BitVec 3) : Words.Statement (.ret h g) := by
  intro h' w hw _ e he
  obtain ⟨rfl, rfl⟩ := Prod.mk.inj (Option.some.inj hw)
  have := g.isLt
  simp only [put]
  refine ⟨by omega, ?_⟩
  generalize hW : 0x03000001 + g.toNat * 2 ^ 21 + e * 2 ^ 31 = W
  have hp : W / 2 ^ 24 % 2 ^ 7 = 3 := by omega
  have hs : W / 2 ^ 0 % 2 ^ 6 = 1 := by omega
  have hm : main03 h W = .ok ⟨decide (W / 2 ^ 6 % 2 ^ 15 = 0), .ret h (bitsAt W 21 3)⟩ := by
    unfold main03; rw [hs]; rfl
  rw [Words.table03 h W hp]
  rw [hm, decide_eq_true (show W / 2 ^ 6 % 2 ^ 15 = 0 by omega), bitsAt_eq g W 21 (by omega)]

theorem Words.exit (h : Hdr) (g : BitVec 3) : Words.Statement (.exit h g) := by
  intro h' w hw _ e he
  obtain ⟨rfl, rfl⟩ := Prod.mk.inj (Option.some.inj hw)
  have := g.isLt
  simp only [put]
  refine ⟨by omega, ?_⟩
  generalize hW : 0x03000002 + g.toNat * 2 ^ 21 + e * 2 ^ 31 = W
  have hp : W / 2 ^ 24 % 2 ^ 7 = 3 := by omega
  have hs : W / 2 ^ 0 % 2 ^ 6 = 2 := by omega
  have hm : main03 h W = .ok ⟨decide (W / 2 ^ 6 % 2 ^ 15 = 0), .exit h (bitsAt W 21 3)⟩ := by
    unfold main03; rw [hs]; rfl
  rw [Words.table03 h W hp]
  rw [hm, decide_eq_true (show W / 2 ^ 6 % 2 ^ 15 = 0 by omega), bitsAt_eq g W 21 (by omega)]

theorem Words.exitQ (h : Hdr) (g : BitVec 3) : Words.Statement (.exitQ h g) := by
  intro h' w hw _ e he
  obtain ⟨rfl, rfl⟩ := Prod.mk.inj (Option.some.inj hw)
  have := g.isLt
  simp only [put]
  refine ⟨by omega, ?_⟩
  generalize hW : 0x03000003 + g.toNat * 2 ^ 21 + e * 2 ^ 31 = W
  have hp : W / 2 ^ 24 % 2 ^ 7 = 3 := by omega
  have hs : W / 2 ^ 0 % 2 ^ 6 = 3 := by omega
  have hm : main03 h W = .ok ⟨decide (W / 2 ^ 6 % 2 ^ 15 = 0), .exitQ h (bitsAt W 21 3)⟩ := by
    unfold main03; rw [hs]; rfl
  rw [Words.table03 h W hp]
  rw [hm, decide_eq_true (show W / 2 ^ 6 % 2 ^ 15 = 0 by omega), bitsAt_eq g W 21 (by omega)]

theorem Words.yield (h : Hdr) (g : BitVec 3) : Words.Statement (.yield h g) := by
  intro h' w hw _ e he
  obtain ⟨rfl, rfl⟩ := Prod.mk.inj (Option.some.inj hw)
  have := g.isLt
  simp only [put]
  refine ⟨by omega, ?_⟩
  generalize hW : 0x03000004 + g.toNat * 2 ^ 21 + e * 2 ^ 31 = W
  have hp : W / 2 ^ 24 % 2 ^ 7 = 3 := by omega
  have hs : W / 2 ^ 0 % 2 ^ 6 = 4 := by omega
  have hm : main03 h W = .ok ⟨decide (W / 2 ^ 6 % 2 ^ 15 = 0), .yield h (bitsAt W 21 3)⟩ := by
    unfold main03; rw [hs]; rfl
  rw [Words.table03 h W hp]
  rw [hm, decide_eq_true (show W / 2 ^ 6 % 2 ^ 15 = 0 by omega), bitsAt_eq g W 21 (by omega)]

theorem Words.tret (h : Hdr) (g : BitVec 3) : Words.Statement (.tret h g) := by
  intro h' w hw _ e he
  obtain ⟨rfl, rfl⟩ := Prod.mk.inj (Option.some.inj hw)
  have := g.isLt
  simp only [put]
  refine ⟨by omega, ?_⟩
  generalize hW : 0x03000005 + g.toNat * 2 ^ 21 + e * 2 ^ 31 = W
  have hp : W / 2 ^ 24 % 2 ^ 7 = 3 := by omega
  have hs : W / 2 ^ 0 % 2 ^ 6 = 5 := by omega
  have hm : main03 h W = .ok ⟨decide (W / 2 ^ 6 % 2 ^ 15 = 0), .tret h (bitsAt W 21 3)⟩ := by
    unfold main03; rw [hs]; rfl
  rw [Words.table03 h W hp]
  rw [hm, decide_eq_true (show W / 2 ^ 6 % 2 ^ 15 = 0 by omega), bitsAt_eq g W 21 (by omega)]

theorem Words.brx (h : Hdr) (g : BitVec 3) (t : BitVec 7) : Words.Statement (.brx h g t) := by
  intro h' w hw _ e he
  obtain ⟨rfl, rfl⟩ := Prod.mk.inj (Option.some.inj hw)
  have := g.isLt
  have := t.isLt
  simp only [put]
  refine ⟨by omega, ?_⟩
  generalize hW : 0x03000006 + g.toNat * 2 ^ 21 + t.toNat * 2 ^ 14 + e * 2 ^ 31 = W
  have hp : W / 2 ^ 24 % 2 ^ 7 = 3 := by omega
  have hs : W / 2 ^ 0 % 2 ^ 6 = 6 := by omega
  have hm : main03 h W = .ok ⟨decide (W / 2 ^ 6 % 2 ^ 8 = 0), .brx h (bitsAt W 21 3) (bitsAt W 14 7)⟩ := by
    unfold main03; rw [hs]; rfl
  rw [Words.table03 h W hp]
  rw [hm, decide_eq_true (show W / 2 ^ 6 % 2 ^ 8 = 0 by omega), bitsAt_eq g W 21 (by omega), bitsAt_eq t W 14 (by omega)]

theorem Words.callx (h : Hdr) (g : BitVec 3) (t : BitVec 7) : Words.Statement (.callx h g t) := by
  intro h' w hw _ e he
  obtain ⟨rfl, rfl⟩ := Prod.mk.inj (Option.some.inj hw)
  have := g.isLt
  have := t.isLt
  simp only [put]
  refine ⟨by omega, ?_⟩
  generalize hW : 0x03000007 + g.toNat * 2 ^ 21 + t.toNat * 2 ^ 14 + e * 2 ^ 31 = W
  have hp : W / 2 ^ 24 % 2 ^ 7 = 3 := by omega
  have hs : W / 2 ^ 0 % 2 ^ 6 = 7 := by omega
  have hm : main03 h W = .ok ⟨decide (W / 2 ^ 6 % 2 ^ 8 = 0), .callx h (bitsAt W 21 3) (bitsAt W 14 7)⟩ := by
    unfold main03; rw [hs]; rfl
  rw [Words.table03 h W hp]
  rw [hm, decide_eq_true (show W / 2 ^ 6 % 2 ^ 8 = 0 by omega), bitsAt_eq g W 21 (by omega), bitsAt_eq t W 14 (by omega)]

theorem Words.bkpt (h : Hdr) (g : BitVec 3) (c : BitVec 9) : Words.Statement (.bkpt h g c) := by
  intro h' w hw _ e he
  obtain ⟨rfl, rfl⟩ := Prod.mk.inj (Option.some.inj hw)
  have := g.isLt
  have := c.isLt
  simp only [put]
  refine ⟨by omega, ?_⟩
  generalize hW : 0x03000008 + g.toNat * 2 ^ 21 + c.toNat * 2 ^ 6 + e * 2 ^ 31 = W
  have hp : W / 2 ^ 24 % 2 ^ 7 = 3 := by omega
  have hs : W / 2 ^ 0 % 2 ^ 6 = 8 := by omega
  have hm : main03 h W = .ok ⟨decide (W / 2 ^ 15 % 2 ^ 6 = 0), .bkpt h (bitsAt W 21 3) (bitsAt W 6 9)⟩ := by
    unfold main03; rw [hs]; rfl
  rw [Words.table03 h W hp]
  rw [hm, decide_eq_true (show W / 2 ^ 15 % 2 ^ 6 = 0 by omega), bitsAt_eq g W 21 (by omega), bitsAt_eq c W 6 (by omega)]

theorem Words.trap (h : Hdr) (g : BitVec 3) (c : BitVec 9) : Words.Statement (.trap h g c) := by
  intro h' w hw _ e he
  obtain ⟨rfl, rfl⟩ := Prod.mk.inj (Option.some.inj hw)
  have := g.isLt
  have := c.isLt
  simp only [put]
  refine ⟨by omega, ?_⟩
  generalize hW : 0x03000009 + g.toNat * 2 ^ 21 + c.toNat * 2 ^ 6 + e * 2 ^ 31 = W
  have hp : W / 2 ^ 24 % 2 ^ 7 = 3 := by omega
  have hs : W / 2 ^ 0 % 2 ^ 6 = 9 := by omega
  have hm : main03 h W = .ok ⟨decide (W / 2 ^ 15 % 2 ^ 6 = 0), .trap h (bitsAt W 21 3) (bitsAt W 6 9)⟩ := by
    unfold main03; rw [hs]; rfl
  rw [Words.table03 h W hp]
  rw [hm, decide_eq_true (show W / 2 ^ 15 % 2 ^ 6 = 0 by omega), bitsAt_eq g W 21 (by omega), bitsAt_eq c W 6 (by omega)]

theorem Words.jenter (h : Hdr) (j : BitVec 4) : Words.Statement (.jenter h j) := by
  intro h' w hw _ e he
  obtain ⟨rfl, rfl⟩ := Prod.mk.inj (Option.some.inj hw)
  have := j.isLt
  simp only [put]
  refine ⟨by omega, ?_⟩
  generalize hW : 0x04000000 + j.toNat * 2 ^ 20 + e * 2 ^ 31 = W
  have hp : W / 2 ^ 24 % 2 ^ 7 = 4 := by omega
  have hs : W / 2 ^ 0 % 2 ^ 4 = 0 := by omega
  have hm : main04 h W = .ok ⟨decide (W / 2 ^ 4 % 2 ^ 16 = 0), .jenter h (bitsAt W 20 4)⟩ := by
    unfold main04; rw [hs]; rfl
  rw [Words.table04 h W hp]
  rw [hm, decide_eq_true (show W / 2 ^ 4 % 2 ^ 16 = 0 by omega), bitsAt_eq j W 20 (by omega)]

theorem Words.jquit (h : Hdr) (j : BitVec 4) : Words.Statement (.jquit h j) := by
  intro h' w hw _ e he
  obtain ⟨rfl, rfl⟩ := Prod.mk.inj (Option.some.inj hw)
  have := j.isLt
  simp only [put]
  refine ⟨by omega, ?_⟩
  generalize hW : 0x04000001 + j.toNat * 2 ^ 20 + e * 2 ^ 31 = W
  have hp : W / 2 ^ 24 % 2 ^ 7 = 4 := by omega
  have hs : W / 2 ^ 0 % 2 ^ 4 = 1 := by omega
  have hm : main04 h W = .ok ⟨decide (W / 2 ^ 4 % 2 ^ 16 = 0), .jquit h (bitsAt W 20 4)⟩ := by
    unfold main04; rw [hs]; rfl
  rw [Words.table04 h W hp]
  rw [hm, decide_eq_true (show W / 2 ^ 4 % 2 ^ 16 = 0 by omega), bitsAt_eq j W 20 (by omega)]

theorem Words.jwait (h : Hdr) (j : BitVec 4) : Words.Statement (.jwait h j) := by
  intro h' w hw _ e he
  obtain ⟨rfl, rfl⟩ := Prod.mk.inj (Option.some.inj hw)
  have := j.isLt
  simp only [put]
  refine ⟨by omega, ?_⟩
  generalize hW : 0x04000002 + j.toNat * 2 ^ 20 + e * 2 ^ 31 = W
  have hp : W / 2 ^ 24 % 2 ^ 7 = 4 := by omega
  have hs : W / 2 ^ 0 % 2 ^ 4 = 2 := by omega
  have hm : main04 h W = .ok ⟨decide (W / 2 ^ 4 % 2 ^ 16 = 0), .jwait h (bitsAt W 20 4)⟩ := by
    unfold main04; rw [hs]; rfl
  rw [Words.table04 h W hp]
  rw [hm, decide_eq_true (show W / 2 ^ 4 % 2 ^ 16 = 0 by omega), bitsAt_eq j W 20 (by omega)]

theorem Words.jclr (h : Hdr) (j : BitVec 4) : Words.Statement (.jclr h j) := by
  intro h' w hw _ e he
  obtain ⟨rfl, rfl⟩ := Prod.mk.inj (Option.some.inj hw)
  have := j.isLt
  simp only [put]
  refine ⟨by omega, ?_⟩
  generalize hW : 0x04000003 + j.toNat * 2 ^ 20 + e * 2 ^ 31 = W
  have hp : W / 2 ^ 24 % 2 ^ 7 = 4 := by omega
  have hs : W / 2 ^ 0 % 2 ^ 4 = 3 := by omega
  have hm : main04 h W = .ok ⟨decide (W / 2 ^ 4 % 2 ^ 16 = 0), .jclr h (bitsAt W 20 4)⟩ := by
    unfold main04; rw [hs]; rfl
  rw [Words.table04 h W hp]
  rw [hm, decide_eq_true (show W / 2 ^ 4 % 2 ^ 16 = 0 by omega), bitsAt_eq j W 20 (by omega)]

theorem Words.jmask (h : Hdr) (j : BitVec 4) (s : BitVec 6) : Words.Statement (.jmask h j s) := by
  intro h' w hw _ e he
  obtain ⟨rfl, rfl⟩ := Prod.mk.inj (Option.some.inj hw)
  have := j.isLt
  have := s.isLt
  simp only [put]
  refine ⟨by omega, ?_⟩
  generalize hW : 0x04000004 + j.toNat * 2 ^ 20 + s.toNat * 2 ^ 14 + e * 2 ^ 31 = W
  have hp : W / 2 ^ 24 % 2 ^ 7 = 4 := by omega
  have hs : W / 2 ^ 0 % 2 ^ 4 = 4 := by omega
  have hm : main04 h W = .ok ⟨decide (W / 2 ^ 4 % 2 ^ 10 = 0), .jmask h (bitsAt W 20 4) (bitsAt W 14 6)⟩ := by
    unfold main04; rw [hs]; rfl
  rw [Words.table04 h W hp]
  rw [hm, decide_eq_true (show W / 2 ^ 4 % 2 ^ 10 = 0 by omega), bitsAt_eq j W 20 (by omega), bitsAt_eq s W 14 (by omega)]

theorem Words.jarr (h : Hdr) (j : BitVec 4) (s : BitVec 6) : Words.Statement (.jarr h j s) := by
  intro h' w hw _ e he
  obtain ⟨rfl, rfl⟩ := Prod.mk.inj (Option.some.inj hw)
  have := j.isLt
  have := s.isLt
  simp only [put]
  refine ⟨by omega, ?_⟩
  generalize hW : 0x04000005 + j.toNat * 2 ^ 20 + s.toNat * 2 ^ 14 + e * 2 ^ 31 = W
  have hp : W / 2 ^ 24 % 2 ^ 7 = 4 := by omega
  have hs : W / 2 ^ 0 % 2 ^ 4 = 5 := by omega
  have hm : main04 h W = .ok ⟨decide (W / 2 ^ 4 % 2 ^ 10 = 0), .jarr h (bitsAt W 20 4) (bitsAt W 14 6)⟩ := by
    unfold main04; rw [hs]; rfl
  rw [Words.table04 h W hp]
  rw [hm, decide_eq_true (show W / 2 ^ 4 % 2 ^ 10 = 0 by omega), bitsAt_eq j W 20 (by omega), bitsAt_eq s W 14 (by omega)]

theorem Words.jload (h : Hdr) (j : BitVec 4) (s : BitVec 6) : Words.Statement (.jload h j s) := by
  intro h' w hw _ e he
  obtain ⟨rfl, rfl⟩ := Prod.mk.inj (Option.some.inj hw)
  have := j.isLt
  have := s.isLt
  simp only [put]
  refine ⟨by omega, ?_⟩
  generalize hW : 0x04000006 + j.toNat * 2 ^ 20 + s.toNat * 2 ^ 14 + e * 2 ^ 31 = W
  have hp : W / 2 ^ 24 % 2 ^ 7 = 4 := by omega
  have hs : W / 2 ^ 0 % 2 ^ 4 = 6 := by omega
  have hm : main04 h W = .ok ⟨decide (W / 2 ^ 4 % 2 ^ 10 = 0), .jload h (bitsAt W 20 4) (bitsAt W 14 6)⟩ := by
    unfold main04; rw [hs]; rfl
  rw [Words.table04 h W hp]
  rw [hm, decide_eq_true (show W / 2 ^ 4 % 2 ^ 10 = 0 by omega), bitsAt_eq j W 20 (by omega), bitsAt_eq s W 14 (by omega)]

theorem Words.pand (h : Hdr) (g : BitVec 3) (d : BitVec 3) (a : BitVec 3) (b : BitVec 3) : Words.Statement (.pand h g d a b) := by
  intro h' w hw _ e he
  obtain ⟨rfl, rfl⟩ := Prod.mk.inj (Option.some.inj hw)
  have := g.isLt
  have := d.isLt
  have := a.isLt
  have := b.isLt
  simp only [put]
  refine ⟨by omega, ?_⟩
  generalize hW : 0x05000000 + g.toNat * 2 ^ 21 + d.toNat * 2 ^ 18 + a.toNat * 2 ^ 7 + b.toNat * 2 ^ 0 + e * 2 ^ 31 = W
  have hp : W / 2 ^ 24 % 2 ^ 7 = 5 := by omega
  have hs : W / 2 ^ 14 % 2 ^ 4 = 0 := by omega
  have hm : main05 h W = .ok ⟨decide (W / 2 ^ 3 % 2 ^ 4 = 0) && decide (W / 2 ^ 10 % 2 ^ 4 = 0), .pand h (bitsAt W 21 3) (bitsAt W 18 3) (bitsAt W 7 3) (bitsAt W 0 3)⟩ := by
    unfold main05; rw [hs]; rfl
  rw [Words.table05 h W hp]
  rw [hm, decide_eq_true (show W / 2 ^ 3 % 2 ^ 4 = 0 by omega), decide_eq_true (show W / 2 ^ 10 % 2 ^ 4 = 0 by omega), bitsAt_eq g W 21 (by omega), bitsAt_eq d W 18 (by omega), bitsAt_eq a W 7 (by omega), bitsAt_eq b W 0 (by omega)]
  rfl

theorem Words.por (h : Hdr) (g : BitVec 3) (d : BitVec 3) (a : BitVec 3) (b : BitVec 3) : Words.Statement (.por h g d a b) := by
  intro h' w hw _ e he
  obtain ⟨rfl, rfl⟩ := Prod.mk.inj (Option.some.inj hw)
  have := g.isLt
  have := d.isLt
  have := a.isLt
  have := b.isLt
  simp only [put]
  refine ⟨by omega, ?_⟩
  generalize hW : 0x05004000 + g.toNat * 2 ^ 21 + d.toNat * 2 ^ 18 + a.toNat * 2 ^ 7 + b.toNat * 2 ^ 0 + e * 2 ^ 31 = W
  have hp : W / 2 ^ 24 % 2 ^ 7 = 5 := by omega
  have hs : W / 2 ^ 14 % 2 ^ 4 = 1 := by omega
  have hm : main05 h W = .ok ⟨decide (W / 2 ^ 3 % 2 ^ 4 = 0) && decide (W / 2 ^ 10 % 2 ^ 4 = 0), .por h (bitsAt W 21 3) (bitsAt W 18 3) (bitsAt W 7 3) (bitsAt W 0 3)⟩ := by
    unfold main05; rw [hs]; rfl
  rw [Words.table05 h W hp]
  rw [hm, decide_eq_true (show W / 2 ^ 3 % 2 ^ 4 = 0 by omega), decide_eq_true (show W / 2 ^ 10 % 2 ^ 4 = 0 by omega), bitsAt_eq g W 21 (by omega), bitsAt_eq d W 18 (by omega), bitsAt_eq a W 7 (by omega), bitsAt_eq b W 0 (by omega)]
  rfl

theorem Words.pxor (h : Hdr) (g : BitVec 3) (d : BitVec 3) (a : BitVec 3) (b : BitVec 3) : Words.Statement (.pxor h g d a b) := by
  intro h' w hw _ e he
  obtain ⟨rfl, rfl⟩ := Prod.mk.inj (Option.some.inj hw)
  have := g.isLt
  have := d.isLt
  have := a.isLt
  have := b.isLt
  simp only [put]
  refine ⟨by omega, ?_⟩
  generalize hW : 0x05008000 + g.toNat * 2 ^ 21 + d.toNat * 2 ^ 18 + a.toNat * 2 ^ 7 + b.toNat * 2 ^ 0 + e * 2 ^ 31 = W
  have hp : W / 2 ^ 24 % 2 ^ 7 = 5 := by omega
  have hs : W / 2 ^ 14 % 2 ^ 4 = 2 := by omega
  have hm : main05 h W = .ok ⟨decide (W / 2 ^ 3 % 2 ^ 4 = 0) && decide (W / 2 ^ 10 % 2 ^ 4 = 0), .pxor h (bitsAt W 21 3) (bitsAt W 18 3) (bitsAt W 7 3) (bitsAt W 0 3)⟩ := by
    unfold main05; rw [hs]; rfl
  rw [Words.table05 h W hp]
  rw [hm, decide_eq_true (show W / 2 ^ 3 % 2 ^ 4 = 0 by omega), decide_eq_true (show W / 2 ^ 10 % 2 ^ 4 = 0 by omega), bitsAt_eq g W 21 (by omega), bitsAt_eq d W 18 (by omega), bitsAt_eq a W 7 (by omega), bitsAt_eq b W 0 (by omega)]
  rfl

theorem Words.pandn (h : Hdr) (g : BitVec 3) (d : BitVec 3) (a : BitVec 3) (b : BitVec 3) : Words.Statement (.pandn h g d a b) := by
  intro h' w hw _ e he
  obtain ⟨rfl, rfl⟩ := Prod.mk.inj (Option.some.inj hw)
  have := g.isLt
  have := d.isLt
  have := a.isLt
  have := b.isLt
  simp only [put]
  refine ⟨by omega, ?_⟩
  generalize hW : 0x0500C000 + g.toNat * 2 ^ 21 + d.toNat * 2 ^ 18 + a.toNat * 2 ^ 7 + b.toNat * 2 ^ 0 + e * 2 ^ 31 = W
  have hp : W / 2 ^ 24 % 2 ^ 7 = 5 := by omega
  have hs : W / 2 ^ 14 % 2 ^ 4 = 3 := by omega
  have hm : main05 h W = .ok ⟨decide (W / 2 ^ 3 % 2 ^ 4 = 0) && decide (W / 2 ^ 10 % 2 ^ 4 = 0), .pandn h (bitsAt W 21 3) (bitsAt W 18 3) (bitsAt W 7 3) (bitsAt W 0 3)⟩ := by
    unfold main05; rw [hs]; rfl
  rw [Words.table05 h W hp]
  rw [hm, decide_eq_true (show W / 2 ^ 3 % 2 ^ 4 = 0 by omega), decide_eq_true (show W / 2 ^ 10 % 2 ^ 4 = 0 by omega), bitsAt_eq g W 21 (by omega), bitsAt_eq d W 18 (by omega), bitsAt_eq a W 7 (by omega), bitsAt_eq b W 0 (by omega)]
  rfl

theorem Words.pnot (h : Hdr) (g : BitVec 3) (d : BitVec 3) (a : BitVec 3) : Words.Statement (.pnot h g d a) := by
  intro h' w hw _ e he
  obtain ⟨rfl, rfl⟩ := Prod.mk.inj (Option.some.inj hw)
  have := g.isLt
  have := d.isLt
  have := a.isLt
  simp only [put]
  refine ⟨by omega, ?_⟩
  generalize hW : 0x05010000 + g.toNat * 2 ^ 21 + d.toNat * 2 ^ 18 + a.toNat * 2 ^ 7 + e * 2 ^ 31 = W
  have hp : W / 2 ^ 24 % 2 ^ 7 = 5 := by omega
  have hs : W / 2 ^ 14 % 2 ^ 4 = 4 := by omega
  have hm : main05 h W = .ok ⟨decide (W / 2 ^ 0 % 2 ^ 7 = 0) && decide (W / 2 ^ 10 % 2 ^ 4 = 0), .pnot h (bitsAt W 21 3) (bitsAt W 18 3) (bitsAt W 7 3)⟩ := by
    unfold main05; rw [hs]; rfl
  rw [Words.table05 h W hp]
  rw [hm, decide_eq_true (show W / 2 ^ 0 % 2 ^ 7 = 0 by omega), decide_eq_true (show W / 2 ^ 10 % 2 ^ 4 = 0 by omega), bitsAt_eq g W 21 (by omega), bitsAt_eq d W 18 (by omega), bitsAt_eq a W 7 (by omega)]
  rfl

theorem Words.pmov (h : Hdr) (g : BitVec 3) (d : BitVec 3) (a : BitVec 7) : Words.Statement (.pmov h g d a) := by
  intro h' w hw _ e he
  obtain ⟨rfl, rfl⟩ := Prod.mk.inj (Option.some.inj hw)
  have := g.isLt
  have := d.isLt
  have := a.isLt
  simp only [put]
  refine ⟨by omega, ?_⟩
  generalize hW : 0x05014000 + g.toNat * 2 ^ 21 + d.toNat * 2 ^ 18 + a.toNat * 2 ^ 7 + e * 2 ^ 31 = W
  have hp : W / 2 ^ 24 % 2 ^ 7 = 5 := by omega
  have hs : W / 2 ^ 14 % 2 ^ 4 = 5 := by omega
  have hm : main05 h W = .ok ⟨decide (W / 2 ^ 0 % 2 ^ 7 = 0), .pmov h (bitsAt W 21 3) (bitsAt W 18 3) (bitsAt W 7 7)⟩ := by
    unfold main05; rw [hs]; rfl
  rw [Words.table05 h W hp]
  rw [hm, decide_eq_true (show W / 2 ^ 0 % 2 ^ 7 = 0 by omega), bitsAt_eq g W 21 (by omega), bitsAt_eq d W 18 (by omega), bitsAt_eq a W 7 (by omega)]

theorem Words.pget (h : Hdr) (g : BitVec 3) (s : BitVec 6) (a : BitVec 3) : Words.Statement (.pget h g s a) := by
  intro h' w hw _ e he
  obtain ⟨rfl, rfl⟩ := Prod.mk.inj (Option.some.inj hw)
  have := g.isLt
  have := s.isLt
  have := a.isLt
  simp only [put]
  refine ⟨by omega, ?_⟩
  generalize hW : 0x0501C000 + g.toNat * 2 ^ 21 + s.toNat * 2 ^ 7 + a.toNat * 2 ^ 0 + e * 2 ^ 31 = W
  have hp : W / 2 ^ 24 % 2 ^ 7 = 5 := by omega
  have hs : W / 2 ^ 14 % 2 ^ 4 = 7 := by omega
  have hm : main05 h W = .ok ⟨decide (W / 2 ^ 3 % 2 ^ 4 = 0) && decide (W / 2 ^ 13 % 2 ^ 1 = 0) && decide (W / 2 ^ 18 % 2 ^ 3 = 0), .pget h (bitsAt W 21 3) (bitsAt W 7 6) (bitsAt W 0 3)⟩ := by
    unfold main05; rw [hs]; rfl
  rw [Words.table05 h W hp]
  rw [hm, decide_eq_true (show W / 2 ^ 3 % 2 ^ 4 = 0 by omega), decide_eq_true (show W / 2 ^ 13 % 2 ^ 1 = 0 by omega), decide_eq_true (show W / 2 ^ 18 % 2 ^ 3 = 0 by omega), bitsAt_eq g W 21 (by omega), bitsAt_eq s W 7 (by omega), bitsAt_eq a W 0 (by omega)]
  rfl

theorem Words.elect (h : Hdr) (g : BitVec 3) (d : BitVec 3) : Words.Statement (.elect h g d) := by
  intro h' w hw _ e he
  obtain ⟨rfl, rfl⟩ := Prod.mk.inj (Option.some.inj hw)
  have := g.isLt
  have := d.isLt
  simp only [put]
  refine ⟨by omega, ?_⟩
  generalize hW : 0x06000000 + g.toNat * 2 ^ 21 + d.toNat * 2 ^ 18 + e * 2 ^ 31 = W
  have hp : W / 2 ^ 24 % 2 ^ 7 = 6 := by omega
  have hm : mainOf h W = .ok ⟨decide (W / 2 ^ 0 % 2 ^ 18 = 0), .elect h (bitsAt W 21 3) (bitsAt W 18 3)⟩ := by
    unfold mainOf; rw [hp]; rfl
  rw [hm, decide_eq_true (show W / 2 ^ 0 % 2 ^ 18 = 0 by omega), bitsAt_eq g W 21 (by omega), bitsAt_eq d W 18 (by omega)]

theorem Words.reggrow (h : Hdr) (n : BitVec 9) : Words.Statement (.reggrow h n) := by
  intro h' w hw _ e he
  obtain ⟨rfl, rfl⟩ := Prod.mk.inj (Option.some.inj hw)
  have := n.isLt
  simp only [put]
  refine ⟨by omega, ?_⟩
  generalize hW : 0x07E00000 + n.toNat * 2 ^ 6 + e * 2 ^ 31 = W
  have hp : W / 2 ^ 24 % 2 ^ 7 = 7 := by omega
  have hm : mainOf h W = .ok ⟨decide (W / 2 ^ 0 % 2 ^ 6 = 0) && decide (W / 2 ^ 15 % 2 ^ 9 = 448), .reggrow h (bitsAt W 6 9)⟩ := by
    unfold mainOf; rw [hp]; rfl
  rw [hm, decide_eq_true (show W / 2 ^ 0 % 2 ^ 6 = 0 by omega), decide_eq_true (show W / 2 ^ 15 % 2 ^ 9 = 448 by omega), bitsAt_eq n W 6 (by omega)]
  rfl

theorem Words.sget (h : Hdr) (d : BitVec 6) (n : BitVec 6) : Words.Statement (.sget h d n) := by
  intro h' w hw _ e he
  obtain ⟨rfl, rfl⟩ := Prod.mk.inj (Option.some.inj hw)
  have := d.isLt
  have := n.isLt
  simp only [put]
  refine ⟨by omega, ?_⟩
  generalize hW : 0x08000000 + d.toNat * 2 ^ 18 + n.toNat * 2 ^ 6 + e * 2 ^ 31 = W
  have hp : W / 2 ^ 24 % 2 ^ 7 = 8 := by omega
  have hs : W / 2 ^ 0 % 2 ^ 6 = 0 := by omega
  have hm : main08 h W = .ok ⟨decide (W / 2 ^ 12 % 2 ^ 6 = 0), .sget h (bitsAt W 18 6) (bitsAt W 6 6)⟩ := by
    unfold main08; rw [hs]; rfl
  rw [Words.table08 h W hp]
  rw [hm, decide_eq_true (show W / 2 ^ 12 % 2 ^ 6 = 0 by omega), bitsAt_eq d W 18 (by omega), bitsAt_eq n W 6 (by omega)]

theorem Words.sset (h : Hdr) (a : BitVec 6) (n : BitVec 6) : Words.Statement (.sset h a n) := by
  intro h' w hw _ e he
  obtain ⟨rfl, rfl⟩ := Prod.mk.inj (Option.some.inj hw)
  have := a.isLt
  have := n.isLt
  simp only [put]
  refine ⟨by omega, ?_⟩
  generalize hW : 0x08000001 + a.toNat * 2 ^ 12 + n.toNat * 2 ^ 6 + e * 2 ^ 31 = W
  have hp : W / 2 ^ 24 % 2 ^ 7 = 8 := by omega
  have hs : W / 2 ^ 0 % 2 ^ 6 = 1 := by omega
  have hm : main08 h W = .ok ⟨decide (W / 2 ^ 18 % 2 ^ 6 = 0), .sset h (bitsAt W 12 6) (bitsAt W 6 6)⟩ := by
    unfold main08; rw [hs]; rfl
  rw [Words.table08 h W hp]
  rw [hm, decide_eq_true (show W / 2 ^ 18 % 2 ^ 6 = 0 by omega), bitsAt_eq a W 12 (by omega), bitsAt_eq n W 6 (by omega)]

theorem Words.vgetGang (h : Hdr) (d : BitVec 7) (n : BitVec 6) : Words.Statement (.vgetGang h d n) := by
  intro h' w hw _ e he
  obtain ⟨rfl, rfl⟩ := Prod.mk.inj (Option.some.inj hw)
  have := d.isLt
  have := n.isLt
  simp only [put]
  refine ⟨by omega, ?_⟩
  generalize hW : 0x08000002 + d.toNat * 2 ^ 17 + n.toNat * 2 ^ 6 + e * 2 ^ 31 = W
  have hp : W / 2 ^ 24 % 2 ^ 7 = 8 := by omega
  have hs : W / 2 ^ 0 % 2 ^ 6 = 2 := by omega
  have hm : main08 h W = .ok ⟨decide (W / 2 ^ 12 % 2 ^ 5 = 0), .vgetGang h (bitsAt W 17 7) (bitsAt W 6 6)⟩ := by
    unfold main08; rw [hs]; rfl
  rw [Words.table08 h W hp]
  rw [hm, decide_eq_true (show W / 2 ^ 12 % 2 ^ 5 = 0 by omega), bitsAt_eq d W 17 (by omega), bitsAt_eq n W 6 (by omega)]

theorem Words.vgetThread (h : Hdr) (g : BitVec 3) (d : BitVec 7) (n : BitVec 6) : Words.Statement (.vgetThread h g d n) := by
  intro h' w hw _ e he
  obtain ⟨rfl, rfl⟩ := Prod.mk.inj (Option.some.inj hw)
  have := g.isLt
  have := d.isLt
  have := n.isLt
  simp only [put]
  refine ⟨by omega, ?_⟩
  generalize hW : 0x5C000000 + g.toNat * 2 ^ 21 + d.toNat * 2 ^ 14 + n.toNat * 2 ^ 0 + e * 2 ^ 31 = W
  have hp : W / 2 ^ 24 % 2 ^ 7 = 92 := by omega
  have hm : mainOf h W = .ok ⟨decide (W / 2 ^ 6 % 2 ^ 8 = 0), .vgetThread h (bitsAt W 21 3) (bitsAt W 14 7) (bitsAt W 0 6)⟩ := by
    unfold mainOf; rw [hp]; rfl
  rw [hm, decide_eq_true (show W / 2 ^ 6 % 2 ^ 8 = 0 by omega), bitsAt_eq g W 21 (by omega), bitsAt_eq d W 14 (by omega), bitsAt_eq n W 0 (by omega)]

theorem Words.clkScalar (h : Hdr) (d : BitVec 6) : Words.Statement (.clkScalar h d) := by
  intro h' w hw _ e he
  obtain ⟨rfl, rfl⟩ := Prod.mk.inj (Option.some.inj hw)
  have := d.isLt
  simp only [put]
  refine ⟨by omega, ?_⟩
  generalize hW : 0x09000000 + d.toNat * 2 ^ 18 + e * 2 ^ 31 = W
  have hp : W / 2 ^ 24 % 2 ^ 7 = 9 := by omega
  have hs : W / 2 ^ 0 % 2 ^ 6 = 0 := by omega
  have hm : main09 h W = .ok ⟨decide (W / 2 ^ 6 % 2 ^ 12 = 0), .clkScalar h (bitsAt W 18 6)⟩ := by
    unfold main09; rw [hs]; rfl
  rw [Words.table09 h W hp]
  rw [hm, decide_eq_true (show W / 2 ^ 6 % 2 ^ 12 = 0 by omega), bitsAt_eq d W 18 (by omega)]

theorem Words.clkVector (h : Hdr) (d : BitVec 7) : Words.Statement (.clkVector h d) := by
  intro h' w hw _ e he
  obtain ⟨rfl, rfl⟩ := Prod.mk.inj (Option.some.inj hw)
  have := d.isLt
  simp only [put]
  refine ⟨by omega, ?_⟩
  generalize hW : 0x09000001 + d.toNat * 2 ^ 17 + e * 2 ^ 31 = W
  have hp : W / 2 ^ 24 % 2 ^ 7 = 9 := by omega
  have hs : W / 2 ^ 0 % 2 ^ 6 = 1 := by omega
  have hm : main09 h W = .ok ⟨decide (W / 2 ^ 6 % 2 ^ 11 = 0), .clkVector h (bitsAt W 17 7)⟩ := by
    unfold main09; rw [hs]; rfl
  rw [Words.table09 h W hp]
  rw [hm, decide_eq_true (show W / 2 ^ 6 % 2 ^ 11 = 0 by omega), bitsAt_eq d W 17 (by omega)]

theorem Words.sadd (h : Hdr) (d : BitVec 6) (a : BitVec 6) (b : BitVec 6) : Words.Statement (.sadd h d a b) := by
  intro h' w hw _ e he
  obtain ⟨rfl, rfl⟩ := Prod.mk.inj (Option.some.inj hw)
  have := d.isLt
  have := a.isLt
  have := b.isLt
  simp only [put]
  refine ⟨by omega, ?_⟩
  generalize hW : 0x10000000 + d.toNat * 2 ^ 18 + a.toNat * 2 ^ 12 + b.toNat * 2 ^ 6 + e * 2 ^ 31 = W
  have hp : W / 2 ^ 24 % 2 ^ 7 = 16 := by omega
  have hs : W / 2 ^ 0 % 2 ^ 6 = 0 := by omega
  have hm : main10 h W = .ok ⟨true, .sadd h (bitsAt W 18 6) (bitsAt W 12 6) (bitsAt W 6 6)⟩ := by
    unfold main10; rw [hs]; rfl
  rw [Words.table10 h W hp]
  rw [hm, bitsAt_eq d W 18 (by omega), bitsAt_eq a W 12 (by omega), bitsAt_eq b W 6 (by omega)]

theorem Words.ssub (h : Hdr) (d : BitVec 6) (a : BitVec 6) (b : BitVec 6) : Words.Statement (.ssub h d a b) := by
  intro h' w hw _ e he
  obtain ⟨rfl, rfl⟩ := Prod.mk.inj (Option.some.inj hw)
  have := d.isLt
  have := a.isLt
  have := b.isLt
  simp only [put]
  refine ⟨by omega, ?_⟩
  generalize hW : 0x10000001 + d.toNat * 2 ^ 18 + a.toNat * 2 ^ 12 + b.toNat * 2 ^ 6 + e * 2 ^ 31 = W
  have hp : W / 2 ^ 24 % 2 ^ 7 = 16 := by omega
  have hs : W / 2 ^ 0 % 2 ^ 6 = 1 := by omega
  have hm : main10 h W = .ok ⟨true, .ssub h (bitsAt W 18 6) (bitsAt W 12 6) (bitsAt W 6 6)⟩ := by
    unfold main10; rw [hs]; rfl
  rw [Words.table10 h W hp]
  rw [hm, bitsAt_eq d W 18 (by omega), bitsAt_eq a W 12 (by omega), bitsAt_eq b W 6 (by omega)]

theorem Words.smul (h : Hdr) (d : BitVec 6) (a : BitVec 6) (b : BitVec 6) : Words.Statement (.smul h d a b) := by
  intro h' w hw _ e he
  obtain ⟨rfl, rfl⟩ := Prod.mk.inj (Option.some.inj hw)
  have := d.isLt
  have := a.isLt
  have := b.isLt
  simp only [put]
  refine ⟨by omega, ?_⟩
  generalize hW : 0x10000002 + d.toNat * 2 ^ 18 + a.toNat * 2 ^ 12 + b.toNat * 2 ^ 6 + e * 2 ^ 31 = W
  have hp : W / 2 ^ 24 % 2 ^ 7 = 16 := by omega
  have hs : W / 2 ^ 0 % 2 ^ 6 = 2 := by omega
  have hm : main10 h W = .ok ⟨true, .smul h (bitsAt W 18 6) (bitsAt W 12 6) (bitsAt W 6 6)⟩ := by
    unfold main10; rw [hs]; rfl
  rw [Words.table10 h W hp]
  rw [hm, bitsAt_eq d W 18 (by omega), bitsAt_eq a W 12 (by omega), bitsAt_eq b W 6 (by omega)]

theorem Words.smulhN (h : Hdr) (d : BitVec 6) (a : BitVec 6) (b : BitVec 6) : Words.Statement (.smulhN h d a b) := by
  intro h' w hw _ e he
  obtain ⟨rfl, rfl⟩ := Prod.mk.inj (Option.some.inj hw)
  have := d.isLt
  have := a.isLt
  have := b.isLt
  simp only [put]
  refine ⟨by omega, ?_⟩
  generalize hW : 0x10000003 + d.toNat * 2 ^ 18 + a.toNat * 2 ^ 12 + b.toNat * 2 ^ 6 + e * 2 ^ 31 = W
  have hp : W / 2 ^ 24 % 2 ^ 7 = 16 := by omega
  have hs : W / 2 ^ 0 % 2 ^ 6 = 3 := by omega
  have hm : main10 h W = .ok ⟨true, .smulhN h (bitsAt W 18 6) (bitsAt W 12 6) (bitsAt W 6 6)⟩ := by
    unfold main10; rw [hs]; rfl
  rw [Words.table10 h W hp]
  rw [hm, bitsAt_eq d W 18 (by omega), bitsAt_eq a W 12 (by omega), bitsAt_eq b W 6 (by omega)]

theorem Words.smulhI (h : Hdr) (d : BitVec 6) (a : BitVec 6) (b : BitVec 6) : Words.Statement (.smulhI h d a b) := by
  intro h' w hw _ e he
  obtain ⟨rfl, rfl⟩ := Prod.mk.inj (Option.some.inj hw)
  have := d.isLt
  have := a.isLt
  have := b.isLt
  simp only [put]
  refine ⟨by omega, ?_⟩
  generalize hW : 0x10000004 + d.toNat * 2 ^ 18 + a.toNat * 2 ^ 12 + b.toNat * 2 ^ 6 + e * 2 ^ 31 = W
  have hp : W / 2 ^ 24 % 2 ^ 7 = 16 := by omega
  have hs : W / 2 ^ 0 % 2 ^ 6 = 4 := by omega
  have hm : main10 h W = .ok ⟨true, .smulhI h (bitsAt W 18 6) (bitsAt W 12 6) (bitsAt W 6 6)⟩ := by
    unfold main10; rw [hs]; rfl
  rw [Words.table10 h W hp]
  rw [hm, bitsAt_eq d W 18 (by omega), bitsAt_eq a W 12 (by omega), bitsAt_eq b W 6 (by omega)]

theorem Words.sand (h : Hdr) (d : BitVec 6) (a : BitVec 6) (b : BitVec 6) : Words.Statement (.sand h d a b) := by
  intro h' w hw _ e he
  obtain ⟨rfl, rfl⟩ := Prod.mk.inj (Option.some.inj hw)
  have := d.isLt
  have := a.isLt
  have := b.isLt
  simp only [put]
  refine ⟨by omega, ?_⟩
  generalize hW : 0x10000005 + d.toNat * 2 ^ 18 + a.toNat * 2 ^ 12 + b.toNat * 2 ^ 6 + e * 2 ^ 31 = W
  have hp : W / 2 ^ 24 % 2 ^ 7 = 16 := by omega
  have hs : W / 2 ^ 0 % 2 ^ 6 = 5 := by omega
  have hm : main10 h W = .ok ⟨true, .sand h (bitsAt W 18 6) (bitsAt W 12 6) (bitsAt W 6 6)⟩ := by
    unfold main10; rw [hs]; rfl
  rw [Words.table10 h W hp]
  rw [hm, bitsAt_eq d W 18 (by omega), bitsAt_eq a W 12 (by omega), bitsAt_eq b W 6 (by omega)]

theorem Words.sor (h : Hdr) (d : BitVec 6) (a : BitVec 6) (b : BitVec 6) : Words.Statement (.sor h d a b) := by
  intro h' w hw _ e he
  obtain ⟨rfl, rfl⟩ := Prod.mk.inj (Option.some.inj hw)
  have := d.isLt
  have := a.isLt
  have := b.isLt
  simp only [put]
  refine ⟨by omega, ?_⟩
  generalize hW : 0x10000006 + d.toNat * 2 ^ 18 + a.toNat * 2 ^ 12 + b.toNat * 2 ^ 6 + e * 2 ^ 31 = W
  have hp : W / 2 ^ 24 % 2 ^ 7 = 16 := by omega
  have hs : W / 2 ^ 0 % 2 ^ 6 = 6 := by omega
  have hm : main10 h W = .ok ⟨true, .sor h (bitsAt W 18 6) (bitsAt W 12 6) (bitsAt W 6 6)⟩ := by
    unfold main10; rw [hs]; rfl
  rw [Words.table10 h W hp]
  rw [hm, bitsAt_eq d W 18 (by omega), bitsAt_eq a W 12 (by omega), bitsAt_eq b W 6 (by omega)]

theorem Words.sxor (h : Hdr) (d : BitVec 6) (a : BitVec 6) (b : BitVec 6) : Words.Statement (.sxor h d a b) := by
  intro h' w hw _ e he
  obtain ⟨rfl, rfl⟩ := Prod.mk.inj (Option.some.inj hw)
  have := d.isLt
  have := a.isLt
  have := b.isLt
  simp only [put]
  refine ⟨by omega, ?_⟩
  generalize hW : 0x10000007 + d.toNat * 2 ^ 18 + a.toNat * 2 ^ 12 + b.toNat * 2 ^ 6 + e * 2 ^ 31 = W
  have hp : W / 2 ^ 24 % 2 ^ 7 = 16 := by omega
  have hs : W / 2 ^ 0 % 2 ^ 6 = 7 := by omega
  have hm : main10 h W = .ok ⟨true, .sxor h (bitsAt W 18 6) (bitsAt W 12 6) (bitsAt W 6 6)⟩ := by
    unfold main10; rw [hs]; rfl
  rw [Words.table10 h W hp]
  rw [hm, bitsAt_eq d W 18 (by omega), bitsAt_eq a W 12 (by omega), bitsAt_eq b W 6 (by omega)]

theorem Words.sandn (h : Hdr) (d : BitVec 6) (a : BitVec 6) (b : BitVec 6) : Words.Statement (.sandn h d a b) := by
  intro h' w hw _ e he
  obtain ⟨rfl, rfl⟩ := Prod.mk.inj (Option.some.inj hw)
  have := d.isLt
  have := a.isLt
  have := b.isLt
  simp only [put]
  refine ⟨by omega, ?_⟩
  generalize hW : 0x10000008 + d.toNat * 2 ^ 18 + a.toNat * 2 ^ 12 + b.toNat * 2 ^ 6 + e * 2 ^ 31 = W
  have hp : W / 2 ^ 24 % 2 ^ 7 = 16 := by omega
  have hs : W / 2 ^ 0 % 2 ^ 6 = 8 := by omega
  have hm : main10 h W = .ok ⟨true, .sandn h (bitsAt W 18 6) (bitsAt W 12 6) (bitsAt W 6 6)⟩ := by
    unfold main10; rw [hs]; rfl
  rw [Words.table10 h W hp]
  rw [hm, bitsAt_eq d W 18 (by omega), bitsAt_eq a W 12 (by omega), bitsAt_eq b W 6 (by omega)]

theorem Words.sshl (h : Hdr) (d : BitVec 6) (a : BitVec 6) (b : BitVec 6) : Words.Statement (.sshl h d a b) := by
  intro h' w hw _ e he
  obtain ⟨rfl, rfl⟩ := Prod.mk.inj (Option.some.inj hw)
  have := d.isLt
  have := a.isLt
  have := b.isLt
  simp only [put]
  refine ⟨by omega, ?_⟩
  generalize hW : 0x10000009 + d.toNat * 2 ^ 18 + a.toNat * 2 ^ 12 + b.toNat * 2 ^ 6 + e * 2 ^ 31 = W
  have hp : W / 2 ^ 24 % 2 ^ 7 = 16 := by omega
  have hs : W / 2 ^ 0 % 2 ^ 6 = 9 := by omega
  have hm : main10 h W = .ok ⟨true, .sshl h (bitsAt W 18 6) (bitsAt W 12 6) (bitsAt W 6 6)⟩ := by
    unfold main10; rw [hs]; rfl
  rw [Words.table10 h W hp]
  rw [hm, bitsAt_eq d W 18 (by omega), bitsAt_eq a W 12 (by omega), bitsAt_eq b W 6 (by omega)]

theorem Words.sshrN (h : Hdr) (d : BitVec 6) (a : BitVec 6) (b : BitVec 6) : Words.Statement (.sshrN h d a b) := by
  intro h' w hw _ e he
  obtain ⟨rfl, rfl⟩ := Prod.mk.inj (Option.some.inj hw)
  have := d.isLt
  have := a.isLt
  have := b.isLt
  simp only [put]
  refine ⟨by omega, ?_⟩
  generalize hW : 0x1000000A + d.toNat * 2 ^ 18 + a.toNat * 2 ^ 12 + b.toNat * 2 ^ 6 + e * 2 ^ 31 = W
  have hp : W / 2 ^ 24 % 2 ^ 7 = 16 := by omega
  have hs : W / 2 ^ 0 % 2 ^ 6 = 10 := by omega
  have hm : main10 h W = .ok ⟨true, .sshrN h (bitsAt W 18 6) (bitsAt W 12 6) (bitsAt W 6 6)⟩ := by
    unfold main10; rw [hs]; rfl
  rw [Words.table10 h W hp]
  rw [hm, bitsAt_eq d W 18 (by omega), bitsAt_eq a W 12 (by omega), bitsAt_eq b W 6 (by omega)]

theorem Words.sshrI (h : Hdr) (d : BitVec 6) (a : BitVec 6) (b : BitVec 6) : Words.Statement (.sshrI h d a b) := by
  intro h' w hw _ e he
  obtain ⟨rfl, rfl⟩ := Prod.mk.inj (Option.some.inj hw)
  have := d.isLt
  have := a.isLt
  have := b.isLt
  simp only [put]
  refine ⟨by omega, ?_⟩
  generalize hW : 0x1000000B + d.toNat * 2 ^ 18 + a.toNat * 2 ^ 12 + b.toNat * 2 ^ 6 + e * 2 ^ 31 = W
  have hp : W / 2 ^ 24 % 2 ^ 7 = 16 := by omega
  have hs : W / 2 ^ 0 % 2 ^ 6 = 11 := by omega
  have hm : main10 h W = .ok ⟨true, .sshrI h (bitsAt W 18 6) (bitsAt W 12 6) (bitsAt W 6 6)⟩ := by
    unfold main10; rw [hs]; rfl
  rw [Words.table10 h W hp]
  rw [hm, bitsAt_eq d W 18 (by omega), bitsAt_eq a W 12 (by omega), bitsAt_eq b W 6 (by omega)]

theorem Words.sminI (h : Hdr) (d : BitVec 6) (a : BitVec 6) (b : BitVec 6) : Words.Statement (.sminI h d a b) := by
  intro h' w hw _ e he
  obtain ⟨rfl, rfl⟩ := Prod.mk.inj (Option.some.inj hw)
  have := d.isLt
  have := a.isLt
  have := b.isLt
  simp only [put]
  refine ⟨by omega, ?_⟩
  generalize hW : 0x1000000C + d.toNat * 2 ^ 18 + a.toNat * 2 ^ 12 + b.toNat * 2 ^ 6 + e * 2 ^ 31 = W
  have hp : W / 2 ^ 24 % 2 ^ 7 = 16 := by omega
  have hs : W / 2 ^ 0 % 2 ^ 6 = 12 := by omega
  have hm : main10 h W = .ok ⟨true, .sminI h (bitsAt W 18 6) (bitsAt W 12 6) (bitsAt W 6 6)⟩ := by
    unfold main10; rw [hs]; rfl
  rw [Words.table10 h W hp]
  rw [hm, bitsAt_eq d W 18 (by omega), bitsAt_eq a W 12 (by omega), bitsAt_eq b W 6 (by omega)]

theorem Words.smaxI (h : Hdr) (d : BitVec 6) (a : BitVec 6) (b : BitVec 6) : Words.Statement (.smaxI h d a b) := by
  intro h' w hw _ e he
  obtain ⟨rfl, rfl⟩ := Prod.mk.inj (Option.some.inj hw)
  have := d.isLt
  have := a.isLt
  have := b.isLt
  simp only [put]
  refine ⟨by omega, ?_⟩
  generalize hW : 0x1000000D + d.toNat * 2 ^ 18 + a.toNat * 2 ^ 12 + b.toNat * 2 ^ 6 + e * 2 ^ 31 = W
  have hp : W / 2 ^ 24 % 2 ^ 7 = 16 := by omega
  have hs : W / 2 ^ 0 % 2 ^ 6 = 13 := by omega
  have hm : main10 h W = .ok ⟨true, .smaxI h (bitsAt W 18 6) (bitsAt W 12 6) (bitsAt W 6 6)⟩ := by
    unfold main10; rw [hs]; rfl
  rw [Words.table10 h W hp]
  rw [hm, bitsAt_eq d W 18 (by omega), bitsAt_eq a W 12 (by omega), bitsAt_eq b W 6 (by omega)]

theorem Words.sminN (h : Hdr) (d : BitVec 6) (a : BitVec 6) (b : BitVec 6) : Words.Statement (.sminN h d a b) := by
  intro h' w hw _ e he
  obtain ⟨rfl, rfl⟩ := Prod.mk.inj (Option.some.inj hw)
  have := d.isLt
  have := a.isLt
  have := b.isLt
  simp only [put]
  refine ⟨by omega, ?_⟩
  generalize hW : 0x1000000E + d.toNat * 2 ^ 18 + a.toNat * 2 ^ 12 + b.toNat * 2 ^ 6 + e * 2 ^ 31 = W
  have hp : W / 2 ^ 24 % 2 ^ 7 = 16 := by omega
  have hs : W / 2 ^ 0 % 2 ^ 6 = 14 := by omega
  have hm : main10 h W = .ok ⟨true, .sminN h (bitsAt W 18 6) (bitsAt W 12 6) (bitsAt W 6 6)⟩ := by
    unfold main10; rw [hs]; rfl
  rw [Words.table10 h W hp]
  rw [hm, bitsAt_eq d W 18 (by omega), bitsAt_eq a W 12 (by omega), bitsAt_eq b W 6 (by omega)]

theorem Words.smaxN (h : Hdr) (d : BitVec 6) (a : BitVec 6) (b : BitVec 6) : Words.Statement (.smaxN h d a b) := by
  intro h' w hw _ e he
  obtain ⟨rfl, rfl⟩ := Prod.mk.inj (Option.some.inj hw)
  have := d.isLt
  have := a.isLt
  have := b.isLt
  simp only [put]
  refine ⟨by omega, ?_⟩
  generalize hW : 0x1000000F + d.toNat * 2 ^ 18 + a.toNat * 2 ^ 12 + b.toNat * 2 ^ 6 + e * 2 ^ 31 = W
  have hp : W / 2 ^ 24 % 2 ^ 7 = 16 := by omega
  have hs : W / 2 ^ 0 % 2 ^ 6 = 15 := by omega
  have hm : main10 h W = .ok ⟨true, .smaxN h (bitsAt W 18 6) (bitsAt W 12 6) (bitsAt W 6 6)⟩ := by
    unfold main10; rw [hs]; rfl
  rw [Words.table10 h W hp]
  rw [hm, bitsAt_eq d W 18 (by omega), bitsAt_eq a W 12 (by omega), bitsAt_eq b W 6 (by omega)]

theorem Words.sadda (h : Hdr) (d : BitVec 6) (a : BitVec 6) (b : BitVec 6) : Words.Statement (.sadda h d a b) := by
  intro h' w hw _ e he
  obtain ⟨rfl, rfl⟩ := Prod.mk.inj (Option.some.inj hw)
  have := d.isLt
  have := a.isLt
  have := b.isLt
  simp only [put]
  refine ⟨by omega, ?_⟩
  generalize hW : 0x10000010 + d.toNat * 2 ^ 18 + a.toNat * 2 ^ 12 + b.toNat * 2 ^ 6 + e * 2 ^ 31 = W
  have hp : W / 2 ^ 24 % 2 ^ 7 = 16 := by omega
  have hs : W / 2 ^ 0 % 2 ^ 6 = 16 := by omega
  have hm : main10 h W = .ok ⟨true, .sadda h (bitsAt W 18 6) (bitsAt W 12 6) (bitsAt W 6 6)⟩ := by
    unfold main10; rw [hs]; rfl
  rw [Words.table10 h W hp]
  rw [hm, bitsAt_eq d W 18 (by omega), bitsAt_eq a W 12 (by omega), bitsAt_eq b W 6 (by omega)]

theorem Words.smov (h : Hdr) (d : BitVec 6) (a : BitVec 6) : Words.Statement (.smov h d a) := by
  intro h' w hw _ e he
  obtain ⟨rfl, rfl⟩ := Prod.mk.inj (Option.some.inj hw)
  have := d.isLt
  have := a.isLt
  simp only [put]
  refine ⟨by omega, ?_⟩
  generalize hW : 0x10000011 + d.toNat * 2 ^ 18 + a.toNat * 2 ^ 12 + e * 2 ^ 31 = W
  have hp : W / 2 ^ 24 % 2 ^ 7 = 16 := by omega
  have hs : W / 2 ^ 0 % 2 ^ 6 = 17 := by omega
  have hm : main10 h W = .ok ⟨decide (W / 2 ^ 6 % 2 ^ 6 = 0), .smov h (bitsAt W 18 6) (bitsAt W 12 6)⟩ := by
    unfold main10; rw [hs]; rfl
  rw [Words.table10 h W hp]
  rw [hm, decide_eq_true (show W / 2 ^ 6 % 2 ^ 6 = 0 by omega), bitsAt_eq d W 18 (by omega), bitsAt_eq a W 12 (by omega)]

theorem Words.spopc (h : Hdr) (d : BitVec 6) (a : BitVec 6) : Words.Statement (.spopc h d a) := by
  intro h' w hw _ e he
  obtain ⟨rfl, rfl⟩ := Prod.mk.inj (Option.some.inj hw)
  have := d.isLt
  have := a.isLt
  simp only [put]
  refine ⟨by omega, ?_⟩
  generalize hW : 0x10000012 + d.toNat * 2 ^ 18 + a.toNat * 2 ^ 12 + e * 2 ^ 31 = W
  have hp : W / 2 ^ 24 % 2 ^ 7 = 16 := by omega
  have hs : W / 2 ^ 0 % 2 ^ 6 = 18 := by omega
  have hm : main10 h W = .ok ⟨decide (W / 2 ^ 6 % 2 ^ 6 = 0), .spopc h (bitsAt W 18 6) (bitsAt W 12 6)⟩ := by
    unfold main10; rw [hs]; rfl
  rw [Words.table10 h W hp]
  rw [hm, decide_eq_true (show W / 2 ^ 6 % 2 ^ 6 = 0 by omega), bitsAt_eq d W 18 (by omega), bitsAt_eq a W 12 (by omega)]

theorem Words.saddi (h : Hdr) (d : BitVec 6) (a : BitVec 6) (i : BitVec 12) : Words.Statement (.saddi h d a i) := by
  intro h' w hw _ e he
  obtain ⟨rfl, rfl⟩ := Prod.mk.inj (Option.some.inj hw)
  have := d.isLt
  have := a.isLt
  have := i.isLt
  simp only [put]
  refine ⟨by omega, ?_⟩
  generalize hW : 0x11000000 + d.toNat * 2 ^ 18 + a.toNat * 2 ^ 12 + i.toNat * 2 ^ 0 + e * 2 ^ 31 = W
  have hp : W / 2 ^ 24 % 2 ^ 7 = 17 := by omega
  have hm : mainOf h W = .ok ⟨true, .saddi h (bitsAt W 18 6) (bitsAt W 12 6) (bitsAt W 0 12)⟩ := by
    unfold mainOf; rw [hp]; rfl
  rw [hm, bitsAt_eq d W 18 (by omega), bitsAt_eq a W 12 (by omega), bitsAt_eq i W 0 (by omega)]

theorem Words.sshli (h : Hdr) (d : BitVec 6) (a : BitVec 6) (n : BitVec 6) : Words.Statement (.sshli h d a n) := by
  intro h' w hw _ e he
  obtain ⟨rfl, rfl⟩ := Prod.mk.inj (Option.some.inj hw)
  have := d.isLt
  have := a.isLt
  have := n.isLt
  simp only [put]
  refine ⟨by omega, ?_⟩
  generalize hW : 0x12000000 + d.toNat * 2 ^ 18 + a.toNat * 2 ^ 12 + n.toNat * 2 ^ 0 + e * 2 ^ 31 = W
  have hp : W / 2 ^ 24 % 2 ^ 7 = 18 := by omega
  have hm : mainOf h W = .ok ⟨decide (W / 2 ^ 6 % 2 ^ 6 = 0), .sshli h (bitsAt W 18 6) (bitsAt W 12 6) (bitsAt W 0 6)⟩ := by
    unfold mainOf; rw [hp]; rfl
  rw [hm, decide_eq_true (show W / 2 ^ 6 % 2 ^ 6 = 0 by omega), bitsAt_eq d W 18 (by omega), bitsAt_eq a W 12 (by omega), bitsAt_eq n W 0 (by omega)]

theorem Words.sli (h : Hdr) (d : BitVec 6) (i : BitVec 18) : Words.Statement (.sli h d i) := by
  intro h' w hw _ e he
  obtain ⟨rfl, rfl⟩ := Prod.mk.inj (Option.some.inj hw)
  have := d.isLt
  have := i.isLt
  simp only [put]
  refine ⟨by omega, ?_⟩
  generalize hW : 0x13000000 + d.toNat * 2 ^ 18 + i.toNat * 2 ^ 0 + e * 2 ^ 31 = W
  have hp : W / 2 ^ 24 % 2 ^ 7 = 19 := by omega
  have hm : mainOf h W = .ok ⟨true, .sli h (bitsAt W 18 6) (bitsAt W 0 18)⟩ := by
    unfold mainOf; rw [hp]; rfl
  rw [hm, bitsAt_eq d W 18 (by omega), bitsAt_eq i W 0 (by omega)]

theorem Words.scmp (h : Hdr) (p : BitVec 3) (a : BitVec 6) (b : BitVec 6) (c : BitVec 6) : Words.Statement (.scmp h p a b c) := by
  intro h' w hw _ e he
  obtain ⟨rfl, rfl⟩ := Prod.mk.inj (Option.some.inj hw)
  have := p.isLt
  have := a.isLt
  have := b.isLt
  have := c.isLt
  simp only [put]
  refine ⟨by omega, ?_⟩
  generalize hW : 0x14000000 + p.toNat * 2 ^ 21 + a.toNat * 2 ^ 12 + b.toNat * 2 ^ 6 + c.toNat * 2 ^ 0 + e * 2 ^ 31 = W
  have hp : W / 2 ^ 24 % 2 ^ 7 = 20 := by omega
  have hm : mainOf h W = .ok ⟨decide (W / 2 ^ 18 % 2 ^ 3 = 0), .scmp h (bitsAt W 21 3) (bitsAt W 12 6) (bitsAt W 6 6) (bitsAt W 0 6)⟩ := by
    unfold mainOf; rw [hp]; rfl
  rw [hm, decide_eq_true (show W / 2 ^ 18 % 2 ^ 3 = 0 by omega), bitsAt_eq p W 21 (by omega), bitsAt_eq a W 12 (by omega), bitsAt_eq b W 6 (by omega), bitsAt_eq c W 0 (by omega)]

theorem Words.saddai (h : Hdr) (d : BitVec 6) (a : BitVec 6) (i : BitVec 12) : Words.Statement (.saddai h d a i) := by
  intro h' w hw _ e he
  obtain ⟨rfl, rfl⟩ := Prod.mk.inj (Option.some.inj hw)
  have := d.isLt
  have := a.isLt
  have := i.isLt
  simp only [put]
  refine ⟨by omega, ?_⟩
  generalize hW : 0x15000000 + d.toNat * 2 ^ 18 + a.toNat * 2 ^ 12 + i.toNat * 2 ^ 0 + e * 2 ^ 31 = W
  have hp : W / 2 ^ 24 % 2 ^ 7 = 21 := by omega
  have hm : mainOf h W = .ok ⟨true, .saddai h (bitsAt W 18 6) (bitsAt W 12 6) (bitsAt W 0 12)⟩ := by
    unfold mainOf; rw [hp]; rfl
  rw [hm, bitsAt_eq d W 18 (by omega), bitsAt_eq a W 12 (by omega), bitsAt_eq i W 0 (by omega)]

theorem Words.sld (h : Hdr) (d : BitVec 6) (a : BitVec 6) (w : BitVec 3) (i : BitVec 9) : Words.Statement (.sld h d a w i) := by
  intro h' w hw hf e he
  obtain ⟨rfl, rfl⟩ := Prod.mk.inj (Option.some.inj hw)
  have := d.isLt
  have := a.isLt
  have := w.isLt
  have := i.isLt
  have hw6 : w.toNat ≠ 6 := Words.noPointerWidthLoad hf
  simp only [put]
  refine ⟨by omega, ?_⟩
  generalize hW : 0x16000000 + d.toNat * 2 ^ 18 + a.toNat * 2 ^ 12 + w.toNat * 2 ^ 9 + i.toNat * 2 ^ 0 + e * 2 ^ 31 = W
  have hp : W / 2 ^ 24 % 2 ^ 7 = 22 := by omega
  have hm : mainOf h W = .ok ⟨true, .sld h (bitsAt W 18 6) (bitsAt W 12 6) (bitsAt W 9 3) (bitsAt W 0 9)⟩ := by
    rw [Words.primary16 h W hp]; rw [if_neg (by omega)]
  rw [hm, bitsAt_eq d W 18 (by omega), bitsAt_eq a W 12 (by omega), bitsAt_eq w W 9 (by omega), bitsAt_eq i W 0 (by omega)]

theorem Words.sldp (h : Hdr) (d : BitVec 6) (a : BitVec 6) (i : BitVec 9) : Words.Statement (.sldp h d a i) := by
  intro h' w hw _ e he
  obtain ⟨rfl, rfl⟩ := Prod.mk.inj (Option.some.inj hw)
  have := d.isLt
  have := a.isLt
  have := i.isLt
  simp only [put]
  refine ⟨by omega, ?_⟩
  generalize hW : 0x16000C00 + d.toNat * 2 ^ 18 + a.toNat * 2 ^ 12 + i.toNat * 2 ^ 0 + e * 2 ^ 31 = W
  have hp : W / 2 ^ 24 % 2 ^ 7 = 22 := by omega
  have hm : mainOf h W = .ok ⟨true, .sldp h (bitsAt W 18 6) (bitsAt W 12 6) (bitsAt W 0 9)⟩ := by
    rw [Words.primary16 h W hp]; rw [if_pos (by omega)]
  rw [hm, bitsAt_eq d W 18 (by omega), bitsAt_eq a W 12 (by omega), bitsAt_eq i W 0 (by omega)]

theorem Words.sst (h : Hdr) (d : BitVec 6) (a : BitVec 6) (w : BitVec 3) (i : BitVec 9) : Words.Statement (.sst h d a w i) := by
  intro h' w hw hf e he
  obtain ⟨rfl, rfl⟩ := Prod.mk.inj (Option.some.inj hw)
  have := d.isLt
  have := a.isLt
  have := w.isLt
  have := i.isLt
  have hw6 : w.toNat ≠ 6 := Words.noPointerWidthStore hf
  simp only [put]
  refine ⟨by omega, ?_⟩
  generalize hW : 0x17000000 + d.toNat * 2 ^ 18 + a.toNat * 2 ^ 12 + w.toNat * 2 ^ 9 + i.toNat * 2 ^ 0 + e * 2 ^ 31 = W
  have hp : W / 2 ^ 24 % 2 ^ 7 = 23 := by omega
  have hm : mainOf h W = .ok ⟨true, .sst h (bitsAt W 18 6) (bitsAt W 12 6) (bitsAt W 9 3) (bitsAt W 0 9)⟩ := by
    rw [Words.primary17 h W hp]; rw [if_neg (by omega)]
  rw [hm, bitsAt_eq d W 18 (by omega), bitsAt_eq a W 12 (by omega), bitsAt_eq w W 9 (by omega), bitsAt_eq i W 0 (by omega)]

theorem Words.sstp (h : Hdr) (d : BitVec 6) (a : BitVec 6) (i : BitVec 9) : Words.Statement (.sstp h d a i) := by
  intro h' w hw _ e he
  obtain ⟨rfl, rfl⟩ := Prod.mk.inj (Option.some.inj hw)
  have := d.isLt
  have := a.isLt
  have := i.isLt
  simp only [put]
  refine ⟨by omega, ?_⟩
  generalize hW : 0x17000C00 + d.toNat * 2 ^ 18 + a.toNat * 2 ^ 12 + i.toNat * 2 ^ 0 + e * 2 ^ 31 = W
  have hp : W / 2 ^ 24 % 2 ^ 7 = 23 := by omega
  have hm : mainOf h W = .ok ⟨true, .sstp h (bitsAt W 18 6) (bitsAt W 12 6) (bitsAt W 0 9)⟩ := by
    rw [Words.primary17 h W hp]; rw [if_pos (by omega)]
  rw [hm, bitsAt_eq d W 18 (by omega), bitsAt_eq a W 12 (by omega), bitsAt_eq i W 0 (by omega)]

theorem Words.sldparam (h : Hdr) (d : BitVec 6) (w : BitVec 3) (o : BitVec 12) : Words.Statement (.sldparam h d w o) := by
  intro h' w hw _ e he
  obtain ⟨rfl, rfl⟩ := Prod.mk.inj (Option.some.inj hw)
  have := d.isLt
  have := w.isLt
  have := o.isLt
  simp only [put]
  refine ⟨by omega, ?_⟩
  generalize hW : 0x18000000 + d.toNat * 2 ^ 18 + w.toNat * 2 ^ 12 + o.toNat * 2 ^ 0 + e * 2 ^ 31 = W
  have hp : W / 2 ^ 24 % 2 ^ 7 = 24 := by omega
  have hm : mainOf h W = .ok ⟨decide (W / 2 ^ 15 % 2 ^ 3 = 0), .sldparam h (bitsAt W 18 6) (bitsAt W 12 3) (bitsAt W 0 12)⟩ := by
    unfold mainOf; rw [hp]; rfl
  rw [hm, decide_eq_true (show W / 2 ^ 15 % 2 ^ 3 = 0 by omega), bitsAt_eq d W 18 (by omega), bitsAt_eq w W 12 (by omega), bitsAt_eq o W 0 (by omega)]

theorem Words.sfirst (h : Hdr) (d : BitVec 6) (a : BitVec 7) : Words.Statement (.sfirst h d a) := by
  intro h' w hw _ e he
  obtain ⟨rfl, rfl⟩ := Prod.mk.inj (Option.some.inj hw)
  have := d.isLt
  have := a.isLt
  simp only [put]
  refine ⟨by omega, ?_⟩
  generalize hW : 0x19000000 + d.toNat * 2 ^ 18 + a.toNat * 2 ^ 7 + e * 2 ^ 31 = W
  have hp : W / 2 ^ 24 % 2 ^ 7 = 25 := by omega
  have hm : mainOf h W = .ok ⟨decide (W / 2 ^ 0 % 2 ^ 7 = 0) && decide (W / 2 ^ 14 % 2 ^ 4 = 0), .sfirst h (bitsAt W 18 6) (bitsAt W 7 7)⟩ := by
    unfold mainOf; rw [hp]; rfl
  rw [hm, decide_eq_true (show W / 2 ^ 0 % 2 ^ 7 = 0 by omega), decide_eq_true (show W / 2 ^ 14 % 2 ^ 4 = 0 by omega), bitsAt_eq d W 18 (by omega), bitsAt_eq a W 7 (by omega)]
  rfl

theorem Words.iadd (h : Hdr) (g : BitVec 3) (d : BitVec 7) (a : BitVec 7) (b : BitVec 7) : Words.Statement (.iadd h g d a b) := by
  intro h' w hw _ e he
  obtain ⟨rfl, rfl⟩ := Prod.mk.inj (Option.some.inj hw)
  refine ⟨Words.vectorLt (K := 32) (g := g) (d := d) (a := a) (b := b) (by decide), ?_⟩
  generalize hW : put 0 b (put 7 a (put 14 d (put 21 g 0x20000000))) + e * 2 ^ 31 = W
  obtain ⟨hp, h1, h2, h3, h4⟩ := Words.vector (K := 32) (by decide) hW
  have hm : mainOf h W = .ok ⟨true, .iadd h (bitsAt W 21 3) (bitsAt W 14 7) (bitsAt W 7 7) (bitsAt W 0 7)⟩ := by
    unfold mainOf; rw [hp]; rfl
  rw [hm, h1, h2, h3, h4]

theorem Words.isub (h : Hdr) (g : BitVec 3) (d : BitVec 7) (a : BitVec 7) (b : BitVec 7) : Words.Statement (.isub h g d a b) := by
  intro h' w hw _ e he
  obtain ⟨rfl, rfl⟩ := Prod.mk.inj (Option.some.inj hw)
  refine ⟨Words.vectorLt (K := 33) (g := g) (d := d) (a := a) (b := b) (by decide), ?_⟩
  generalize hW : put 0 b (put 7 a (put 14 d (put 21 g 0x21000000))) + e * 2 ^ 31 = W
  obtain ⟨hp, h1, h2, h3, h4⟩ := Words.vector (K := 33) (by decide) hW
  have hm : mainOf h W = .ok ⟨true, .isub h (bitsAt W 21 3) (bitsAt W 14 7) (bitsAt W 7 7) (bitsAt W 0 7)⟩ := by
    unfold mainOf; rw [hp]; rfl
  rw [hm, h1, h2, h3, h4]

theorem Words.imulLo (h : Hdr) (g : BitVec 3) (d : BitVec 7) (a : BitVec 7) (b : BitVec 7) : Words.Statement (.imulLo h g d a b) := by
  intro h' w hw _ e he
  obtain ⟨rfl, rfl⟩ := Prod.mk.inj (Option.some.inj hw)
  refine ⟨Words.vectorLt (K := 34) (g := g) (d := d) (a := a) (b := b) (by decide), ?_⟩
  generalize hW : put 0 b (put 7 a (put 14 d (put 21 g 0x22000000))) + e * 2 ^ 31 = W
  obtain ⟨hp, h1, h2, h3, h4⟩ := Words.vector (K := 34) (by decide) hW
  have hm : mainOf h W = .ok ⟨true, .imulLo h (bitsAt W 21 3) (bitsAt W 14 7) (bitsAt W 7 7) (bitsAt W 0 7)⟩ := by
    unfold mainOf; rw [hp]; rfl
  rw [hm, h1, h2, h3, h4]

theorem Words.imulhI32 (h : Hdr) (g : BitVec 3) (d : BitVec 7) (a : BitVec 7) (b : BitVec 7) : Words.Statement (.imulhI32 h g d a b) := by
  intro h' w hw _ e he
  obtain ⟨rfl, rfl⟩ := Prod.mk.inj (Option.some.inj hw)
  refine ⟨Words.vectorLt (K := 35) (g := g) (d := d) (a := a) (b := b) (by decide), ?_⟩
  generalize hW : put 0 b (put 7 a (put 14 d (put 21 g 0x23000000))) + e * 2 ^ 31 = W
  obtain ⟨hp, h1, h2, h3, h4⟩ := Words.vector (K := 35) (by decide) hW
  have hm : mainOf h W = .ok ⟨true, .imulhI32 h (bitsAt W 21 3) (bitsAt W 14 7) (bitsAt W 7 7) (bitsAt W 0 7)⟩ := by
    unfold mainOf; rw [hp]; rfl
  rw [hm, h1, h2, h3, h4]

theorem Words.imulhN32 (h : Hdr) (g : BitVec 3) (d : BitVec 7) (a : BitVec 7) (b : BitVec 7) : Words.Statement (.imulhN32 h g d a b) := by
  intro h' w hw _ e he
  obtain ⟨rfl, rfl⟩ := Prod.mk.inj (Option.some.inj hw)
  refine ⟨Words.vectorLt (K := 36) (g := g) (d := d) (a := a) (b := b) (by decide), ?_⟩
  generalize hW : put 0 b (put 7 a (put 14 d (put 21 g 0x24000000))) + e * 2 ^ 31 = W
  obtain ⟨hp, h1, h2, h3, h4⟩ := Words.vector (K := 36) (by decide) hW
  have hm : mainOf h W = .ok ⟨true, .imulhN32 h (bitsAt W 21 3) (bitsAt W 14 7) (bitsAt W 7 7) (bitsAt W 0 7)⟩ := by
    unfold mainOf; rw [hp]; rfl
  rw [hm, h1, h2, h3, h4]

theorem Words.imad (h : Hdr) (g : BitVec 3) (d : BitVec 7) (a : BitVec 7) (b : BitVec 7) : Words.Statement (.imad h g d a b) := by
  intro h' w hw _ e he
  obtain ⟨rfl, rfl⟩ := Prod.mk.inj (Option.some.inj hw)
  refine ⟨Words.vectorLt (K := 37) (g := g) (d := d) (a := a) (b := b) (by decide), ?_⟩
  generalize hW : put 0 b (put 7 a (put 14 d (put 21 g 0x25000000))) + e * 2 ^ 31 = W
  obtain ⟨hp, h1, h2, h3, h4⟩ := Words.vector (K := 37) (by decide) hW
  have hm : mainOf h W = .ok ⟨true, .imad h (bitsAt W 21 3) (bitsAt W 14 7) (bitsAt W 7 7) (bitsAt W 0 7)⟩ := by
    unfold mainOf; rw [hp]; rfl
  rw [hm, h1, h2, h3, h4]

theorem Words.iand (h : Hdr) (g : BitVec 3) (d : BitVec 7) (a : BitVec 7) (b : BitVec 7) : Words.Statement (.iand h g d a b) := by
  intro h' w hw _ e he
  obtain ⟨rfl, rfl⟩ := Prod.mk.inj (Option.some.inj hw)
  refine ⟨Words.vectorLt (K := 38) (g := g) (d := d) (a := a) (b := b) (by decide), ?_⟩
  generalize hW : put 0 b (put 7 a (put 14 d (put 21 g 0x26000000))) + e * 2 ^ 31 = W
  obtain ⟨hp, h1, h2, h3, h4⟩ := Words.vector (K := 38) (by decide) hW
  have hm : mainOf h W = .ok ⟨true, .iand h (bitsAt W 21 3) (bitsAt W 14 7) (bitsAt W 7 7) (bitsAt W 0 7)⟩ := by
    unfold mainOf; rw [hp]; rfl
  rw [hm, h1, h2, h3, h4]

theorem Words.ior (h : Hdr) (g : BitVec 3) (d : BitVec 7) (a : BitVec 7) (b : BitVec 7) : Words.Statement (.ior h g d a b) := by
  intro h' w hw _ e he
  obtain ⟨rfl, rfl⟩ := Prod.mk.inj (Option.some.inj hw)
  refine ⟨Words.vectorLt (K := 39) (g := g) (d := d) (a := a) (b := b) (by decide), ?_⟩
  generalize hW : put 0 b (put 7 a (put 14 d (put 21 g 0x27000000))) + e * 2 ^ 31 = W
  obtain ⟨hp, h1, h2, h3, h4⟩ := Words.vector (K := 39) (by decide) hW
  have hm : mainOf h W = .ok ⟨true, .ior h (bitsAt W 21 3) (bitsAt W 14 7) (bitsAt W 7 7) (bitsAt W 0 7)⟩ := by
    unfold mainOf; rw [hp]; rfl
  rw [hm, h1, h2, h3, h4]

theorem Words.ixor (h : Hdr) (g : BitVec 3) (d : BitVec 7) (a : BitVec 7) (b : BitVec 7) : Words.Statement (.ixor h g d a b) := by
  intro h' w hw _ e he
  obtain ⟨rfl, rfl⟩ := Prod.mk.inj (Option.some.inj hw)
  refine ⟨Words.vectorLt (K := 40) (g := g) (d := d) (a := a) (b := b) (by decide), ?_⟩
  generalize hW : put 0 b (put 7 a (put 14 d (put 21 g 0x28000000))) + e * 2 ^ 31 = W
  obtain ⟨hp, h1, h2, h3, h4⟩ := Words.vector (K := 40) (by decide) hW
  have hm : mainOf h W = .ok ⟨true, .ixor h (bitsAt W 21 3) (bitsAt W 14 7) (bitsAt W 7 7) (bitsAt W 0 7)⟩ := by
    unfold mainOf; rw [hp]; rfl
  rw [hm, h1, h2, h3, h4]

theorem Words.ishl (h : Hdr) (g : BitVec 3) (d : BitVec 7) (a : BitVec 7) (b : BitVec 7) : Words.Statement (.ishl h g d a b) := by
  intro h' w hw _ e he
  obtain ⟨rfl, rfl⟩ := Prod.mk.inj (Option.some.inj hw)
  refine ⟨Words.vectorLt (K := 41) (g := g) (d := d) (a := a) (b := b) (by decide), ?_⟩
  generalize hW : put 0 b (put 7 a (put 14 d (put 21 g 0x29000000))) + e * 2 ^ 31 = W
  obtain ⟨hp, h1, h2, h3, h4⟩ := Words.vector (K := 41) (by decide) hW
  have hm : mainOf h W = .ok ⟨true, .ishl h (bitsAt W 21 3) (bitsAt W 14 7) (bitsAt W 7 7) (bitsAt W 0 7)⟩ := by
    unfold mainOf; rw [hp]; rfl
  rw [hm, h1, h2, h3, h4]

theorem Words.ishrN (h : Hdr) (g : BitVec 3) (d : BitVec 7) (a : BitVec 7) (b : BitVec 7) : Words.Statement (.ishrN h g d a b) := by
  intro h' w hw _ e he
  obtain ⟨rfl, rfl⟩ := Prod.mk.inj (Option.some.inj hw)
  refine ⟨Words.vectorLt (K := 42) (g := g) (d := d) (a := a) (b := b) (by decide), ?_⟩
  generalize hW : put 0 b (put 7 a (put 14 d (put 21 g 0x2a000000))) + e * 2 ^ 31 = W
  obtain ⟨hp, h1, h2, h3, h4⟩ := Words.vector (K := 42) (by decide) hW
  have hm : mainOf h W = .ok ⟨true, .ishrN h (bitsAt W 21 3) (bitsAt W 14 7) (bitsAt W 7 7) (bitsAt W 0 7)⟩ := by
    unfold mainOf; rw [hp]; rfl
  rw [hm, h1, h2, h3, h4]

theorem Words.ishrI (h : Hdr) (g : BitVec 3) (d : BitVec 7) (a : BitVec 7) (b : BitVec 7) : Words.Statement (.ishrI h g d a b) := by
  intro h' w hw _ e he
  obtain ⟨rfl, rfl⟩ := Prod.mk.inj (Option.some.inj hw)
  refine ⟨Words.vectorLt (K := 43) (g := g) (d := d) (a := a) (b := b) (by decide), ?_⟩
  generalize hW : put 0 b (put 7 a (put 14 d (put 21 g 0x2b000000))) + e * 2 ^ 31 = W
  obtain ⟨hp, h1, h2, h3, h4⟩ := Words.vector (K := 43) (by decide) hW
  have hm : mainOf h W = .ok ⟨true, .ishrI h (bitsAt W 21 3) (bitsAt W 14 7) (bitsAt W 7 7) (bitsAt W 0 7)⟩ := by
    unfold mainOf; rw [hp]; rfl
  rw [hm, h1, h2, h3, h4]

theorem Words.iminI32 (h : Hdr) (g : BitVec 3) (d : BitVec 7) (a : BitVec 7) (b : BitVec 7) : Words.Statement (.iminI32 h g d a b) := by
  intro h' w hw _ e he
  obtain ⟨rfl, rfl⟩ := Prod.mk.inj (Option.some.inj hw)
  refine ⟨Words.vectorLt (K := 44) (g := g) (d := d) (a := a) (b := b) (by decide), ?_⟩
  generalize hW : put 0 b (put 7 a (put 14 d (put 21 g 0x2c000000))) + e * 2 ^ 31 = W
  obtain ⟨hp, h1, h2, h3, h4⟩ := Words.vector (K := 44) (by decide) hW
  have hm : mainOf h W = .ok ⟨true, .iminI32 h (bitsAt W 21 3) (bitsAt W 14 7) (bitsAt W 7 7) (bitsAt W 0 7)⟩ := by
    unfold mainOf; rw [hp]; rfl
  rw [hm, h1, h2, h3, h4]

theorem Words.imaxI32 (h : Hdr) (g : BitVec 3) (d : BitVec 7) (a : BitVec 7) (b : BitVec 7) : Words.Statement (.imaxI32 h g d a b) := by
  intro h' w hw _ e he
  obtain ⟨rfl, rfl⟩ := Prod.mk.inj (Option.some.inj hw)
  refine ⟨Words.vectorLt (K := 45) (g := g) (d := d) (a := a) (b := b) (by decide), ?_⟩
  generalize hW : put 0 b (put 7 a (put 14 d (put 21 g 0x2d000000))) + e * 2 ^ 31 = W
  obtain ⟨hp, h1, h2, h3, h4⟩ := Words.vector (K := 45) (by decide) hW
  have hm : mainOf h W = .ok ⟨true, .imaxI32 h (bitsAt W 21 3) (bitsAt W 14 7) (bitsAt W 7 7) (bitsAt W 0 7)⟩ := by
    unfold mainOf; rw [hp]; rfl
  rw [hm, h1, h2, h3, h4]

theorem Words.iminN32 (h : Hdr) (g : BitVec 3) (d : BitVec 7) (a : BitVec 7) (b : BitVec 7) : Words.Statement (.iminN32 h g d a b) := by
  intro h' w hw _ e he
  obtain ⟨rfl, rfl⟩ := Prod.mk.inj (Option.some.inj hw)
  refine ⟨Words.vectorLt (K := 46) (g := g) (d := d) (a := a) (b := b) (by decide), ?_⟩
  generalize hW : put 0 b (put 7 a (put 14 d (put 21 g 0x2e000000))) + e * 2 ^ 31 = W
  obtain ⟨hp, h1, h2, h3, h4⟩ := Words.vector (K := 46) (by decide) hW
  have hm : mainOf h W = .ok ⟨true, .iminN32 h (bitsAt W 21 3) (bitsAt W 14 7) (bitsAt W 7 7) (bitsAt W 0 7)⟩ := by
    unfold mainOf; rw [hp]; rfl
  rw [hm, h1, h2, h3, h4]

theorem Words.imaxN32 (h : Hdr) (g : BitVec 3) (d : BitVec 7) (a : BitVec 7) (b : BitVec 7) : Words.Statement (.imaxN32 h g d a b) := by
  intro h' w hw _ e he
  obtain ⟨rfl, rfl⟩ := Prod.mk.inj (Option.some.inj hw)
  refine ⟨Words.vectorLt (K := 47) (g := g) (d := d) (a := a) (b := b) (by decide), ?_⟩
  generalize hW : put 0 b (put 7 a (put 14 d (put 21 g 0x2f000000))) + e * 2 ^ 31 = W
  obtain ⟨hp, h1, h2, h3, h4⟩ := Words.vector (K := 47) (by decide) hW
  have hm : mainOf h W = .ok ⟨true, .imaxN32 h (bitsAt W 21 3) (bitsAt W 14 7) (bitsAt W 7 7) (bitsAt W 0 7)⟩ := by
    unfold mainOf; rw [hp]; rfl
  rw [hm, h1, h2, h3, h4]

theorem Words.iadd64 (h : Hdr) (g : BitVec 3) (d : BitVec 7) (a : BitVec 7) (b : BitVec 7) : Words.Statement (.iadd64 h g d a b) := by
  intro h' w hw _ e he
  obtain ⟨rfl, rfl⟩ := Prod.mk.inj (Option.some.inj hw)
  refine ⟨Words.vectorLt (K := 48) (g := g) (d := d) (a := a) (b := b) (by decide), ?_⟩
  generalize hW : put 0 b (put 7 a (put 14 d (put 21 g 0x30000000))) + e * 2 ^ 31 = W
  obtain ⟨hp, h1, h2, h3, h4⟩ := Words.vector (K := 48) (by decide) hW
  have hm : mainOf h W = .ok ⟨true, .iadd64 h (bitsAt W 21 3) (bitsAt W 14 7) (bitsAt W 7 7) (bitsAt W 0 7)⟩ := by
    unfold mainOf; rw [hp]; rfl
  rw [hm, h1, h2, h3, h4]

theorem Words.imadw (h : Hdr) (g : BitVec 3) (d : BitVec 7) (a : BitVec 7) (b : BitVec 7) : Words.Statement (.imadw h g d a b) := by
  intro h' w hw _ e he
  obtain ⟨rfl, rfl⟩ := Prod.mk.inj (Option.some.inj hw)
  refine ⟨Words.vectorLt (K := 49) (g := g) (d := d) (a := a) (b := b) (by decide), ?_⟩
  generalize hW : put 0 b (put 7 a (put 14 d (put 21 g 0x31000000))) + e * 2 ^ 31 = W
  obtain ⟨hp, h1, h2, h3, h4⟩ := Words.vector (K := 49) (by decide) hW
  have hm : mainOf h W = .ok ⟨true, .imadw h (bitsAt W 21 3) (bitsAt W 14 7) (bitsAt W 7 7) (bitsAt W 0 7)⟩ := by
    unfold mainOf; rw [hp]; rfl
  rw [hm, h1, h2, h3, h4]

theorem Words.icmp (h : Hdr) (g : BitVec 3) (p : BitVec 3) (c : BitVec 4) (a : BitVec 7) (b : BitVec 7) : Words.Statement (.icmp h g p c a b) := by
  intro h' w hw _ e he
  obtain ⟨rfl, rfl⟩ := Prod.mk.inj (Option.some.inj hw)
  have := g.isLt
  have := p.isLt
  have := c.isLt
  have := a.isLt
  have := b.isLt
  simp only [put]
  refine ⟨by omega, ?_⟩
  generalize hW : 0x32000000 + g.toNat * 2 ^ 21 + p.toNat * 2 ^ 18 + c.toNat * 2 ^ 14 + a.toNat * 2 ^ 7 + b.toNat * 2 ^ 0 + e * 2 ^ 31 = W
  have hp : W / 2 ^ 24 % 2 ^ 7 = 50 := by omega
  have hm : mainOf h W = .ok ⟨true, .icmp h (bitsAt W 21 3) (bitsAt W 18 3) (bitsAt W 14 4) (bitsAt W 7 7) (bitsAt W 0 7)⟩ := by
    unfold mainOf; rw [hp]; rfl
  rw [hm, bitsAt_eq g W 21 (by omega), bitsAt_eq p W 18 (by omega), bitsAt_eq c W 14 (by omega), bitsAt_eq a W 7 (by omega), bitsAt_eq b W 0 (by omega)]

theorem Words.isel (h : Hdr) (s : BitVec 3) (d : BitVec 7) (a : BitVec 7) (b : BitVec 7) : Words.Statement (.isel h s d a b) := by
  intro h' w hw _ e he
  obtain ⟨rfl, rfl⟩ := Prod.mk.inj (Option.some.inj hw)
  refine ⟨Words.vectorLt (K := 51) (g := s) (d := d) (a := a) (b := b) (by decide), ?_⟩
  generalize hW : put 0 b (put 7 a (put 14 d (put 21 s 0x33000000))) + e * 2 ^ 31 = W
  obtain ⟨hp, h1, h2, h3, h4⟩ := Words.vector (K := 51) (by decide) hW
  have hm : mainOf h W = .ok ⟨true, .isel h (bitsAt W 21 3) (bitsAt W 14 7) (bitsAt W 7 7) (bitsAt W 0 7)⟩ := by
    unfold mainOf; rw [hp]; rfl
  rw [hm, h1, h2, h3, h4]

theorem Words.ibit (h : Hdr) (g : BitVec 3) (d : BitVec 7) (a : BitVec 7) (f : BitVec 7) : Words.Statement (.ibit h g d a f) := by
  intro h' w hw _ e he
  obtain ⟨rfl, rfl⟩ := Prod.mk.inj (Option.some.inj hw)
  refine ⟨Words.vectorLt (K := 52) (g := g) (d := d) (a := a) (b := f) (by decide), ?_⟩
  generalize hW : put 0 f (put 7 a (put 14 d (put 21 g 0x34000000))) + e * 2 ^ 31 = W
  obtain ⟨hp, h1, h2, h3, h4⟩ := Words.vector (K := 52) (by decide) hW
  have hm : mainOf h W = .ok ⟨true, .ibit h (bitsAt W 21 3) (bitsAt W 14 7) (bitsAt W 7 7) (bitsAt W 0 7)⟩ := by
    unfold mainOf; rw [hp]; rfl
  rw [hm, h1, h2, h3, h4]

theorem Words.ibfe (h : Hdr) (g : BitVec 3) (d : BitVec 7) (a : BitVec 7) (b : BitVec 7) : Words.Statement (.ibfe h g d a b) := by
  intro h' w hw _ e he
  obtain ⟨rfl, rfl⟩ := Prod.mk.inj (Option.some.inj hw)
  refine ⟨Words.vectorLt (K := 53) (g := g) (d := d) (a := a) (b := b) (by decide), ?_⟩
  generalize hW : put 0 b (put 7 a (put 14 d (put 21 g 0x35000000))) + e * 2 ^ 31 = W
  obtain ⟨hp, h1, h2, h3, h4⟩ := Words.vector (K := 53) (by decide) hW
  have hm : mainOf h W = .ok ⟨true, .ibfe h (bitsAt W 21 3) (bitsAt W 14 7) (bitsAt W 7 7) (bitsAt W 0 7)⟩ := by
    unfold mainOf; rw [hp]; rfl
  rw [hm, h1, h2, h3, h4]

theorem Words.ibfi (h : Hdr) (g : BitVec 3) (d : BitVec 7) (a : BitVec 7) (b : BitVec 7) : Words.Statement (.ibfi h g d a b) := by
  intro h' w hw _ e he
  obtain ⟨rfl, rfl⟩ := Prod.mk.inj (Option.some.inj hw)
  refine ⟨Words.vectorLt (K := 54) (g := g) (d := d) (a := a) (b := b) (by decide), ?_⟩
  generalize hW : put 0 b (put 7 a (put 14 d (put 21 g 0x36000000))) + e * 2 ^ 31 = W
  obtain ⟨hp, h1, h2, h3, h4⟩ := Words.vector (K := 54) (by decide) hW
  have hm : mainOf h W = .ok ⟨true, .ibfi h (bitsAt W 21 3) (bitsAt W 14 7) (bitsAt W 7 7) (bitsAt W 0 7)⟩ := by
    unfold mainOf; rw [hp]; rfl
  rw [hm, h1, h2, h3, h4]

theorem Words.idivI32 (h : Hdr) (g : BitVec 3) (d : BitVec 7) (a : BitVec 7) (b : BitVec 7) : Words.Statement (.idivI32 h g d a b) := by
  intro h' w hw _ e he
  obtain ⟨rfl, rfl⟩ := Prod.mk.inj (Option.some.inj hw)
  refine ⟨Words.vectorLt (K := 55) (g := g) (d := d) (a := a) (b := b) (by decide), ?_⟩
  generalize hW : put 0 b (put 7 a (put 14 d (put 21 g 0x37000000))) + e * 2 ^ 31 = W
  obtain ⟨hp, h1, h2, h3, h4⟩ := Words.vector (K := 55) (by decide) hW
  have hm : mainOf h W = .ok ⟨true, .idivI32 h (bitsAt W 21 3) (bitsAt W 14 7) (bitsAt W 7 7) (bitsAt W 0 7)⟩ := by
    unfold mainOf; rw [hp]; rfl
  rw [hm, h1, h2, h3, h4]

theorem Words.idivN32 (h : Hdr) (g : BitVec 3) (d : BitVec 7) (a : BitVec 7) (b : BitVec 7) : Words.Statement (.idivN32 h g d a b) := by
  intro h' w hw _ e he
  obtain ⟨rfl, rfl⟩ := Prod.mk.inj (Option.some.inj hw)
  refine ⟨Words.vectorLt (K := 56) (g := g) (d := d) (a := a) (b := b) (by decide), ?_⟩
  generalize hW : put 0 b (put 7 a (put 14 d (put 21 g 0x38000000))) + e * 2 ^ 31 = W
  obtain ⟨hp, h1, h2, h3, h4⟩ := Words.vector (K := 56) (by decide) hW
  have hm : mainOf h W = .ok ⟨true, .idivN32 h (bitsAt W 21 3) (bitsAt W 14 7) (bitsAt W 7 7) (bitsAt W 0 7)⟩ := by
    unfold mainOf; rw [hp]; rfl
  rw [hm, h1, h2, h3, h4]

theorem Words.iremI32 (h : Hdr) (g : BitVec 3) (d : BitVec 7) (a : BitVec 7) (b : BitVec 7) : Words.Statement (.iremI32 h g d a b) := by
  intro h' w hw _ e he
  obtain ⟨rfl, rfl⟩ := Prod.mk.inj (Option.some.inj hw)
  refine ⟨Words.vectorLt (K := 57) (g := g) (d := d) (a := a) (b := b) (by decide), ?_⟩
  generalize hW : put 0 b (put 7 a (put 14 d (put 21 g 0x39000000))) + e * 2 ^ 31 = W
  obtain ⟨hp, h1, h2, h3, h4⟩ := Words.vector (K := 57) (by decide) hW
  have hm : mainOf h W = .ok ⟨true, .iremI32 h (bitsAt W 21 3) (bitsAt W 14 7) (bitsAt W 7 7) (bitsAt W 0 7)⟩ := by
    unfold mainOf; rw [hp]; rfl
  rw [hm, h1, h2, h3, h4]

theorem Words.iremN32 (h : Hdr) (g : BitVec 3) (d : BitVec 7) (a : BitVec 7) (b : BitVec 7) : Words.Statement (.iremN32 h g d a b) := by
  intro h' w hw _ e he
  obtain ⟨rfl, rfl⟩ := Prod.mk.inj (Option.some.inj hw)
  refine ⟨Words.vectorLt (K := 58) (g := g) (d := d) (a := a) (b := b) (by decide), ?_⟩
  generalize hW : put 0 b (put 7 a (put 14 d (put 21 g 0x3a000000))) + e * 2 ^ 31 = W
  obtain ⟨hp, h1, h2, h3, h4⟩ := Words.vector (K := 58) (by decide) hW
  have hm : mainOf h W = .ok ⟨true, .iremN32 h (bitsAt W 21 3) (bitsAt W 14 7) (bitsAt W 7 7) (bitsAt W 0 7)⟩ := by
    unfold mainOf; rw [hp]; rfl
  rw [hm, h1, h2, h3, h4]

theorem Words.iaddi (h : Hdr) (g : BitVec 3) (d : BitVec 7) (a : BitVec 7) (i : BitVec 7) : Words.Statement (.iaddi h g d a i) := by
  intro h' w hw _ e he
  obtain ⟨rfl, rfl⟩ := Prod.mk.inj (Option.some.inj hw)
  refine ⟨Words.vectorLt (K := 59) (g := g) (d := d) (a := a) (b := i) (by decide), ?_⟩
  generalize hW : put 0 i (put 7 a (put 14 d (put 21 g 0x3b000000))) + e * 2 ^ 31 = W
  obtain ⟨hp, h1, h2, h3, h4⟩ := Words.vector (K := 59) (by decide) hW
  have hm : mainOf h W = .ok ⟨true, .iaddi h (bitsAt W 21 3) (bitsAt W 14 7) (bitsAt W 7 7) (bitsAt W 0 7)⟩ := by
    unfold mainOf; rw [hp]; rfl
  rw [hm, h1, h2, h3, h4]

theorem Words.ishli (h : Hdr) (g : BitVec 3) (d : BitVec 7) (a : BitVec 7) (n : BitVec 5) : Words.Statement (.ishli h g d a n) := by
  intro h' w hw _ e he
  obtain ⟨rfl, rfl⟩ := Prod.mk.inj (Option.some.inj hw)
  have := g.isLt
  have := d.isLt
  have := a.isLt
  have := n.isLt
  simp only [put]
  refine ⟨by omega, ?_⟩
  generalize hW : 0x3C000000 + g.toNat * 2 ^ 21 + d.toNat * 2 ^ 14 + a.toNat * 2 ^ 7 + n.toNat * 2 ^ 0 + e * 2 ^ 31 = W
  have hp : W / 2 ^ 24 % 2 ^ 7 = 60 := by omega
  have hs : W / 2 ^ 5 % 2 ^ 2 = 0 := by omega
  have hm : main3C h W = .ok ⟨true, .ishli h (bitsAt W 21 3) (bitsAt W 14 7) (bitsAt W 7 7) (bitsAt W 0 5)⟩ := by
    unfold main3C; rw [hs]; rfl
  rw [Words.table3C h W hp]
  rw [hm, bitsAt_eq g W 21 (by omega), bitsAt_eq d W 14 (by omega), bitsAt_eq a W 7 (by omega), bitsAt_eq n W 0 (by omega)]

theorem Words.ishriN (h : Hdr) (g : BitVec 3) (d : BitVec 7) (a : BitVec 7) (n : BitVec 5) : Words.Statement (.ishriN h g d a n) := by
  intro h' w hw _ e he
  obtain ⟨rfl, rfl⟩ := Prod.mk.inj (Option.some.inj hw)
  have := g.isLt
  have := d.isLt
  have := a.isLt
  have := n.isLt
  simp only [put]
  refine ⟨by omega, ?_⟩
  generalize hW : 0x3C000020 + g.toNat * 2 ^ 21 + d.toNat * 2 ^ 14 + a.toNat * 2 ^ 7 + n.toNat * 2 ^ 0 + e * 2 ^ 31 = W
  have hp : W / 2 ^ 24 % 2 ^ 7 = 60 := by omega
  have hs : W / 2 ^ 5 % 2 ^ 2 = 1 := by omega
  have hm : main3C h W = .ok ⟨true, .ishriN h (bitsAt W 21 3) (bitsAt W 14 7) (bitsAt W 7 7) (bitsAt W 0 5)⟩ := by
    unfold main3C; rw [hs]; rfl
  rw [Words.table3C h W hp]
  rw [hm, bitsAt_eq g W 21 (by omega), bitsAt_eq d W 14 (by omega), bitsAt_eq a W 7 (by omega), bitsAt_eq n W 0 (by omega)]

theorem Words.ishriI (h : Hdr) (g : BitVec 3) (d : BitVec 7) (a : BitVec 7) (n : BitVec 5) : Words.Statement (.ishriI h g d a n) := by
  intro h' w hw _ e he
  obtain ⟨rfl, rfl⟩ := Prod.mk.inj (Option.some.inj hw)
  have := g.isLt
  have := d.isLt
  have := a.isLt
  have := n.isLt
  simp only [put]
  refine ⟨by omega, ?_⟩
  generalize hW : 0x3C000040 + g.toNat * 2 ^ 21 + d.toNat * 2 ^ 14 + a.toNat * 2 ^ 7 + n.toNat * 2 ^ 0 + e * 2 ^ 31 = W
  have hp : W / 2 ^ 24 % 2 ^ 7 = 60 := by omega
  have hs : W / 2 ^ 5 % 2 ^ 2 = 2 := by omega
  have hm : main3C h W = .ok ⟨true, .ishriI h (bitsAt W 21 3) (bitsAt W 14 7) (bitsAt W 7 7) (bitsAt W 0 5)⟩ := by
    unfold main3C; rw [hs]; rfl
  rw [Words.table3C h W hp]
  rw [hm, bitsAt_eq g W 21 (by omega), bitsAt_eq d W 14 (by omega), bitsAt_eq a W 7 (by omega), bitsAt_eq n W 0 (by omega)]

theorem Words.vshfl (h : Hdr) (g : BitVec 3) (d : BitVec 7) (a : BitVec 7) (b : BitVec 7) : Words.Statement (.vshfl h g d a b) := by
  intro h' w hw _ e he
  obtain ⟨rfl, rfl⟩ := Prod.mk.inj (Option.some.inj hw)
  refine ⟨Words.vectorLt (K := 61) (g := g) (d := d) (a := a) (b := b) (by decide), ?_⟩
  generalize hW : put 0 b (put 7 a (put 14 d (put 21 g 0x3d000000))) + e * 2 ^ 31 = W
  obtain ⟨hp, h1, h2, h3, h4⟩ := Words.vector (K := 61) (by decide) hW
  have hm : mainOf h W = .ok ⟨true, .vshfl h (bitsAt W 21 3) (bitsAt W 14 7) (bitsAt W 7 7) (bitsAt W 0 7)⟩ := by
    unfold mainOf; rw [hp]; rfl
  rw [hm, h1, h2, h3, h4]

theorem Words.vfirst (h : Hdr) (g : BitVec 3) (d : BitVec 7) (a : BitVec 7) : Words.Statement (.vfirst h g d a) := by
  intro h' w hw _ e he
  obtain ⟨rfl, rfl⟩ := Prod.mk.inj (Option.some.inj hw)
  have := g.isLt
  have := d.isLt
  have := a.isLt
  simp only [put]
  refine ⟨by omega, ?_⟩
  generalize hW : 0x3E000000 + g.toNat * 2 ^ 21 + d.toNat * 2 ^ 14 + a.toNat * 2 ^ 7 + e * 2 ^ 31 = W
  have hp : W / 2 ^ 24 % 2 ^ 7 = 62 := by omega
  have hm : mainOf h W = .ok ⟨true, .vfirst h (bitsAt W 21 3) (bitsAt W 14 7) (bitsAt W 7 7)⟩ := by
    rw [Words.primary3E h W hp]; rw [if_pos (by omega)]
  rw [hm, bitsAt_eq g W 21 (by omega), bitsAt_eq d W 14 (by omega), bitsAt_eq a W 7 (by omega)]

theorem Words.vbcast (h : Hdr) (g : BitVec 3) (d : BitVec 7) (a : BitVec 7) (n : BitVec 5) : Words.Statement (.vbcast h g d a n) := by
  intro h' w hw _ e he
  obtain ⟨rfl, rfl⟩ := Prod.mk.inj (Option.some.inj hw)
  have := g.isLt
  have := d.isLt
  have := a.isLt
  have := n.isLt
  simp only [put]
  refine ⟨by omega, ?_⟩
  generalize hW : 0x3E000020 + g.toNat * 2 ^ 21 + d.toNat * 2 ^ 14 + a.toNat * 2 ^ 7 + n.toNat * 2 ^ 0 + e * 2 ^ 31 = W
  have hp : W / 2 ^ 24 % 2 ^ 7 = 62 := by omega
  have hm : mainOf h W = .ok ⟨true, .vbcast h (bitsAt W 21 3) (bitsAt W 14 7) (bitsAt W 7 7) (bitsAt W 0 5)⟩ := by
    rw [Words.primary3E h W hp]; rw [if_neg (by omega)]; rw [if_pos (by omega)]
  rw [hm, bitsAt_eq g W 21 (by omega), bitsAt_eq d W 14 (by omega), bitsAt_eq a W 7 (by omega), bitsAt_eq n W 0 (by omega)]

theorem Words.vscan (h : Hdr) (g : BitVec 3) (d : BitVec 7) (a : BitVec 7) (o : BitVec 3) : Words.Statement (.vscan h g d a o) := by
  intro h' w hw _ e he
  obtain ⟨rfl, rfl⟩ := Prod.mk.inj (Option.some.inj hw)
  have := g.isLt
  have := d.isLt
  have := a.isLt
  have := o.isLt
  simp only [put]
  refine ⟨by omega, ?_⟩
  generalize hW : 0x3E000040 + g.toNat * 2 ^ 21 + d.toNat * 2 ^ 14 + a.toNat * 2 ^ 7 + o.toNat * 2 ^ 0 + e * 2 ^ 31 = W
  have hp : W / 2 ^ 24 % 2 ^ 7 = 62 := by omega
  have hm : mainOf h W = .ok ⟨true, .vscan h (bitsAt W 21 3) (bitsAt W 14 7) (bitsAt W 7 7) (bitsAt W 0 3)⟩ := by
    rw [Words.primary3E h W hp]; rw [if_neg (by omega)]; rw [if_neg (by omega)]; rw [if_pos (by omega)]
  rw [hm, bitsAt_eq g W 21 (by omega), bitsAt_eq d W 14 (by omega), bitsAt_eq a W 7 (by omega), bitsAt_eq o W 0 (by omega)]

theorem Words.vred (h : Hdr) (g : BitVec 3) (d : BitVec 7) (a : BitVec 7) (f : BitVec 7) : Words.Statement (.vred h g d a f) := by
  intro h' w hw _ e he
  obtain ⟨rfl, rfl⟩ := Prod.mk.inj (Option.some.inj hw)
  refine ⟨Words.vectorLt (K := 63) (g := g) (d := d) (a := a) (b := f) (by decide), ?_⟩
  generalize hW : put 0 f (put 7 a (put 14 d (put 21 g 0x3f000000))) + e * 2 ^ 31 = W
  obtain ⟨hp, h1, h2, h3, h4⟩ := Words.vector (K := 63) (by decide) hW
  have hm : mainOf h W = .ok ⟨true, .vred h (bitsAt W 21 3) (bitsAt W 14 7) (bitsAt W 7 7) (bitsAt W 0 7)⟩ := by
    unfold mainOf; rw [hp]; rfl
  rw [hm, h1, h2, h3, h4]

theorem Words.faddF32 (h : Hdr) (g : BitVec 3) (d : BitVec 7) (a : BitVec 7) (b : BitVec 7) : Words.Statement (.faddF32 h g d a b) := by
  intro h' w hw _ e he
  obtain ⟨rfl, rfl⟩ := Prod.mk.inj (Option.some.inj hw)
  refine ⟨Words.vectorLt (K := 64) (g := g) (d := d) (a := a) (b := b) (by decide), ?_⟩
  generalize hW : put 0 b (put 7 a (put 14 d (put 21 g 0x40000000))) + e * 2 ^ 31 = W
  obtain ⟨hp, h1, h2, h3, h4⟩ := Words.vector (K := 64) (by decide) hW
  have hm : mainOf h W = .ok ⟨true, .faddF32 h (bitsAt W 21 3) (bitsAt W 14 7) (bitsAt W 7 7) (bitsAt W 0 7)⟩ := by
    unfold mainOf; rw [hp]; rfl
  rw [hm, h1, h2, h3, h4]

theorem Words.fsubF32 (h : Hdr) (g : BitVec 3) (d : BitVec 7) (a : BitVec 7) (b : BitVec 7) : Words.Statement (.fsubF32 h g d a b) := by
  intro h' w hw _ e he
  obtain ⟨rfl, rfl⟩ := Prod.mk.inj (Option.some.inj hw)
  refine ⟨Words.vectorLt (K := 65) (g := g) (d := d) (a := a) (b := b) (by decide), ?_⟩
  generalize hW : put 0 b (put 7 a (put 14 d (put 21 g 0x41000000))) + e * 2 ^ 31 = W
  obtain ⟨hp, h1, h2, h3, h4⟩ := Words.vector (K := 65) (by decide) hW
  have hm : mainOf h W = .ok ⟨true, .fsubF32 h (bitsAt W 21 3) (bitsAt W 14 7) (bitsAt W 7 7) (bitsAt W 0 7)⟩ := by
    unfold mainOf; rw [hp]; rfl
  rw [hm, h1, h2, h3, h4]

theorem Words.fmulF32 (h : Hdr) (g : BitVec 3) (d : BitVec 7) (a : BitVec 7) (b : BitVec 7) : Words.Statement (.fmulF32 h g d a b) := by
  intro h' w hw _ e he
  obtain ⟨rfl, rfl⟩ := Prod.mk.inj (Option.some.inj hw)
  refine ⟨Words.vectorLt (K := 66) (g := g) (d := d) (a := a) (b := b) (by decide), ?_⟩
  generalize hW : put 0 b (put 7 a (put 14 d (put 21 g 0x42000000))) + e * 2 ^ 31 = W
  obtain ⟨hp, h1, h2, h3, h4⟩ := Words.vector (K := 66) (by decide) hW
  have hm : mainOf h W = .ok ⟨true, .fmulF32 h (bitsAt W 21 3) (bitsAt W 14 7) (bitsAt W 7 7) (bitsAt W 0 7)⟩ := by
    unfold mainOf; rw [hp]; rfl
  rw [hm, h1, h2, h3, h4]

theorem Words.ffmaF32 (h : Hdr) (g : BitVec 3) (d : BitVec 7) (a : BitVec 7) (b : BitVec 7) : Words.Statement (.ffmaF32 h g d a b) := by
  intro h' w hw _ e he
  obtain ⟨rfl, rfl⟩ := Prod.mk.inj (Option.some.inj hw)
  refine ⟨Words.vectorLt (K := 67) (g := g) (d := d) (a := a) (b := b) (by decide), ?_⟩
  generalize hW : put 0 b (put 7 a (put 14 d (put 21 g 0x43000000))) + e * 2 ^ 31 = W
  obtain ⟨hp, h1, h2, h3, h4⟩ := Words.vector (K := 67) (by decide) hW
  have hm : mainOf h W = .ok ⟨true, .ffmaF32 h (bitsAt W 21 3) (bitsAt W 14 7) (bitsAt W 7 7) (bitsAt W 0 7)⟩ := by
    unfold mainOf; rw [hp]; rfl
  rw [hm, h1, h2, h3, h4]

theorem Words.fminF32 (h : Hdr) (g : BitVec 3) (d : BitVec 7) (a : BitVec 7) (b : BitVec 7) : Words.Statement (.fminF32 h g d a b) := by
  intro h' w hw _ e he
  obtain ⟨rfl, rfl⟩ := Prod.mk.inj (Option.some.inj hw)
  refine ⟨Words.vectorLt (K := 68) (g := g) (d := d) (a := a) (b := b) (by decide), ?_⟩
  generalize hW : put 0 b (put 7 a (put 14 d (put 21 g 0x44000000))) + e * 2 ^ 31 = W
  obtain ⟨hp, h1, h2, h3, h4⟩ := Words.vector (K := 68) (by decide) hW
  have hm : mainOf h W = .ok ⟨true, .fminF32 h (bitsAt W 21 3) (bitsAt W 14 7) (bitsAt W 7 7) (bitsAt W 0 7)⟩ := by
    unfold mainOf; rw [hp]; rfl
  rw [hm, h1, h2, h3, h4]

theorem Words.fmaxF32 (h : Hdr) (g : BitVec 3) (d : BitVec 7) (a : BitVec 7) (b : BitVec 7) : Words.Statement (.fmaxF32 h g d a b) := by
  intro h' w hw _ e he
  obtain ⟨rfl, rfl⟩ := Prod.mk.inj (Option.some.inj hw)
  refine ⟨Words.vectorLt (K := 69) (g := g) (d := d) (a := a) (b := b) (by decide), ?_⟩
  generalize hW : put 0 b (put 7 a (put 14 d (put 21 g 0x45000000))) + e * 2 ^ 31 = W
  obtain ⟨hp, h1, h2, h3, h4⟩ := Words.vector (K := 69) (by decide) hW
  have hm : mainOf h W = .ok ⟨true, .fmaxF32 h (bitsAt W 21 3) (bitsAt W 14 7) (bitsAt W 7 7) (bitsAt W 0 7)⟩ := by
    unfold mainOf; rw [hp]; rfl
  rw [hm, h1, h2, h3, h4]

theorem Words.fcmpF32 (h : Hdr) (g : BitVec 3) (p : BitVec 3) (c : BitVec 4) (a : BitVec 7) (b : BitVec 7) : Words.Statement (.fcmpF32 h g p c a b) := by
  intro h' w hw _ e he
  obtain ⟨rfl, rfl⟩ := Prod.mk.inj (Option.some.inj hw)
  have := g.isLt
  have := p.isLt
  have := c.isLt
  have := a.isLt
  have := b.isLt
  simp only [put]
  refine ⟨by omega, ?_⟩
  generalize hW : 0x46000000 + g.toNat * 2 ^ 21 + p.toNat * 2 ^ 18 + c.toNat * 2 ^ 14 + a.toNat * 2 ^ 7 + b.toNat * 2 ^ 0 + e * 2 ^ 31 = W
  have hp : W / 2 ^ 24 % 2 ^ 7 = 70 := by omega
  have hm : mainOf h W = .ok ⟨true, .fcmpF32 h (bitsAt W 21 3) (bitsAt W 18 3) (bitsAt W 14 4) (bitsAt W 7 7) (bitsAt W 0 7)⟩ := by
    unfold mainOf; rw [hp]; rfl
  rw [hm, bitsAt_eq g W 21 (by omega), bitsAt_eq p W 18 (by omega), bitsAt_eq c W 14 (by omega), bitsAt_eq a W 7 (by omega), bitsAt_eq b W 0 (by omega)]

theorem Words.ffunF32 (h : Hdr) (g : BitVec 3) (d : BitVec 7) (a : BitVec 7) (f : BitVec 7) : Words.Statement (.ffunF32 h g d a f) := by
  intro h' w hw _ e he
  obtain ⟨rfl, rfl⟩ := Prod.mk.inj (Option.some.inj hw)
  refine ⟨Words.vectorLt (K := 71) (g := g) (d := d) (a := a) (b := f) (by decide), ?_⟩
  generalize hW : put 0 f (put 7 a (put 14 d (put 21 g 0x47000000))) + e * 2 ^ 31 = W
  obtain ⟨hp, h1, h2, h3, h4⟩ := Words.vector (K := 71) (by decide) hW
  have hm : mainOf h W = .ok ⟨true, .ffunF32 h (bitsAt W 21 3) (bitsAt W 14 7) (bitsAt W 7 7) (bitsAt W 0 7)⟩ := by
    unfold mainOf; rw [hp]; rfl
  rw [hm, h1, h2, h3, h4]

theorem Words.fdivF32 (h : Hdr) (g : BitVec 3) (d : BitVec 7) (a : BitVec 7) (b : BitVec 7) : Words.Statement (.fdivF32 h g d a b) := by
  intro h' w hw _ e he
  obtain ⟨rfl, rfl⟩ := Prod.mk.inj (Option.some.inj hw)
  refine ⟨Words.vectorLt (K := 72) (g := g) (d := d) (a := a) (b := b) (by decide), ?_⟩
  generalize hW : put 0 b (put 7 a (put 14 d (put 21 g 0x48000000))) + e * 2 ^ 31 = W
  obtain ⟨hp, h1, h2, h3, h4⟩ := Words.vector (K := 72) (by decide) hW
  have hm : mainOf h W = .ok ⟨true, .fdivF32 h (bitsAt W 21 3) (bitsAt W 14 7) (bitsAt W 7 7) (bitsAt W 0 7)⟩ := by
    unfold mainOf; rw [hp]; rfl
  rw [hm, h1, h2, h3, h4]

theorem Words.faddF64 (h : Hdr) (g : BitVec 3) (d : BitVec 7) (a : BitVec 7) (b : BitVec 7) : Words.Statement (.faddF64 h g d a b) := by
  intro h' w hw _ e he
  obtain ⟨rfl, rfl⟩ := Prod.mk.inj (Option.some.inj hw)
  refine ⟨Words.vectorLt (K := 73) (g := g) (d := d) (a := a) (b := b) (by decide), ?_⟩
  generalize hW : put 0 b (put 7 a (put 14 d (put 21 g 0x49000000))) + e * 2 ^ 31 = W
  obtain ⟨hp, h1, h2, h3, h4⟩ := Words.vector (K := 73) (by decide) hW
  have hm : mainOf h W = .ok ⟨true, .faddF64 h (bitsAt W 21 3) (bitsAt W 14 7) (bitsAt W 7 7) (bitsAt W 0 7)⟩ := by
    unfold mainOf; rw [hp]; rfl
  rw [hm, h1, h2, h3, h4]

theorem Words.fsubF64 (h : Hdr) (g : BitVec 3) (d : BitVec 7) (a : BitVec 7) (b : BitVec 7) : Words.Statement (.fsubF64 h g d a b) := by
  intro h' w hw _ e he
  obtain ⟨rfl, rfl⟩ := Prod.mk.inj (Option.some.inj hw)
  refine ⟨Words.vectorLt (K := 74) (g := g) (d := d) (a := a) (b := b) (by decide), ?_⟩
  generalize hW : put 0 b (put 7 a (put 14 d (put 21 g 0x4a000000))) + e * 2 ^ 31 = W
  obtain ⟨hp, h1, h2, h3, h4⟩ := Words.vector (K := 74) (by decide) hW
  have hm : mainOf h W = .ok ⟨true, .fsubF64 h (bitsAt W 21 3) (bitsAt W 14 7) (bitsAt W 7 7) (bitsAt W 0 7)⟩ := by
    unfold mainOf; rw [hp]; rfl
  rw [hm, h1, h2, h3, h4]

theorem Words.fmulF64 (h : Hdr) (g : BitVec 3) (d : BitVec 7) (a : BitVec 7) (b : BitVec 7) : Words.Statement (.fmulF64 h g d a b) := by
  intro h' w hw _ e he
  obtain ⟨rfl, rfl⟩ := Prod.mk.inj (Option.some.inj hw)
  refine ⟨Words.vectorLt (K := 75) (g := g) (d := d) (a := a) (b := b) (by decide), ?_⟩
  generalize hW : put 0 b (put 7 a (put 14 d (put 21 g 0x4b000000))) + e * 2 ^ 31 = W
  obtain ⟨hp, h1, h2, h3, h4⟩ := Words.vector (K := 75) (by decide) hW
  have hm : mainOf h W = .ok ⟨true, .fmulF64 h (bitsAt W 21 3) (bitsAt W 14 7) (bitsAt W 7 7) (bitsAt W 0 7)⟩ := by
    unfold mainOf; rw [hp]; rfl
  rw [hm, h1, h2, h3, h4]

theorem Words.ffmaF64 (h : Hdr) (g : BitVec 3) (d : BitVec 7) (a : BitVec 7) (b : BitVec 7) : Words.Statement (.ffmaF64 h g d a b) := by
  intro h' w hw _ e he
  obtain ⟨rfl, rfl⟩ := Prod.mk.inj (Option.some.inj hw)
  refine ⟨Words.vectorLt (K := 76) (g := g) (d := d) (a := a) (b := b) (by decide), ?_⟩
  generalize hW : put 0 b (put 7 a (put 14 d (put 21 g 0x4c000000))) + e * 2 ^ 31 = W
  obtain ⟨hp, h1, h2, h3, h4⟩ := Words.vector (K := 76) (by decide) hW
  have hm : mainOf h W = .ok ⟨true, .ffmaF64 h (bitsAt W 21 3) (bitsAt W 14 7) (bitsAt W 7 7) (bitsAt W 0 7)⟩ := by
    unfold mainOf; rw [hp]; rfl
  rw [hm, h1, h2, h3, h4]

theorem Words.fminF64 (h : Hdr) (g : BitVec 3) (d : BitVec 7) (a : BitVec 7) (b : BitVec 7) : Words.Statement (.fminF64 h g d a b) := by
  intro h' w hw _ e he
  obtain ⟨rfl, rfl⟩ := Prod.mk.inj (Option.some.inj hw)
  refine ⟨Words.vectorLt (K := 77) (g := g) (d := d) (a := a) (b := b) (by decide), ?_⟩
  generalize hW : put 0 b (put 7 a (put 14 d (put 21 g 0x4d000000))) + e * 2 ^ 31 = W
  obtain ⟨hp, h1, h2, h3, h4⟩ := Words.vector (K := 77) (by decide) hW
  have hm : mainOf h W = .ok ⟨true, .fminF64 h (bitsAt W 21 3) (bitsAt W 14 7) (bitsAt W 7 7) (bitsAt W 0 7)⟩ := by
    unfold mainOf; rw [hp]; rfl
  rw [hm, h1, h2, h3, h4]

theorem Words.fmaxF64 (h : Hdr) (g : BitVec 3) (d : BitVec 7) (a : BitVec 7) (b : BitVec 7) : Words.Statement (.fmaxF64 h g d a b) := by
  intro h' w hw _ e he
  obtain ⟨rfl, rfl⟩ := Prod.mk.inj (Option.some.inj hw)
  refine ⟨Words.vectorLt (K := 78) (g := g) (d := d) (a := a) (b := b) (by decide), ?_⟩
  generalize hW : put 0 b (put 7 a (put 14 d (put 21 g 0x4e000000))) + e * 2 ^ 31 = W
  obtain ⟨hp, h1, h2, h3, h4⟩ := Words.vector (K := 78) (by decide) hW
  have hm : mainOf h W = .ok ⟨true, .fmaxF64 h (bitsAt W 21 3) (bitsAt W 14 7) (bitsAt W 7 7) (bitsAt W 0 7)⟩ := by
    unfold mainOf; rw [hp]; rfl
  rw [hm, h1, h2, h3, h4]

theorem Words.fcmpF64 (h : Hdr) (g : BitVec 3) (p : BitVec 3) (c : BitVec 4) (a : BitVec 7) (b : BitVec 7) : Words.Statement (.fcmpF64 h g p c a b) := by
  intro h' w hw _ e he
  obtain ⟨rfl, rfl⟩ := Prod.mk.inj (Option.some.inj hw)
  have := g.isLt
  have := p.isLt
  have := c.isLt
  have := a.isLt
  have := b.isLt
  simp only [put]
  refine ⟨by omega, ?_⟩
  generalize hW : 0x4F000000 + g.toNat * 2 ^ 21 + p.toNat * 2 ^ 18 + c.toNat * 2 ^ 14 + a.toNat * 2 ^ 7 + b.toNat * 2 ^ 0 + e * 2 ^ 31 = W
  have hp : W / 2 ^ 24 % 2 ^ 7 = 79 := by omega
  have hm : mainOf h W = .ok ⟨true, .fcmpF64 h (bitsAt W 21 3) (bitsAt W 18 3) (bitsAt W 14 4) (bitsAt W 7 7) (bitsAt W 0 7)⟩ := by
    unfold mainOf; rw [hp]; rfl
  rw [hm, bitsAt_eq g W 21 (by omega), bitsAt_eq p W 18 (by omega), bitsAt_eq c W 14 (by omega), bitsAt_eq a W 7 (by omega), bitsAt_eq b W 0 (by omega)]

theorem Words.ffunF64 (h : Hdr) (g : BitVec 3) (d : BitVec 7) (a : BitVec 7) (f : BitVec 7) : Words.Statement (.ffunF64 h g d a f) := by
  intro h' w hw _ e he
  obtain ⟨rfl, rfl⟩ := Prod.mk.inj (Option.some.inj hw)
  refine ⟨Words.vectorLt (K := 80) (g := g) (d := d) (a := a) (b := f) (by decide), ?_⟩
  generalize hW : put 0 f (put 7 a (put 14 d (put 21 g 0x50000000))) + e * 2 ^ 31 = W
  obtain ⟨hp, h1, h2, h3, h4⟩ := Words.vector (K := 80) (by decide) hW
  have hm : mainOf h W = .ok ⟨true, .ffunF64 h (bitsAt W 21 3) (bitsAt W 14 7) (bitsAt W 7 7) (bitsAt W 0 7)⟩ := by
    unfold mainOf; rw [hp]; rfl
  rw [hm, h1, h2, h3, h4]

theorem Words.fdivF64 (h : Hdr) (g : BitVec 3) (d : BitVec 7) (a : BitVec 7) (b : BitVec 7) : Words.Statement (.fdivF64 h g d a b) := by
  intro h' w hw _ e he
  obtain ⟨rfl, rfl⟩ := Prod.mk.inj (Option.some.inj hw)
  refine ⟨Words.vectorLt (K := 81) (g := g) (d := d) (a := a) (b := b) (by decide), ?_⟩
  generalize hW : put 0 b (put 7 a (put 14 d (put 21 g 0x51000000))) + e * 2 ^ 31 = W
  obtain ⟨hp, h1, h2, h3, h4⟩ := Words.vector (K := 81) (by decide) hW
  have hm : mainOf h W = .ok ⟨true, .fdivF64 h (bitsAt W 21 3) (bitsAt W 14 7) (bitsAt W 7 7) (bitsAt W 0 7)⟩ := by
    unfold mainOf; rw [hp]; rfl
  rw [hm, h1, h2, h3, h4]

theorem Words.faddF16x2 (h : Hdr) (g : BitVec 3) (d : BitVec 7) (a : BitVec 7) (b : BitVec 7) : Words.Statement (.faddF16x2 h g d a b) := by
  intro h' w hw _ e he
  obtain ⟨rfl, rfl⟩ := Prod.mk.inj (Option.some.inj hw)
  refine ⟨Words.vectorLt (K := 82) (g := g) (d := d) (a := a) (b := b) (by decide), ?_⟩
  generalize hW : put 0 b (put 7 a (put 14 d (put 21 g 0x52000000))) + e * 2 ^ 31 = W
  obtain ⟨hp, h1, h2, h3, h4⟩ := Words.vector (K := 82) (by decide) hW
  have hm : mainOf h W = .ok ⟨true, .faddF16x2 h (bitsAt W 21 3) (bitsAt W 14 7) (bitsAt W 7 7) (bitsAt W 0 7)⟩ := by
    unfold mainOf; rw [hp]; rfl
  rw [hm, h1, h2, h3, h4]

theorem Words.fmulF16x2 (h : Hdr) (g : BitVec 3) (d : BitVec 7) (a : BitVec 7) (b : BitVec 7) : Words.Statement (.fmulF16x2 h g d a b) := by
  intro h' w hw _ e he
  obtain ⟨rfl, rfl⟩ := Prod.mk.inj (Option.some.inj hw)
  refine ⟨Words.vectorLt (K := 83) (g := g) (d := d) (a := a) (b := b) (by decide), ?_⟩
  generalize hW : put 0 b (put 7 a (put 14 d (put 21 g 0x53000000))) + e * 2 ^ 31 = W
  obtain ⟨hp, h1, h2, h3, h4⟩ := Words.vector (K := 83) (by decide) hW
  have hm : mainOf h W = .ok ⟨true, .fmulF16x2 h (bitsAt W 21 3) (bitsAt W 14 7) (bitsAt W 7 7) (bitsAt W 0 7)⟩ := by
    unfold mainOf; rw [hp]; rfl
  rw [hm, h1, h2, h3, h4]

theorem Words.ffmaF16x2 (h : Hdr) (g : BitVec 3) (d : BitVec 7) (a : BitVec 7) (b : BitVec 7) : Words.Statement (.ffmaF16x2 h g d a b) := by
  intro h' w hw _ e he
  obtain ⟨rfl, rfl⟩ := Prod.mk.inj (Option.some.inj hw)
  refine ⟨Words.vectorLt (K := 84) (g := g) (d := d) (a := a) (b := b) (by decide), ?_⟩
  generalize hW : put 0 b (put 7 a (put 14 d (put 21 g 0x54000000))) + e * 2 ^ 31 = W
  obtain ⟨hp, h1, h2, h3, h4⟩ := Words.vector (K := 84) (by decide) hW
  have hm : mainOf h W = .ok ⟨true, .ffmaF16x2 h (bitsAt W 21 3) (bitsAt W 14 7) (bitsAt W 7 7) (bitsAt W 0 7)⟩ := by
    unfold mainOf; rw [hp]; rfl
  rw [hm, h1, h2, h3, h4]

theorem Words.faddBf16x2 (h : Hdr) (g : BitVec 3) (d : BitVec 7) (a : BitVec 7) (b : BitVec 7) : Words.Statement (.faddBf16x2 h g d a b) := by
  intro h' w hw _ e he
  obtain ⟨rfl, rfl⟩ := Prod.mk.inj (Option.some.inj hw)
  refine ⟨Words.vectorLt (K := 85) (g := g) (d := d) (a := a) (b := b) (by decide), ?_⟩
  generalize hW : put 0 b (put 7 a (put 14 d (put 21 g 0x55000000))) + e * 2 ^ 31 = W
  obtain ⟨hp, h1, h2, h3, h4⟩ := Words.vector (K := 85) (by decide) hW
  have hm : mainOf h W = .ok ⟨true, .faddBf16x2 h (bitsAt W 21 3) (bitsAt W 14 7) (bitsAt W 7 7) (bitsAt W 0 7)⟩ := by
    unfold mainOf; rw [hp]; rfl
  rw [hm, h1, h2, h3, h4]

theorem Words.fmulBf16x2 (h : Hdr) (g : BitVec 3) (d : BitVec 7) (a : BitVec 7) (b : BitVec 7) : Words.Statement (.fmulBf16x2 h g d a b) := by
  intro h' w hw _ e he
  obtain ⟨rfl, rfl⟩ := Prod.mk.inj (Option.some.inj hw)
  refine ⟨Words.vectorLt (K := 86) (g := g) (d := d) (a := a) (b := b) (by decide), ?_⟩
  generalize hW : put 0 b (put 7 a (put 14 d (put 21 g 0x56000000))) + e * 2 ^ 31 = W
  obtain ⟨hp, h1, h2, h3, h4⟩ := Words.vector (K := 86) (by decide) hW
  have hm : mainOf h W = .ok ⟨true, .fmulBf16x2 h (bitsAt W 21 3) (bitsAt W 14 7) (bitsAt W 7 7) (bitsAt W 0 7)⟩ := by
    unfold mainOf; rw [hp]; rfl
  rw [hm, h1, h2, h3, h4]

theorem Words.ffmaBf16x2 (h : Hdr) (g : BitVec 3) (d : BitVec 7) (a : BitVec 7) (b : BitVec 7) : Words.Statement (.ffmaBf16x2 h g d a b) := by
  intro h' w hw _ e he
  obtain ⟨rfl, rfl⟩ := Prod.mk.inj (Option.some.inj hw)
  refine ⟨Words.vectorLt (K := 87) (g := g) (d := d) (a := a) (b := b) (by decide), ?_⟩
  generalize hW : put 0 b (put 7 a (put 14 d (put 21 g 0x57000000))) + e * 2 ^ 31 = W
  obtain ⟨hp, h1, h2, h3, h4⟩ := Words.vector (K := 87) (by decide) hW
  have hm : mainOf h W = .ok ⟨true, .ffmaBf16x2 h (bitsAt W 21 3) (bitsAt W 14 7) (bitsAt W 7 7) (bitsAt W 0 7)⟩ := by
    unfold mainOf; rw [hp]; rfl
  rw [hm, h1, h2, h3, h4]

theorem Words.cvt (h : Hdr) (g : BitVec 3) (d : BitVec 7) (a : BitVec 7) (f : BitVec 7) : Words.Statement (.cvt h g d a f) := by
  intro h' w hw _ e he
  obtain ⟨rfl, rfl⟩ := Prod.mk.inj (Option.some.inj hw)
  refine ⟨Words.vectorLt (K := 88) (g := g) (d := d) (a := a) (b := f) (by decide), ?_⟩
  generalize hW : put 0 f (put 7 a (put 14 d (put 21 g 0x58000000))) + e * 2 ^ 31 = W
  obtain ⟨hp, h1, h2, h3, h4⟩ := Words.vector (K := 88) (by decide) hW
  have hm : mainOf h W = .ok ⟨true, .cvt h (bitsAt W 21 3) (bitsAt W 14 7) (bitsAt W 7 7) (bitsAt W 0 7)⟩ := by
    unfold mainOf; rw [hp]; rfl
  rw [hm, h1, h2, h3, h4]

theorem Words.cvtq (h : Hdr) (g : BitVec 3) (d : BitVec 7) (a : BitVec 7) (s : BitVec 3) : Words.Statement (.cvtq h g d a s) := by
  intro h' w hw _ e he
  obtain ⟨rfl, rfl⟩ := Prod.mk.inj (Option.some.inj hw)
  have := g.isLt
  have := d.isLt
  have := a.isLt
  have := s.isLt
  simp only [put]
  refine ⟨by omega, ?_⟩
  generalize hW : 0x59000000 + g.toNat * 2 ^ 21 + d.toNat * 2 ^ 14 + a.toNat * 2 ^ 7 + s.toNat * 2 ^ 0 + e * 2 ^ 31 = W
  have hp : W / 2 ^ 24 % 2 ^ 7 = 89 := by omega
  have hm : mainOf h W = .ok ⟨decide (W / 2 ^ 3 % 2 ^ 4 = 0), .cvtq h (bitsAt W 21 3) (bitsAt W 14 7) (bitsAt W 7 7) (bitsAt W 0 3)⟩ := by
    unfold mainOf; rw [hp]; rfl
  rw [hm, decide_eq_true (show W / 2 ^ 3 % 2 ^ 4 = 0 by omega), bitsAt_eq g W 21 (by omega), bitsAt_eq d W 14 (by omega), bitsAt_eq a W 7 (by omega), bitsAt_eq s W 0 (by omega)]

theorem Words.cvtd (h : Hdr) (g : BitVec 3) (d : BitVec 7) (a : BitVec 7) (s : BitVec 3) : Words.Statement (.cvtd h g d a s) := by
  intro h' w hw _ e he
  obtain ⟨rfl, rfl⟩ := Prod.mk.inj (Option.some.inj hw)
  have := g.isLt
  have := d.isLt
  have := a.isLt
  have := s.isLt
  simp only [put]
  refine ⟨by omega, ?_⟩
  generalize hW : 0x5A000000 + g.toNat * 2 ^ 21 + d.toNat * 2 ^ 14 + a.toNat * 2 ^ 7 + s.toNat * 2 ^ 0 + e * 2 ^ 31 = W
  have hp : W / 2 ^ 24 % 2 ^ 7 = 90 := by omega
  have hm : mainOf h W = .ok ⟨decide (W / 2 ^ 3 % 2 ^ 4 = 0), .cvtd h (bitsAt W 21 3) (bitsAt W 14 7) (bitsAt W 7 7) (bitsAt W 0 3)⟩ := by
    unfold mainOf; rw [hp]; rfl
  rw [hm, decide_eq_true (show W / 2 ^ 3 % 2 ^ 4 = 0 by omega), bitsAt_eq g W 21 (by omega), bitsAt_eq d W 14 (by omega), bitsAt_eq a W 7 (by omega), bitsAt_eq s W 0 (by omega)]

theorem Words.rand (h : Hdr) (g : BitVec 3) (d : BitVec 7) : Words.Statement (.rand h g d) := by
  intro h' w hw _ e he
  obtain ⟨rfl, rfl⟩ := Prod.mk.inj (Option.some.inj hw)
  have := g.isLt
  have := d.isLt
  simp only [put]
  refine ⟨by omega, ?_⟩
  generalize hW : 0x5B000000 + g.toNat * 2 ^ 21 + d.toNat * 2 ^ 14 + e * 2 ^ 31 = W
  have hp : W / 2 ^ 24 % 2 ^ 7 = 91 := by omega
  have hm : mainOf h W = .ok ⟨decide (W / 2 ^ 0 % 2 ^ 14 = 0), .rand h (bitsAt W 21 3) (bitsAt W 14 7)⟩ := by
    unfold mainOf; rw [hp]; rfl
  rw [hm, decide_eq_true (show W / 2 ^ 0 % 2 ^ 14 = 0 by omega), bitsAt_eq g W 21 (by omega), bitsAt_eq d W 14 (by omega)]

theorem Words.ldg (h : Hdr) (g : BitVec 3) (t : BitVec 7) (o : BitVec 7) (b : BitVec 4) (w : BitVec 3) : Words.Statement (.ldg h g t o b w) := by
  intro h' w hw _ e he
  obtain ⟨rfl, rfl⟩ := Prod.mk.inj (Option.some.inj hw)
  have := g.isLt
  have := t.isLt
  have := o.isLt
  have := b.isLt
  have := w.isLt
  simp only [put]
  refine ⟨by omega, ?_⟩
  generalize hW : 0x60000000 + g.toNat * 2 ^ 21 + t.toNat * 2 ^ 14 + o.toNat * 2 ^ 7 + b.toNat * 2 ^ 3 + w.toNat * 2 ^ 0 + e * 2 ^ 31 = W
  have hp : W / 2 ^ 24 % 2 ^ 7 = 96 := by omega
  have hm : mainOf h W = .ok ⟨true, .ldg h (bitsAt W 21 3) (bitsAt W 14 7) (bitsAt W 7 7) (bitsAt W 3 4) (bitsAt W 0 3)⟩ := by
    unfold mainOf; rw [hp]; rfl
  rw [hm, bitsAt_eq g W 21 (by omega), bitsAt_eq t W 14 (by omega), bitsAt_eq o W 7 (by omega), bitsAt_eq b W 3 (by omega), bitsAt_eq w W 0 (by omega)]

theorem Words.stg (h : Hdr) (g : BitVec 3) (t : BitVec 7) (o : BitVec 7) (b : BitVec 4) (w : BitVec 3) : Words.Statement (.stg h g t o b w) := by
  intro h' w hw _ e he
  obtain ⟨rfl, rfl⟩ := Prod.mk.inj (Option.some.inj hw)
  have := g.isLt
  have := t.isLt
  have := o.isLt
  have := b.isLt
  have := w.isLt
  simp only [put]
  refine ⟨by omega, ?_⟩
  generalize hW : 0x61000000 + g.toNat * 2 ^ 21 + t.toNat * 2 ^ 14 + o.toNat * 2 ^ 7 + b.toNat * 2 ^ 3 + w.toNat * 2 ^ 0 + e * 2 ^ 31 = W
  have hp : W / 2 ^ 24 % 2 ^ 7 = 97 := by omega
  have hm : mainOf h W = .ok ⟨true, .stg h (bitsAt W 21 3) (bitsAt W 14 7) (bitsAt W 7 7) (bitsAt W 3 4) (bitsAt W 0 3)⟩ := by
    unfold mainOf; rw [hp]; rfl
  rw [hm, bitsAt_eq g W 21 (by omega), bitsAt_eq t W 14 (by omega), bitsAt_eq o W 7 (by omega), bitsAt_eq b W 3 (by omega), bitsAt_eq w W 0 (by omega)]

theorem Words.ldgAcq (h : Hdr) (g : BitVec 3) (t : BitVec 7) (o : BitVec 7) (b : BitVec 4) (w : BitVec 3) : Words.Statement (.ldgAcq h g t o b w) := by
  intro h' w hw _ e he
  obtain ⟨rfl, rfl⟩ := Prod.mk.inj (Option.some.inj hw)
  have := g.isLt
  have := t.isLt
  have := o.isLt
  have := b.isLt
  have := w.isLt
  simp only [put]
  refine ⟨by omega, ?_⟩
  generalize hW : 0x62000000 + g.toNat * 2 ^ 21 + t.toNat * 2 ^ 14 + o.toNat * 2 ^ 7 + b.toNat * 2 ^ 3 + w.toNat * 2 ^ 0 + e * 2 ^ 31 = W
  have hp : W / 2 ^ 24 % 2 ^ 7 = 98 := by omega
  have hm : mainOf h W = .ok ⟨true, .ldgAcq h (bitsAt W 21 3) (bitsAt W 14 7) (bitsAt W 7 7) (bitsAt W 3 4) (bitsAt W 0 3)⟩ := by
    unfold mainOf; rw [hp]; rfl
  rw [hm, bitsAt_eq g W 21 (by omega), bitsAt_eq t W 14 (by omega), bitsAt_eq o W 7 (by omega), bitsAt_eq b W 3 (by omega), bitsAt_eq w W 0 (by omega)]

theorem Words.stgRel (h : Hdr) (g : BitVec 3) (t : BitVec 7) (o : BitVec 7) (b : BitVec 4) (w : BitVec 3) : Words.Statement (.stgRel h g t o b w) := by
  intro h' w hw _ e he
  obtain ⟨rfl, rfl⟩ := Prod.mk.inj (Option.some.inj hw)
  have := g.isLt
  have := t.isLt
  have := o.isLt
  have := b.isLt
  have := w.isLt
  simp only [put]
  refine ⟨by omega, ?_⟩
  generalize hW : 0x63000000 + g.toNat * 2 ^ 21 + t.toNat * 2 ^ 14 + o.toNat * 2 ^ 7 + b.toNat * 2 ^ 3 + w.toNat * 2 ^ 0 + e * 2 ^ 31 = W
  have hp : W / 2 ^ 24 % 2 ^ 7 = 99 := by omega
  have hm : mainOf h W = .ok ⟨true, .stgRel h (bitsAt W 21 3) (bitsAt W 14 7) (bitsAt W 7 7) (bitsAt W 3 4) (bitsAt W 0 3)⟩ := by
    unfold mainOf; rw [hp]; rfl
  rw [hm, bitsAt_eq g W 21 (by omega), bitsAt_eq t W 14 (by omega), bitsAt_eq o W 7 (by omega), bitsAt_eq b W 3 (by omega), bitsAt_eq w W 0 (by omega)]

theorem Words.lds (h : Hdr) (g : BitVec 3) (t : BitVec 7) (o : BitVec 7) (i : BitVec 4) (w : BitVec 3) : Words.Statement (.lds h g t o i w) := by
  intro h' w hw _ e he
  obtain ⟨rfl, rfl⟩ := Prod.mk.inj (Option.some.inj hw)
  have := g.isLt
  have := t.isLt
  have := o.isLt
  have := i.isLt
  have := w.isLt
  simp only [put]
  refine ⟨by omega, ?_⟩
  generalize hW : 0x64000000 + g.toNat * 2 ^ 21 + t.toNat * 2 ^ 14 + o.toNat * 2 ^ 7 + i.toNat * 2 ^ 3 + w.toNat * 2 ^ 0 + e * 2 ^ 31 = W
  have hp : W / 2 ^ 24 % 2 ^ 7 = 100 := by omega
  have hm : mainOf h W = .ok ⟨true, .lds h (bitsAt W 21 3) (bitsAt W 14 7) (bitsAt W 7 7) (bitsAt W 3 4) (bitsAt W 0 3)⟩ := by
    unfold mainOf; rw [hp]; rfl
  rw [hm, bitsAt_eq g W 21 (by omega), bitsAt_eq t W 14 (by omega), bitsAt_eq o W 7 (by omega), bitsAt_eq i W 3 (by omega), bitsAt_eq w W 0 (by omega)]

theorem Words.sts (h : Hdr) (g : BitVec 3) (t : BitVec 7) (o : BitVec 7) (i : BitVec 4) (w : BitVec 3) : Words.Statement (.sts h g t o i w) := by
  intro h' w hw _ e he
  obtain ⟨rfl, rfl⟩ := Prod.mk.inj (Option.some.inj hw)
  have := g.isLt
  have := t.isLt
  have := o.isLt
  have := i.isLt
  have := w.isLt
  simp only [put]
  refine ⟨by omega, ?_⟩
  generalize hW : 0x65000000 + g.toNat * 2 ^ 21 + t.toNat * 2 ^ 14 + o.toNat * 2 ^ 7 + i.toNat * 2 ^ 3 + w.toNat * 2 ^ 0 + e * 2 ^ 31 = W
  have hp : W / 2 ^ 24 % 2 ^ 7 = 101 := by omega
  have hm : mainOf h W = .ok ⟨true, .sts h (bitsAt W 21 3) (bitsAt W 14 7) (bitsAt W 7 7) (bitsAt W 3 4) (bitsAt W 0 3)⟩ := by
    unfold mainOf; rw [hp]; rfl
  rw [hm, bitsAt_eq g W 21 (by omega), bitsAt_eq t W 14 (by omega), bitsAt_eq o W 7 (by omega), bitsAt_eq i W 3 (by omega), bitsAt_eq w W 0 (by omega)]

theorem Words.atomg (h : Hdr) (g : BitVec 3) (t : BitVec 7) (o : BitVec 7) (b : BitVec 3) (f : BitVec 4) : Words.Statement (.atomg h g t o b f) := by
  intro h' w hw _ e he
  obtain ⟨rfl, rfl⟩ := Prod.mk.inj (Option.some.inj hw)
  have := g.isLt
  have := t.isLt
  have := o.isLt
  have := b.isLt
  have := f.isLt
  simp only [put]
  refine ⟨by omega, ?_⟩
  generalize hW : 0x66000000 + g.toNat * 2 ^ 21 + t.toNat * 2 ^ 14 + o.toNat * 2 ^ 7 + b.toNat * 2 ^ 4 + f.toNat * 2 ^ 0 + e * 2 ^ 31 = W
  have hp : W / 2 ^ 24 % 2 ^ 7 = 102 := by omega
  have hm : mainOf h W = .ok ⟨true, .atomg h (bitsAt W 21 3) (bitsAt W 14 7) (bitsAt W 7 7) (bitsAt W 4 3) (bitsAt W 0 4)⟩ := by
    unfold mainOf; rw [hp]; rfl
  rw [hm, bitsAt_eq g W 21 (by omega), bitsAt_eq t W 14 (by omega), bitsAt_eq o W 7 (by omega), bitsAt_eq b W 4 (by omega), bitsAt_eq f W 0 (by omega)]

theorem Words.redg (h : Hdr) (g : BitVec 3) (t : BitVec 7) (o : BitVec 7) (b : BitVec 3) (f : BitVec 4) : Words.Statement (.redg h g t o b f) := by
  intro h' w hw _ e he
  obtain ⟨rfl, rfl⟩ := Prod.mk.inj (Option.some.inj hw)
  have := g.isLt
  have := t.isLt
  have := o.isLt
  have := b.isLt
  have := f.isLt
  simp only [put]
  refine ⟨by omega, ?_⟩
  generalize hW : 0x67000000 + g.toNat * 2 ^ 21 + t.toNat * 2 ^ 14 + o.toNat * 2 ^ 7 + b.toNat * 2 ^ 4 + f.toNat * 2 ^ 0 + e * 2 ^ 31 = W
  have hp : W / 2 ^ 24 % 2 ^ 7 = 103 := by omega
  have hm : mainOf h W = .ok ⟨true, .redg h (bitsAt W 21 3) (bitsAt W 14 7) (bitsAt W 7 7) (bitsAt W 4 3) (bitsAt W 0 4)⟩ := by
    unfold mainOf; rw [hp]; rfl
  rw [hm, bitsAt_eq g W 21 (by omega), bitsAt_eq t W 14 (by omega), bitsAt_eq o W 7 (by omega), bitsAt_eq b W 4 (by omega), bitsAt_eq f W 0 (by omega)]

theorem Words.redgDet (h : Hdr) (g : BitVec 3) (t : BitVec 7) (o : BitVec 7) (b : BitVec 3) (f : BitVec 4) : Words.Statement (.redgDet h g t o b f) := by
  intro h' w hw _ e he
  obtain ⟨rfl, rfl⟩ := Prod.mk.inj (Option.some.inj hw)
  have := g.isLt
  have := t.isLt
  have := o.isLt
  have := b.isLt
  have := f.isLt
  simp only [put]
  refine ⟨by omega, ?_⟩
  generalize hW : 0x68000000 + g.toNat * 2 ^ 21 + t.toNat * 2 ^ 14 + o.toNat * 2 ^ 7 + b.toNat * 2 ^ 4 + f.toNat * 2 ^ 0 + e * 2 ^ 31 = W
  have hp : W / 2 ^ 24 % 2 ^ 7 = 104 := by omega
  have hm : mainOf h W = .ok ⟨true, .redgDet h (bitsAt W 21 3) (bitsAt W 14 7) (bitsAt W 7 7) (bitsAt W 4 3) (bitsAt W 0 4)⟩ := by
    unfold mainOf; rw [hp]; rfl
  rw [hm, bitsAt_eq g W 21 (by omega), bitsAt_eq t W 14 (by omega), bitsAt_eq o W 7 (by omega), bitsAt_eq b W 4 (by omega), bitsAt_eq f W 0 (by omega)]

theorem Words.atoms (h : Hdr) (g : BitVec 3) (t : BitVec 7) (o : BitVec 7) (f : BitVec 4) : Words.Statement (.atoms h g t o f) := by
  intro h' w hw _ e he
  obtain ⟨rfl, rfl⟩ := Prod.mk.inj (Option.some.inj hw)
  have := g.isLt
  have := t.isLt
  have := o.isLt
  have := f.isLt
  simp only [put]
  refine ⟨by omega, ?_⟩
  generalize hW : 0x69000000 + g.toNat * 2 ^ 21 + t.toNat * 2 ^ 14 + o.toNat * 2 ^ 7 + f.toNat * 2 ^ 0 + e * 2 ^ 31 = W
  have hp : W / 2 ^ 24 % 2 ^ 7 = 105 := by omega
  have hm : mainOf h W = .ok ⟨decide (W / 2 ^ 4 % 2 ^ 3 = 0), .atoms h (bitsAt W 21 3) (bitsAt W 14 7) (bitsAt W 7 7) (bitsAt W 0 4)⟩ := by
    unfold mainOf; rw [hp]; rfl
  rw [hm, decide_eq_true (show W / 2 ^ 4 % 2 ^ 3 = 0 by omega), bitsAt_eq g W 21 (by omega), bitsAt_eq t W 14 (by omega), bitsAt_eq o W 7 (by omega), bitsAt_eq f W 0 (by omega)]

theorem Words.reds (h : Hdr) (g : BitVec 3) (t : BitVec 7) (o : BitVec 7) (f : BitVec 4) : Words.Statement (.reds h g t o f) := by
  intro h' w hw _ e he
  obtain ⟨rfl, rfl⟩ := Prod.mk.inj (Option.some.inj hw)
  have := g.isLt
  have := t.isLt
  have := o.isLt
  have := f.isLt
  simp only [put]
  refine ⟨by omega, ?_⟩
  generalize hW : 0x6A000000 + g.toNat * 2 ^ 21 + t.toNat * 2 ^ 14 + o.toNat * 2 ^ 7 + f.toNat * 2 ^ 0 + e * 2 ^ 31 = W
  have hp : W / 2 ^ 24 % 2 ^ 7 = 106 := by omega
  have hm : mainOf h W = .ok ⟨decide (W / 2 ^ 4 % 2 ^ 3 = 0), .reds h (bitsAt W 21 3) (bitsAt W 14 7) (bitsAt W 7 7) (bitsAt W 0 4)⟩ := by
    unfold mainOf; rw [hp]; rfl
  rw [hm, decide_eq_true (show W / 2 ^ 4 % 2 ^ 3 = 0 by omega), bitsAt_eq g W 21 (by omega), bitsAt_eq t W 14 (by omega), bitsAt_eq o W 7 (by omega), bitsAt_eq f W 0 (by omega)]

theorem Words.fence (h : Hdr) (o : BitVec 2) (c : BitVec 2) : Words.Statement (.fence h o c) := by
  intro h' w hw _ e he
  obtain ⟨rfl, rfl⟩ := Prod.mk.inj (Option.some.inj hw)
  have := o.isLt
  have := c.isLt
  simp only [put]
  refine ⟨by omega, ?_⟩
  generalize hW : 0x6B000000 + o.toNat * 2 ^ 22 + c.toNat * 2 ^ 20 + e * 2 ^ 31 = W
  have hp : W / 2 ^ 24 % 2 ^ 7 = 107 := by omega
  have hm : mainOf h W = .ok ⟨decide (W / 2 ^ 0 % 2 ^ 20 = 0), .fence h (bitsAt W 22 2) (bitsAt W 20 2)⟩ := by
    unfold mainOf; rw [hp]; rfl
  rw [hm, decide_eq_true (show W / 2 ^ 0 % 2 ^ 20 = 0 by omega), bitsAt_eq o W 22 (by omega), bitsAt_eq c W 20 (by omega)]

theorem Words.fencer (h : Hdr) (o : BitVec 2) (c : BitVec 2) (a : BitVec 6) (b : BitVec 6) : Words.Statement (.fencer h o c a b) := by
  intro h' w hw _ e he
  obtain ⟨rfl, rfl⟩ := Prod.mk.inj (Option.some.inj hw)
  have := o.isLt
  have := c.isLt
  have := a.isLt
  have := b.isLt
  simp only [put]
  refine ⟨by omega, ?_⟩
  generalize hW : 0x6C000000 + o.toNat * 2 ^ 22 + c.toNat * 2 ^ 20 + a.toNat * 2 ^ 12 + b.toNat * 2 ^ 6 + e * 2 ^ 31 = W
  have hp : W / 2 ^ 24 % 2 ^ 7 = 108 := by omega
  have hm : mainOf h W = .ok ⟨decide (W / 2 ^ 0 % 2 ^ 6 = 0) && decide (W / 2 ^ 18 % 2 ^ 2 = 0), .fencer h (bitsAt W 22 2) (bitsAt W 20 2) (bitsAt W 12 6) (bitsAt W 6 6)⟩ := by
    unfold mainOf; rw [hp]; rfl
  rw [hm, decide_eq_true (show W / 2 ^ 0 % 2 ^ 6 = 0 by omega), decide_eq_true (show W / 2 ^ 18 % 2 ^ 2 = 0 by omega), bitsAt_eq o W 22 (by omega), bitsAt_eq c W 20 (by omega), bitsAt_eq a W 12 (by omega), bitsAt_eq b W 6 (by omega)]
  rfl

theorem Words.barArrive (h : Hdr) (g : BitVec 3) (s : BitVec 6) : Words.Statement (.barArrive h g s) := by
  intro h' w hw _ e he
  obtain ⟨rfl, rfl⟩ := Prod.mk.inj (Option.some.inj hw)
  have := g.isLt
  have := s.isLt
  simp only [put]
  refine ⟨by omega, ?_⟩
  generalize hW : 0x6D000000 + g.toNat * 2 ^ 21 + s.toNat * 2 ^ 15 + e * 2 ^ 31 = W
  have hp : W / 2 ^ 24 % 2 ^ 7 = 109 := by omega
  have hs : W / 2 ^ 0 % 2 ^ 6 = 0 := by omega
  have hm : main6D h W = .ok ⟨decide (W / 2 ^ 6 % 2 ^ 9 = 0), .barArrive h (bitsAt W 21 3) (bitsAt W 15 6)⟩ := by
    unfold main6D; rw [hs]; rfl
  rw [Words.table6D h W hp]
  rw [hm, decide_eq_true (show W / 2 ^ 6 % 2 ^ 9 = 0 by omega), bitsAt_eq g W 21 (by omega), bitsAt_eq s W 15 (by omega)]

theorem Words.barWait (h : Hdr) (g : BitVec 3) (s : BitVec 6) : Words.Statement (.barWait h g s) := by
  intro h' w hw _ e he
  obtain ⟨rfl, rfl⟩ := Prod.mk.inj (Option.some.inj hw)
  have := g.isLt
  have := s.isLt
  simp only [put]
  refine ⟨by omega, ?_⟩
  generalize hW : 0x6D000001 + g.toNat * 2 ^ 21 + s.toNat * 2 ^ 15 + e * 2 ^ 31 = W
  have hp : W / 2 ^ 24 % 2 ^ 7 = 109 := by omega
  have hs : W / 2 ^ 0 % 2 ^ 6 = 1 := by omega
  have hm : main6D h W = .ok ⟨decide (W / 2 ^ 6 % 2 ^ 9 = 0), .barWait h (bitsAt W 21 3) (bitsAt W 15 6)⟩ := by
    unfold main6D; rw [hs]; rfl
  rw [Words.table6D h W hp]
  rw [hm, decide_eq_true (show W / 2 ^ 6 % 2 ^ 9 = 0 by omega), bitsAt_eq g W 21 (by omega), bitsAt_eq s W 15 (by omega)]

theorem Words.barArrwait (h : Hdr) (g : BitVec 3) (s : BitVec 6) : Words.Statement (.barArrwait h g s) := by
  intro h' w hw _ e he
  obtain ⟨rfl, rfl⟩ := Prod.mk.inj (Option.some.inj hw)
  have := g.isLt
  have := s.isLt
  simp only [put]
  refine ⟨by omega, ?_⟩
  generalize hW : 0x6D000002 + g.toNat * 2 ^ 21 + s.toNat * 2 ^ 15 + e * 2 ^ 31 = W
  have hp : W / 2 ^ 24 % 2 ^ 7 = 109 := by omega
  have hs : W / 2 ^ 0 % 2 ^ 6 = 2 := by omega
  have hm : main6D h W = .ok ⟨decide (W / 2 ^ 6 % 2 ^ 9 = 0), .barArrwait h (bitsAt W 21 3) (bitsAt W 15 6)⟩ := by
    unfold main6D; rw [hs]; rfl
  rw [Words.table6D h W hp]
  rw [hm, decide_eq_true (show W / 2 ^ 6 % 2 ^ 9 = 0 by omega), bitsAt_eq g W 21 (by omega), bitsAt_eq s W 15 (by omega)]

theorem Words.barCredit (h : Hdr) (g : BitVec 3) (s : BitVec 6) (w : BitVec 9) : Words.Statement (.barCredit h g s w) := by
  intro h' w hw _ e he
  obtain ⟨rfl, rfl⟩ := Prod.mk.inj (Option.some.inj hw)
  have := g.isLt
  have := s.isLt
  have := w.isLt
  simp only [put]
  refine ⟨by omega, ?_⟩
  generalize hW : 0x6D000003 + g.toNat * 2 ^ 21 + s.toNat * 2 ^ 15 + w.toNat * 2 ^ 6 + e * 2 ^ 31 = W
  have hp : W / 2 ^ 24 % 2 ^ 7 = 109 := by omega
  have hs : W / 2 ^ 0 % 2 ^ 6 = 3 := by omega
  have hm : main6D h W = .ok ⟨true, .barCredit h (bitsAt W 21 3) (bitsAt W 15 6) (bitsAt W 6 9)⟩ := by
    unfold main6D; rw [hs]; rfl
  rw [Words.table6D h W hp]
  rw [hm, bitsAt_eq g W 21 (by omega), bitsAt_eq s W 15 (by omega), bitsAt_eq w W 6 (by omega)]

theorem Words.pfg (h : Hdr) (g : BitVec 3) (o : BitVec 7) (b : BitVec 4) (l : BitVec 3) : Words.Statement (.pfg h g o b l) := by
  intro h' w hw _ e he
  obtain ⟨rfl, rfl⟩ := Prod.mk.inj (Option.some.inj hw)
  have := g.isLt
  have := o.isLt
  have := b.isLt
  have := l.isLt
  simp only [put]
  refine ⟨by omega, ?_⟩
  generalize hW : 0x6E000000 + g.toNat * 2 ^ 21 + o.toNat * 2 ^ 7 + b.toNat * 2 ^ 3 + l.toNat * 2 ^ 0 + e * 2 ^ 31 = W
  have hp : W / 2 ^ 24 % 2 ^ 7 = 110 := by omega
  have hm : mainOf h W = .ok ⟨decide (W / 2 ^ 14 % 2 ^ 7 = 0), .pfg h (bitsAt W 21 3) (bitsAt W 7 7) (bitsAt W 3 4) (bitsAt W 0 3)⟩ := by
    unfold mainOf; rw [hp]; rfl
  rw [hm, decide_eq_true (show W / 2 ^ 14 % 2 ^ 7 = 0 by omega), bitsAt_eq g W 21 (by omega), bitsAt_eq o W 7 (by omega), bitsAt_eq b W 3 (by omega), bitsAt_eq l W 0 (by omega)]

theorem Words.bufFill (h : Hdr) (g : BitVec 3) (n : BitVec 4) : Words.Statement (.bufFill h g n) := by
  intro h' w hw _ e he
  obtain ⟨rfl, rfl⟩ := Prod.mk.inj (Option.some.inj hw)
  have := g.isLt
  have := n.isLt
  simp only [put]
  refine ⟨by omega, ?_⟩
  generalize hW : 0x6F000000 + g.toNat * 2 ^ 21 + n.toNat * 2 ^ 6 + e * 2 ^ 31 = W
  have hp : W / 2 ^ 24 % 2 ^ 7 = 111 := by omega
  have hs : W / 2 ^ 0 % 2 ^ 6 = 0 := by omega
  have hm : main6F h W = .ok ⟨decide (W / 2 ^ 10 % 2 ^ 11 = 0), .bufFill h (bitsAt W 21 3) (bitsAt W 6 4)⟩ := by
    unfold main6F; rw [hs]; rfl
  rw [Words.table6F h W hp]
  rw [hm, decide_eq_true (show W / 2 ^ 10 % 2 ^ 11 = 0 by omega), bitsAt_eq g W 21 (by omega), bitsAt_eq n W 6 (by omega)]

theorem Words.bufTake (h : Hdr) (g : BitVec 3) (n : BitVec 4) : Words.Statement (.bufTake h g n) := by
  intro h' w hw _ e he
  obtain ⟨rfl, rfl⟩ := Prod.mk.inj (Option.some.inj hw)
  have := g.isLt
  have := n.isLt
  simp only [put]
  refine ⟨by omega, ?_⟩
  generalize hW : 0x6F000001 + g.toNat * 2 ^ 21 + n.toNat * 2 ^ 6 + e * 2 ^ 31 = W
  have hp : W / 2 ^ 24 % 2 ^ 7 = 111 := by omega
  have hs : W / 2 ^ 0 % 2 ^ 6 = 1 := by omega
  have hm : main6F h W = .ok ⟨decide (W / 2 ^ 10 % 2 ^ 11 = 0), .bufTake h (bitsAt W 21 3) (bitsAt W 6 4)⟩ := by
    unfold main6F; rw [hs]; rfl
  rw [Words.table6F h W hp]
  rw [hm, decide_eq_true (show W / 2 ^ 10 % 2 ^ 11 = 0 by omega), bitsAt_eq g W 21 (by omega), bitsAt_eq n W 6 (by omega)]

theorem Words.bufFree (h : Hdr) (g : BitVec 3) (n : BitVec 4) : Words.Statement (.bufFree h g n) := by
  intro h' w hw _ e he
  obtain ⟨rfl, rfl⟩ := Prod.mk.inj (Option.some.inj hw)
  have := g.isLt
  have := n.isLt
  simp only [put]
  refine ⟨by omega, ?_⟩
  generalize hW : 0x6F000002 + g.toNat * 2 ^ 21 + n.toNat * 2 ^ 6 + e * 2 ^ 31 = W
  have hp : W / 2 ^ 24 % 2 ^ 7 = 111 := by omega
  have hs : W / 2 ^ 0 % 2 ^ 6 = 2 := by omega
  have hm : main6F h W = .ok ⟨decide (W / 2 ^ 10 % 2 ^ 11 = 0), .bufFree h (bitsAt W 21 3) (bitsAt W 6 4)⟩ := by
    unfold main6F; rw [hs]; rfl
  rw [Words.table6F h W hp]
  rw [hm, decide_eq_true (show W / 2 ^ 10 % 2 ^ 11 = 0 by omega), bitsAt_eq g W 21 (by omega), bitsAt_eq n W 6 (by omega)]

theorem Words.copy (h : Hdr) (g : BitVec 3) (c : BitVec 6) (t : BitVec 6) : Words.Statement (.copy h g c t) := by
  intro h' w hw _ e he
  obtain ⟨rfl, rfl⟩ := Prod.mk.inj (Option.some.inj hw)
  have := g.isLt
  have := c.isLt
  have := t.isLt
  simp only [put]
  refine ⟨by omega, ?_⟩
  generalize hW : 0x70000000 + g.toNat * 2 ^ 21 + c.toNat * 2 ^ 15 + t.toNat * 2 ^ 9 + e * 2 ^ 31 = W
  have hp : W / 2 ^ 24 % 2 ^ 7 = 112 := by omega
  have hm : mainOf h W = .ok ⟨decide (W / 2 ^ 0 % 2 ^ 9 = 0), .copy h (bitsAt W 21 3) (bitsAt W 15 6) (bitsAt W 9 6)⟩ := by
    unfold mainOf; rw [hp]; rfl
  rw [hm, decide_eq_true (show W / 2 ^ 0 % 2 ^ 9 = 0 by omega), bitsAt_eq g W 21 (by omega), bitsAt_eq c W 15 (by omega), bitsAt_eq t W 9 (by omega)]

theorem Words.mma (h : Hdr) (g : BitVec 3) (c : BitVec 6) (t : BitVec 6) (a : BitVec 3) (b : BitVec 3) (z : BitVec 1) (x : BitVec 1) : Words.Statement (.mma h g c t a b z x) := by
  intro h' w hw _ e he
  obtain ⟨rfl, rfl⟩ := Prod.mk.inj (Option.some.inj hw)
  have := g.isLt
  have := c.isLt
  have := t.isLt
  have := a.isLt
  have := b.isLt
  have := z.isLt
  have := x.isLt
  simp only [put]
  refine ⟨by omega, ?_⟩
  generalize hW : 0x71000000 + g.toNat * 2 ^ 21 + c.toNat * 2 ^ 15 + t.toNat * 2 ^ 9 + a.toNat * 2 ^ 6 + b.toNat * 2 ^ 3 + z.toNat * 2 ^ 2 + x.toNat * 2 ^ 1 + e * 2 ^ 31 = W
  have hp : W / 2 ^ 24 % 2 ^ 7 = 113 := by omega
  have hm : mainOf h W = .ok ⟨decide (W / 2 ^ 0 % 2 ^ 1 = 0), .mma h (bitsAt W 21 3) (bitsAt W 15 6) (bitsAt W 9 6) (bitsAt W 6 3) (bitsAt W 3 3) (bitsAt W 2 1) (bitsAt W 1 1)⟩ := by
    unfold mainOf; rw [hp]; rfl
  rw [hm, decide_eq_true (show W / 2 ^ 0 % 2 ^ 1 = 0 by omega), bitsAt_eq g W 21 (by omega), bitsAt_eq c W 15 (by omega), bitsAt_eq t W 9 (by omega), bitsAt_eq a W 6 (by omega), bitsAt_eq b W 3 (by omega), bitsAt_eq z W 2 (by omega), bitsAt_eq x W 1 (by omega)]

theorem Words.accread (h : Hdr) (g : BitVec 3) (d : BitVec 7) (a : BitVec 7) (t : BitVec 3) : Words.Statement (.accread h g d a t) := by
  intro h' w hw _ e he
  obtain ⟨rfl, rfl⟩ := Prod.mk.inj (Option.some.inj hw)
  have := g.isLt
  have := d.isLt
  have := a.isLt
  have := t.isLt
  simp only [put]
  refine ⟨by omega, ?_⟩
  generalize hW : 0x72000000 + g.toNat * 2 ^ 21 + d.toNat * 2 ^ 14 + a.toNat * 2 ^ 7 + t.toNat * 2 ^ 0 + e * 2 ^ 31 = W
  have hp : W / 2 ^ 24 % 2 ^ 7 = 114 := by omega
  have hm : mainOf h W = .ok ⟨decide (W / 2 ^ 3 % 2 ^ 4 = 0), .accread h (bitsAt W 21 3) (bitsAt W 14 7) (bitsAt W 7 7) (bitsAt W 0 3)⟩ := by
    unfold mainOf; rw [hp]; rfl
  rw [hm, decide_eq_true (show W / 2 ^ 3 % 2 ^ 4 = 0 by omega), bitsAt_eq g W 21 (by omega), bitsAt_eq d W 14 (by omega), bitsAt_eq a W 7 (by omega), bitsAt_eq t W 0 (by omega)]

theorem Words.accwrite (h : Hdr) (g : BitVec 3) (d : BitVec 7) (a : BitVec 7) (t : BitVec 3) : Words.Statement (.accwrite h g d a t) := by
  intro h' w hw _ e he
  obtain ⟨rfl, rfl⟩ := Prod.mk.inj (Option.some.inj hw)
  have := g.isLt
  have := d.isLt
  have := a.isLt
  have := t.isLt
  simp only [put]
  refine ⟨by omega, ?_⟩
  generalize hW : 0x73000000 + g.toNat * 2 ^ 21 + d.toNat * 2 ^ 14 + a.toNat * 2 ^ 7 + t.toNat * 2 ^ 0 + e * 2 ^ 31 = W
  have hp : W / 2 ^ 24 % 2 ^ 7 = 115 := by omega
  have hm : mainOf h W = .ok ⟨decide (W / 2 ^ 3 % 2 ^ 4 = 0), .accwrite h (bitsAt W 21 3) (bitsAt W 14 7) (bitsAt W 7 7) (bitsAt W 0 3)⟩ := by
    unfold mainOf; rw [hp]; rfl
  rw [hm, decide_eq_true (show W / 2 ^ 3 % 2 ^ 4 = 0 by omega), bitsAt_eq g W 21 (by omega), bitsAt_eq d W 14 (by omega), bitsAt_eq a W 7 (by omega), bitsAt_eq t W 0 (by omega)]

theorem Words.apatch (h : Hdr) (g : BitVec 3) (d : BitVec 7) (a : BitVec 7) (hi : BitVec 1) (lo : BitVec 1) (t : BitVec 3) : Words.Statement (.apatch h g d a hi lo t) := by
  intro h' w hw _ e he
  obtain ⟨rfl, rfl⟩ := Prod.mk.inj (Option.some.inj hw)
  have := g.isLt
  have := d.isLt
  have := a.isLt
  have := hi.isLt
  have := lo.isLt
  have := t.isLt
  simp only [put]
  refine ⟨by omega, ?_⟩
  generalize hW : 0x74000000 + g.toNat * 2 ^ 21 + d.toNat * 2 ^ 14 + a.toNat * 2 ^ 7 + hi.toNat * 2 ^ 4 + lo.toNat * 2 ^ 3 + t.toNat * 2 ^ 0 + e * 2 ^ 31 = W
  have hp : W / 2 ^ 24 % 2 ^ 7 = 116 := by omega
  have hm : mainOf h W = .ok ⟨decide (W / 2 ^ 5 % 2 ^ 2 = 0), .apatch h (bitsAt W 21 3) (bitsAt W 14 7) (bitsAt W 7 7) (bitsAt W 4 1) (bitsAt W 3 1) (bitsAt W 0 3)⟩ := by
    unfold mainOf; rw [hp]; rfl
  rw [hm, decide_eq_true (show W / 2 ^ 5 % 2 ^ 2 = 0 by omega), bitsAt_eq g W 21 (by omega), bitsAt_eq d W 14 (by omega), bitsAt_eq a W 7 (by omega), bitsAt_eq hi W 4 (by omega), bitsAt_eq lo W 3 (by omega), bitsAt_eq t W 0 (by omega)]

theorem Words.accctlClear (h : Hdr) (g : BitVec 3) (t : BitVec 3) : Words.Statement (.accctlClear h g t) := by
  intro h' w hw _ e he
  obtain ⟨rfl, rfl⟩ := Prod.mk.inj (Option.some.inj hw)
  have := g.isLt
  have := t.isLt
  simp only [put]
  refine ⟨by omega, ?_⟩
  generalize hW : 0x75000000 + g.toNat * 2 ^ 21 + t.toNat * 2 ^ 6 + e * 2 ^ 31 = W
  have hp : W / 2 ^ 24 % 2 ^ 7 = 117 := by omega
  have hs : W / 2 ^ 0 % 2 ^ 3 = 0 := by omega
  have hm : main75 h W = .ok ⟨decide (W / 2 ^ 3 % 2 ^ 3 = 0) && decide (W / 2 ^ 9 % 2 ^ 12 = 0), .accctlClear h (bitsAt W 21 3) (bitsAt W 6 3)⟩ := by
    unfold main75; rw [hs]; rfl
  rw [Words.table75 h W hp]
  rw [hm, decide_eq_true (show W / 2 ^ 3 % 2 ^ 3 = 0 by omega), decide_eq_true (show W / 2 ^ 9 % 2 ^ 12 = 0 by omega), bitsAt_eq g W 21 (by omega), bitsAt_eq t W 6 (by omega)]
  rfl

theorem Words.accctlSave (h : Hdr) (g : BitVec 3) (c : BitVec 6) (t : BitVec 3) : Words.Statement (.accctlSave h g c t) := by
  intro h' w hw _ e he
  obtain ⟨rfl, rfl⟩ := Prod.mk.inj (Option.some.inj hw)
  have := g.isLt
  have := c.isLt
  have := t.isLt
  simp only [put]
  refine ⟨by omega, ?_⟩
  generalize hW : 0x75000001 + g.toNat * 2 ^ 21 + c.toNat * 2 ^ 15 + t.toNat * 2 ^ 6 + e * 2 ^ 31 = W
  have hp : W / 2 ^ 24 % 2 ^ 7 = 117 := by omega
  have hs : W / 2 ^ 0 % 2 ^ 3 = 1 := by omega
  have hm : main75 h W = .ok ⟨decide (W / 2 ^ 3 % 2 ^ 3 = 0) && decide (W / 2 ^ 9 % 2 ^ 6 = 0), .accctlSave h (bitsAt W 21 3) (bitsAt W 15 6) (bitsAt W 6 3)⟩ := by
    unfold main75; rw [hs]; rfl
  rw [Words.table75 h W hp]
  rw [hm, decide_eq_true (show W / 2 ^ 3 % 2 ^ 3 = 0 by omega), decide_eq_true (show W / 2 ^ 9 % 2 ^ 6 = 0 by omega), bitsAt_eq g W 21 (by omega), bitsAt_eq c W 15 (by omega), bitsAt_eq t W 6 (by omega)]
  rfl

theorem Words.accctlLoad (h : Hdr) (g : BitVec 3) (c : BitVec 6) (t : BitVec 3) : Words.Statement (.accctlLoad h g c t) := by
  intro h' w hw _ e he
  obtain ⟨rfl, rfl⟩ := Prod.mk.inj (Option.some.inj hw)
  have := g.isLt
  have := c.isLt
  have := t.isLt
  simp only [put]
  refine ⟨by omega, ?_⟩
  generalize hW : 0x75000002 + g.toNat * 2 ^ 21 + c.toNat * 2 ^ 15 + t.toNat * 2 ^ 6 + e * 2 ^ 31 = W
  have hp : W / 2 ^ 24 % 2 ^ 7 = 117 := by omega
  have hs : W / 2 ^ 0 % 2 ^ 3 = 2 := by omega
  have hm : main75 h W = .ok ⟨decide (W / 2 ^ 3 % 2 ^ 3 = 0) && decide (W / 2 ^ 9 % 2 ^ 6 = 0), .accctlLoad h (bitsAt W 21 3) (bitsAt W 15 6) (bitsAt W 6 3)⟩ := by
    unfold main75; rw [hs]; rfl
  rw [Words.table75 h W hp]
  rw [hm, decide_eq_true (show W / 2 ^ 3 % 2 ^ 3 = 0 by omega), decide_eq_true (show W / 2 ^ 9 % 2 ^ 6 = 0 by omega), bitsAt_eq g W 21 (by omega), bitsAt_eq c W 15 (by omega), bitsAt_eq t W 6 (by omega)]
  rfl

theorem Words.accctlWait (h : Hdr) (g : BitVec 3) (t : BitVec 3) : Words.Statement (.accctlWait h g t) := by
  intro h' w hw _ e he
  obtain ⟨rfl, rfl⟩ := Prod.mk.inj (Option.some.inj hw)
  have := g.isLt
  have := t.isLt
  simp only [put]
  refine ⟨by omega, ?_⟩
  generalize hW : 0x75000003 + g.toNat * 2 ^ 21 + t.toNat * 2 ^ 6 + e * 2 ^ 31 = W
  have hp : W / 2 ^ 24 % 2 ^ 7 = 117 := by omega
  have hs : W / 2 ^ 0 % 2 ^ 3 = 3 := by omega
  have hm : main75 h W = .ok ⟨decide (W / 2 ^ 3 % 2 ^ 3 = 0) && decide (W / 2 ^ 9 % 2 ^ 12 = 0), .accctlWait h (bitsAt W 21 3) (bitsAt W 6 3)⟩ := by
    unfold main75; rw [hs]; rfl
  rw [Words.table75 h W hp]
  rw [hm, decide_eq_true (show W / 2 ^ 3 % 2 ^ 3 = 0 by omega), decide_eq_true (show W / 2 ^ 9 % 2 ^ 12 = 0 by omega), bitsAt_eq g W 21 (by omega), bitsAt_eq t W 6 (by omega)]
  rfl

theorem Words.accctlOvf (h : Hdr) (g : BitVec 3) (d : BitVec 6) (t : BitVec 3) : Words.Statement (.accctlOvf h g d t) := by
  intro h' w hw _ e he
  obtain ⟨rfl, rfl⟩ := Prod.mk.inj (Option.some.inj hw)
  have := g.isLt
  have := d.isLt
  have := t.isLt
  simp only [put]
  refine ⟨by omega, ?_⟩
  generalize hW : 0x75000004 + g.toNat * 2 ^ 21 + d.toNat * 2 ^ 9 + t.toNat * 2 ^ 6 + e * 2 ^ 31 = W
  have hp : W / 2 ^ 24 % 2 ^ 7 = 117 := by omega
  have hs : W / 2 ^ 0 % 2 ^ 3 = 4 := by omega
  have hm : main75 h W = .ok ⟨decide (W / 2 ^ 3 % 2 ^ 3 = 0) && decide (W / 2 ^ 15 % 2 ^ 6 = 0), .accctlOvf h (bitsAt W 21 3) (bitsAt W 9 6) (bitsAt W 6 3)⟩ := by
    unfold main75; rw [hs]; rfl
  rw [Words.table75 h W hp]
  rw [hm, decide_eq_true (show W / 2 ^ 3 % 2 ^ 3 = 0 by omega), decide_eq_true (show W / 2 ^ 15 % 2 ^ 6 = 0 by omega), bitsAt_eq g W 21 (by omega), bitsAt_eq d W 9 (by omega), bitsAt_eq t W 6 (by omega)]
  rfl

theorem Words.rbegin (h : Hdr) (g : BitVec 3) (o : BitVec 21) : Words.Statement (.rbegin h g o) := by
  intro h' w hw _ e he
  obtain ⟨rfl, rfl⟩ := Prod.mk.inj (Option.some.inj hw)
  have := g.isLt
  have := o.isLt
  simp only [put]
  refine ⟨by omega, ?_⟩
  generalize hW : 0x78000000 + g.toNat * 2 ^ 21 + o.toNat * 2 ^ 0 + e * 2 ^ 31 = W
  have hp : W / 2 ^ 24 % 2 ^ 7 = 120 := by omega
  have hm : mainOf h W = .ok ⟨true, .rbegin h (bitsAt W 21 3) (bitsAt W 0 21)⟩ := by
    unfold mainOf; rw [hp]; rfl
  rw [hm, bitsAt_eq g W 21 (by omega), bitsAt_eq o W 0 (by omega)]

theorem Words.rld (h : Hdr) (g : BitVec 3) (t : BitVec 7) (o : BitVec 7) (b : BitVec 4) : Words.Statement (.rld h g t o b) := by
  intro h' w hw _ e he
  obtain ⟨rfl, rfl⟩ := Prod.mk.inj (Option.some.inj hw)
  have := g.isLt
  have := t.isLt
  have := o.isLt
  have := b.isLt
  simp only [put]
  refine ⟨by omega, ?_⟩
  generalize hW : 0x79000004 + g.toNat * 2 ^ 21 + t.toNat * 2 ^ 14 + o.toNat * 2 ^ 7 + b.toNat * 2 ^ 3 + e * 2 ^ 31 = W
  have hp : W / 2 ^ 24 % 2 ^ 7 = 121 := by omega
  have hs : W / 2 ^ 0 % 2 ^ 3 = 4 := by omega
  have hm : main79 h W = .ok ⟨true, .rld h (bitsAt W 21 3) (bitsAt W 14 7) (bitsAt W 7 7) (bitsAt W 3 4)⟩ := by
    unfold main79; rw [hs]; rfl
  rw [Words.table79 h W hp]
  rw [hm, bitsAt_eq g W 21 (by omega), bitsAt_eq t W 14 (by omega), bitsAt_eq o W 7 (by omega), bitsAt_eq b W 3 (by omega)]

theorem Words.rst (h : Hdr) (g : BitVec 3) (t : BitVec 7) (o : BitVec 7) (b : BitVec 4) (w : BitVec 3) : Words.Statement (.rst h g t o b w) := by
  intro h' w hw _ e he
  obtain ⟨rfl, rfl⟩ := Prod.mk.inj (Option.some.inj hw)
  have := g.isLt
  have := t.isLt
  have := o.isLt
  have := b.isLt
  have := w.isLt
  simp only [put]
  refine ⟨by omega, ?_⟩
  generalize hW : 0x7A000000 + g.toNat * 2 ^ 21 + t.toNat * 2 ^ 14 + o.toNat * 2 ^ 7 + b.toNat * 2 ^ 3 + w.toNat * 2 ^ 0 + e * 2 ^ 31 = W
  have hp : W / 2 ^ 24 % 2 ^ 7 = 122 := by omega
  have hm : mainOf h W = .ok ⟨true, .rst h (bitsAt W 21 3) (bitsAt W 14 7) (bitsAt W 7 7) (bitsAt W 3 4) (bitsAt W 0 3)⟩ := by
    unfold mainOf; rw [hp]; rfl
  rw [hm, bitsAt_eq g W 21 (by omega), bitsAt_eq t W 14 (by omega), bitsAt_eq o W 7 (by omega), bitsAt_eq b W 3 (by omega), bitsAt_eq w W 0 (by omega)]

theorem Words.rend (h : Hdr) (g : BitVec 3) : Words.Statement (.rend h g) := by
  intro h' w hw _ e he
  obtain ⟨rfl, rfl⟩ := Prod.mk.inj (Option.some.inj hw)
  have := g.isLt
  simp only [put]
  refine ⟨by omega, ?_⟩
  generalize hW : 0x7B000000 + g.toNat * 2 ^ 21 + e * 2 ^ 31 = W
  have hp : W / 2 ^ 24 % 2 ^ 7 = 123 := by omega
  have hs : W / 2 ^ 0 % 2 ^ 7 = 0 := by omega
  have hm : main7B h W = .ok ⟨decide (W / 2 ^ 7 % 2 ^ 14 = 0), .rend h (bitsAt W 21 3)⟩ := by
    unfold main7B; rw [hs]; rfl
  rw [Words.table7B h W hp]
  rw [hm, decide_eq_true (show W / 2 ^ 7 % 2 ^ 14 = 0 by omega), bitsAt_eq g W 21 (by omega)]

theorem Words.rabort (h : Hdr) (g : BitVec 3) (i : BitVec 8) : Words.Statement (.rabort h g i) := by
  intro h' w hw _ e he
  obtain ⟨rfl, rfl⟩ := Prod.mk.inj (Option.some.inj hw)
  have := g.isLt
  have := i.isLt
  simp only [put]
  refine ⟨by omega, ?_⟩
  generalize hW : 0x7B000001 + g.toNat * 2 ^ 21 + i.toNat * 2 ^ 7 + e * 2 ^ 31 = W
  have hp : W / 2 ^ 24 % 2 ^ 7 = 123 := by omega
  have hs : W / 2 ^ 0 % 2 ^ 7 = 1 := by omega
  have hm : main7B h W = .ok ⟨decide (W / 2 ^ 15 % 2 ^ 6 = 0), .rabort h (bitsAt W 21 3) (bitsAt W 7 8)⟩ := by
    unfold main7B; rw [hs]; rfl
  rw [Words.table7B h W hp]
  rw [hm, decide_eq_true (show W / 2 ^ 15 % 2 ^ 6 = 0 by omega), bitsAt_eq g W 21 (by omega), bitsAt_eq i W 7 (by omega)]

theorem Words.rstat (h : Hdr) (g : BitVec 3) (d : BitVec 7) : Words.Statement (.rstat h g d) := by
  intro h' w hw _ e he
  obtain ⟨rfl, rfl⟩ := Prod.mk.inj (Option.some.inj hw)
  have := g.isLt
  have := d.isLt
  simp only [put]
  refine ⟨by omega, ?_⟩
  generalize hW : 0x7B000002 + g.toNat * 2 ^ 21 + d.toNat * 2 ^ 14 + e * 2 ^ 31 = W
  have hp : W / 2 ^ 24 % 2 ^ 7 = 123 := by omega
  have hs : W / 2 ^ 0 % 2 ^ 7 = 2 := by omega
  have hm : main7B h W = .ok ⟨decide (W / 2 ^ 7 % 2 ^ 7 = 0), .rstat h (bitsAt W 21 3) (bitsAt W 14 7)⟩ := by
    unfold main7B; rw [hs]; rfl
  rw [Words.table7B h W hp]
  rw [hm, decide_eq_true (show W / 2 ^ 7 % 2 ^ 7 = 0 by omega), bitsAt_eq g W 21 (by omega), bitsAt_eq d W 14 (by omega)]

theorem Words.issueRound (u : Nat) (g : Nat) : Words.Statement (.issueRound u g) := Words.event rfl

theorem Words.forcedSwitch (u : Nat) (g : Nat) : Words.Statement (.forcedSwitch u g) := Words.event rfl

theorem Words.loadResponse (u : Nat) (g : Nat) (k : Nat) : Words.Statement (.loadResponse u g k) := Words.event rfl

theorem Words.placeBlock (a : Nat) (core : Nat) : Words.Statement (.placeBlock a core) := Words.event rfl

theorem Words.gangDrain (u : Nat) (g : Nat) : Words.Statement (.gangDrain u g) := Words.event rfl

theorem Words.blockStall (u : Nat) : Words.Statement (.blockStall u) := Words.event rfl

theorem Words.reggrowGrant (core : Nat) (quad : Nat) : Words.Statement (.reggrowGrant core quad) := Words.event rfl

theorem Words.eviction (core : Nat) (quad : Nat) : Words.Statement (.eviction core quad) := Words.event rfl

theorem Words.waiterTimeout (core : Nat) (quad : Nat) : Words.Statement (.waiterTimeout core quad) := Words.event rfl

theorem Words.l1WriteBack (cluster : Nat) (line : Nat) : Words.Statement (.l1WriteBack cluster line) := Words.event rfl

theorem Words.mauAtomic (u : Nat) (g : Nat) (k : Nat) : Words.Statement (.mauAtomic u g k) := Words.event rfl

theorem Words.updateArrival (a : Nat) (k : Nat) : Words.Statement (.updateArrival a k) := Words.event rfl

theorem Words.drain (a : Nat) : Words.Statement (.drain a) := Words.event rfl

theorem Words.commit (u : Nat) (g : Nat) : Words.Statement (.commit u g) := Words.event rfl

theorem Words.copyJobStart (u : Nat) (j : Nat) : Words.Statement (.copyJobStart u j) := Words.event rfl

theorem Words.copyBeat (u : Nat) (j : Nat) : Words.Statement (.copyBeat u j) := Words.event rfl

theorem Words.copyCompletion (u : Nat) (j : Nat) : Words.Statement (.copyCompletion u j) := Words.event rfl

theorem Words.mmaJobStart (u : Nat) (j : Nat) : Words.Statement (.mmaJobStart u j) := Words.event rfl

theorem Words.mmaGroup (u : Nat) (j : Nat) : Words.Statement (.mmaGroup u j) := Words.event rfl

theorem Words.mmaCompletion (u : Nat) (j : Nat) : Words.Statement (.mmaCompletion u j) := Words.event rfl

theorem Words.accAction (u : Nat) (j : Nat) : Words.Statement (.accAction u j) := Words.event rfl

theorem Words.tableWalk (core : Nat) (p : Nat) (va : BitVec 72) : Words.Statement (.tableWalk core p va) := Words.event rfl

theorem Words.engineEventDelivery (u : Nat) (g : Nat) (l : Nat) : Words.Statement (.engineEventDelivery u g l) := Words.event rfl

theorem Words.preemptionRequest (us : List Nat) : Words.Statement (.preemptionRequest us) := Words.event rfl

theorem Words.openRunTimeout (u : Nat) (g : Nat) : Words.Statement (.openRunTimeout u g) := Words.event rfl

theorem Words.queueStart (p : Nat) (q : Nat) (v : BitVec 64) : Words.Statement (.queueStart p q v) := Words.event rfl

theorem Words.queueTeardown (p : Nat) (q : Nat) (v : BitVec 64) : Words.Statement (.queueTeardown p q v) := Words.event rfl

theorem Words.qbaseWrite (p : Nat) (q : Nat) (v : BitVec 128) : Words.Statement (.qbaseWrite p q v) := Words.event rfl

theorem Words.qwidxWrite (p : Nat) (q : Nat) (v : BitVec 32) : Words.Statement (.qwidxWrite p q v) := Words.event rfl

theorem Words.packetFetch (p : Nat) (q : Nat) : Words.Statement (.packetFetch p q) := Words.event rfl

theorem Words.launch (p : Nat) (q : Nat) : Words.Statement (.launch p q) := Words.event rfl

theorem Words.waitsig (p : Nat) (q : Nat) : Words.Statement (.waitsig p q) := Words.event rfl

theorem Words.signalReread (p : Nat) (q : Nat) : Words.Statement (.signalReread p q) := Words.event rfl

theorem Words.setsig (p : Nat) (q : Nat) : Words.Statement (.setsig p q) := Words.event rfl

theorem Words.mark (p : Nat) (q : Nat) : Words.Statement (.mark p q) := Words.event rfl

theorem Words.flush (p : Nat) (q : Nat) : Words.Statement (.flush p q) := Words.event rfl

theorem Words.launchCompletion (a : Nat) : Words.Statement (.launchCompletion a) := Words.event rfl

theorem Words.traceRecord (a : Nat) (core : Nat) (quad : Nat) (final : Bool) : Words.Statement (.traceRecord a core quad final) := Words.event rfl

theorem Words.tinvalPage (p : Nat) (v : BitVec 64) : Words.Statement (.tinvalPage p v) := Words.event rfl

theorem Words.tinvalAll (p : Nat) (v : BitVec 64) : Words.Statement (.tinvalAll p v) := Words.event rfl

theorem Words.invalidationComplete (p : Nat) : Words.Statement (.invalidationComplete p) := Words.event rfl

theorem Words.fresume (p : Nat) (v : BitVec 64) : Words.Statement (.fresume p v) := Words.event rfl

theorem Words.keyRetire (p : Nat) (v : BitVec 64) : Words.Statement (.keyRetire p v) := Words.event rfl

theorem Words.keyRetireComplete (p : Nat) : Words.Statement (.keyRetireComplete p) := Words.event rfl

theorem Words.registerWrite (p : Nat) (off : Nat) (v : BitVec 64) : Words.Statement (.registerWrite p off v) := Words.event rfl

theorem Words.getS (line : Nat) (d : Nat) : Words.Statement (.getS line d) := Words.event rfl

theorem Words.getM (line : Nat) (d : Nat) : Words.Statement (.getM line d) := Words.event rfl

theorem Words.putE (line : Nat) (d : Nat) : Words.Statement (.putE line d) := Words.event rfl

theorem Words.putM (line : Nat) (d : Nat) : Words.Statement (.putM line d) := Words.event rfl

theorem Words.putP (line : Nat) (d : Nat) : Words.Statement (.putP line d) := Words.event rfl

theorem Words.fwdS (line : Nat) (o : Nat) (d : Nat) : Words.Statement (.fwdS line o d) := Words.event rfl

theorem Words.fwdM (line : Nat) (o : Nat) (d : Nat) : Words.Statement (.fwdM line o d) := Words.event rfl

theorem Words.inv (line : Nat) (d : Nat) : Words.Statement (.inv line d) := Words.event rfl

theorem Words.backInv (line : Nat) (d : Nat) : Words.Statement (.backInv line d) := Words.event rfl

theorem Words.recall (line : Nat) (d : Nat) : Words.Statement (.recall line d) := Words.event rfl

theorem Words.data (line : Nat) (d : Nat) (m : Bool) : Words.Statement (.data line d m) := Words.event rfl

theorem Words.invAck (line : Nat) (d : Nat) : Words.Statement (.invAck line d) := Words.event rfl

theorem Words.fwdAck (line : Nat) (d : Nat) : Words.Statement (.fwdAck line d) := Words.event rfl

theorem Words.maskReq (line : Nat) (d : Nat) (m : BitVec 128) : Words.Statement (.maskReq line d m) := Words.event rfl

theorem Words.maskGrant (line : Nat) (d : Nat) : Words.Statement (.maskGrant line d) := Words.event rfl

theorem Words.maskUpd (line : Nat) (d : Nat) (m : BitVec 128) : Words.Statement (.maskUpd line d m) := Words.event rfl

theorem Words.dieFailure (d : Nat) : Words.Statement (.dieFailure d) := Words.event rfl

theorem Words.dieReadmit (d : Nat) : Words.Statement (.dieReadmit d) := Words.event rfl

theorem Words.uncorrectableError (line : Nat) (pieces : BitVec 16) : Words.Statement (.uncorrectableError line pieces) := Words.event rfl

theorem Words.write (c : Nat) (pkt : HostPkt) : Words.Statement (.write c pkt) := Words.event rfl

theorem Words.read (c : Nat) (pkt : HostPkt) : Words.Statement (.read c pkt) := Words.event rfl

theorem Words.ack (c : Nat) (pkt : HostPkt) : Words.Statement (.ack c pkt) := Words.event rfl

theorem Words.nak (c : Nat) (pkt : HostPkt) : Words.Statement (.nak c pkt) := Words.event rfl

theorem Words.resendTimeout (c : Nat) : Words.Statement (.resendTimeout c) := Words.event rfl

theorem Words.flit (l : Nat) (f : FlitIn) : Words.Statement (.flit l f) := Words.event rfl

theorem Words.readMessage (m : FabMsg) : Words.Statement (.readMessage m) := Words.event rfl

theorem Words.writeMessage (m : FabMsg) : Words.Statement (.writeMessage m) := Words.event rfl

theorem Words.atomicMessage (m : FabMsg) : Words.Statement (.atomicMessage m) := Words.event rfl

theorem Words.readResponse (m : FabMsg) : Words.Statement (.readResponse m) := Words.event rfl

theorem Words.writeAcknowledgement (m : FabMsg) : Words.Statement (.writeAcknowledgement m) := Words.event rfl

theorem Words.atomicResponse (m : FabMsg) : Words.Statement (.atomicResponse m) := Words.event rfl

theorem Words.errorResponse (m : FabMsg) : Words.Statement (.errorResponse m) := Words.event rfl

theorem Words.responseTimeout (tag : Nat) : Words.Statement (.responseTimeout tag) := Words.event rfl

theorem Words.sessionNotice (m : FabMsg) : Words.Statement (.sessionNotice m) := Words.event rfl

theorem Words.partcfg (seq : Nat) (code : Nat) : Words.Statement (.partcfg seq code) := Words.event rfl

theorem Words.connbind (seq : Nat) (c : Nat) (p : Nat) (addr : BitVec 144) : Words.Statement (.connbind seq c p addr) := Words.event rfl

theorem Words.connreset (seq : Nat) (c : Nat) : Words.Statement (.connreset seq c) := Words.event rfl

theorem Words.fabcfg (seq : Nat) (ctl : BitVec 64) (routes : List (Nat × BitVec 18)) : Words.Statement (.fabcfg seq ctl routes) := Words.event rfl

theorem Words.keyinst (seq : Nat) (id : Nat) (p : Nat) (blob : List (BitVec 8)) : Words.Statement (.keyinst seq id p blob) := Words.event rfl

theorem Words.sparepool (seq : Nat) (start : Nat) (frames : List (BitVec 64)) : Words.Statement (.sparepool seq start frames) := Words.event rfl

theorem Words.fwstage (seq : Nat) (version : BitVec 32) (engine : BitVec 32) (image : List (BitVec 8)) : Words.Statement (.fwstage seq version engine image) := Words.event rfl

theorem Words.fwapply (seq : Nat) : Words.Statement (.fwapply seq) := Words.event rfl

theorem Words.svcread (seq : Nat) (first : Nat) : Words.Statement (.svcread seq first) := Words.event rfl

theorem Words.dirdump (seq : Nat) (slice : Nat) : Words.Statement (.dirdump seq slice) := Words.event rfl

theorem Words.attest (seq : Nat) (nonce : List (BitVec 8)) : Words.Statement (.attest seq nonce) := Words.event rfl

theorem Words.powcap (seq : Nat) (watts : Nat) : Words.Statement (.powcap seq watts) := Words.event rfl

theorem Words.powerOn (fail : Nat) (badCores : List Nat) : Words.Statement (.powerOn fail badCores) := Words.event rfl

theorem Words.coreFailure (core : Nat) : Words.Statement (.coreFailure core) := Words.event rfl

theorem Words.sliceFailure (sl : Nat) : Words.Statement (.sliceFailure sl) := Words.event rfl

theorem Words.rowErrors (ch : Nat) (row : Nat) : Words.Statement (.rowErrors ch row) := Words.event rfl

theorem Words.channelFailure (ch : Nat) : Words.Statement (.channelFailure ch) := Words.event rfl

theorem Words.linkLaneFailure (l : Nat) (lanes : Nat) : Words.Statement (.linkLaneFailure l lanes) := Words.event rfl

theorem Words.throttle : Words.Statement (.throttle) := Words.event rfl

theorem Words.thermalStop (d : Nat) : Words.Statement (.thermalStop d) := Words.event rfl

theorem Words.thermalResume : Words.Statement (.thermalResume) := Words.event rfl

theorem Words.sessionStart (p : Nat) (v : BitVec 64) : Words.Statement (.sessionStart p v) := Words.event rfl

theorem Words.sessionEnd (p : Nat) (v : BitVec 64) : Words.Statement (.sessionEnd p v) := Words.event rfl

theorem Words.chunkEnd (u : Nat) (g : Nat) : Words.Statement (.chunkEnd u g) := Words.event rfl

theorem Words.frameClose (p : Nat) (src : Nat) : Words.Statement (.frameClose p src) := Words.event rfl

theorem Words.clockEnd (p : Nat) : Words.Statement (.clockEnd p) := Words.event rfl

theorem Words.go (p : Nat) (v : BitVec 64) : Words.Statement (.go p v) := Words.event rfl

theorem Words.halt (p : Nat) (v : BitVec 64) : Words.Statement (.halt p v) := Words.event rfl

theorem Words.rpseal (p : Nat) (v : BitVec 128) : Words.Statement (.rpseal p v) := Words.event rfl

theorem Words.chunkHoldRelease (u : Nat) (g : Nat) : Words.Statement (.chunkHoldRelease u g) := Words.event rfl

theorem Words.replayStop (p : Nat) : Words.Statement (.replayStop p) := Words.event rfl

theorem Words.wordNotAnInstruction (reason : BitVec 8) (word : BitVec 32) (idx : Nat) (len : Nat) : Words.Statement (.wordNotAnInstruction reason word idx len) := Words.event rfl

theorem Words.l1SliceFailure (cluster : Nat) (pos : Nat) : Words.Statement (.l1SliceFailure cluster pos) := Words.event rfl

theorem Words.powerFailure : Words.Statement (.powerFailure) := Words.event rfl

end Sys2Proof.Laws
end

