-- ==== Sys2Proof/Tests/Slice0.lean ====
section
/-! SUPPORT. Small checks of the model: words of every instruction, ill-formed terms, and states that meet the hypotheses of the
statements. -/

namespace Sys2Proof.Tests
open Machine Safety

set_option Elab.async false

/-! ### Small states -/

/-- A device whose one gang has a run at PC 0 with 32 members and no region, in a launch with a handler: its launch record,
block and gang changed. -/
def running (fr : LaunchRec → LaunchRec) (fb : Block → Block) (fg : Gang → Gang) : State :=
  { State.reset with
    cur := some (0, 0)
    nextId := 1
    launches := [{ probeLaunch with r := fr probeRecord }]
    blocks := [fb { probeBlock with gangs := probeBlock.gangs.map fg }] }

/-- The same, unchanged. -/
def plain : State := running id id id

/-- A gang with threads of the mask changed. -/
def lanesAre (m : BitVec 32) (f : Lane → Lane) (G : Gang) : Gang := G.modLanes m fun _ t => f t

/-- A gang without an open run. -/
def idle (G : Gang) : Gang := { G with sheaf := none }

/-- The checks of Ready, on the context that a state gives a gang 0 of block 0. -/
def readyIn (i : Instr) (h : Hdr) (s : State) (c : Ctx) : Bool :=
  decide (s.focus.map (fun x => (x.1, x.2.1)) = some (0, 0)) && decide (c.run ≠ 0) && !s.chunkDue 0 0 && !c.G.held
    && c.G.chunk.isNone && (i.illegalHere c).isNone && (!i.mustEnd || h.e) && decide (c.pos + c.n < 24)
    && (List.range 32).all (fun l => (c.G.lane l).region.all fun r =>
      decide (r.count + c.n ≤ 64) && decide (r.cons.length < 16))
    && (decide (c.act &&& c.G.inRegion = 0) || i.regionLegal) && (!i.needsFull || c.G.fullSheaf) && !i.exhausts c.G c.L.r.accn
    && !i.waits c.G c.L.r.slots c.members && !c.G.isParked && !c.B.accBusy 0
    && (List.range 32).all (fun l => (c.G.lane l).woken.isNone) && (c.G.sheaf.all fun S => S.fp.isNone)
    && decide (s.loggedTrap 0 0 ≠ some 0x40) && !i.objectPending c.G && !i.awaits c.G

/-- A state whose checks hold has a context in which the instruction is ready. -/
theorem ready_of {i : Instr} {h : Hdr} {g : BitVec 3} {s : State} {P : Ctx → Bool}
    (w : (s.ctx 0 0 h h.words g).any (fun c => readyIn i h s c && P c) = true) : ∃ c, Ready i h g s c ∧ P c = true := by
  cases hc : s.ctx 0 0 h h.words g with
  | none => simp [hc] at w
  | some c =>
    have hu : c.u = 0 ∧ c.g = 0 := by
      unfold State.ctx at hc
      split at hc <;> try contradiction
      split at hc <;> try contradiction
      cases hc; exact ⟨rfl, rfl⟩
    simp only [hc, Option.any_some, readyIn, Bool.and_eq_true, Bool.or_eq_true, decide_eq_true_eq, List.all_eq_true,
      List.mem_range, Bool.not_eq_true', Option.all_eq_true, Option.isNone_iff_eq_none] at w
    obtain ⟨⟨⟨⟨⟨⟨⟨⟨⟨⟨⟨⟨⟨⟨⟨⟨⟨⟨⟨⟨w1, w2⟩, w3⟩, w4⟩, w5⟩, w6⟩, w7⟩, w8⟩, w9⟩, w10⟩, w11⟩, w12⟩, w13⟩, w14⟩, w15⟩, w16⟩, w17⟩, w18⟩, w19⟩, w20⟩, p⟩ := w
    refine ⟨c, ?_, p⟩
    exact {
      issues := by rw [hu.1, hu.2]; exact w1
      context := by rw [hu.1, hu.2]; exact hc
      runs := w2
      chunkOpen := by rw [hu.1, hu.2]; exact w3
      unlogged := by rw [hu.1, hu.2]; exact w18
      notHeld := w4
      objectFree := w19
      ordered := w20
      inOrder := .inl w5
      isInstr := w6
      ends := fun m => by rcases w7 with x | x; · rw [x] at m; contradiction
                          · exact x
      fits := ⟨by omega, fun x => by omega⟩
      words := fun l hl _ r hr => (w9 l hl r hr).1
      legal := fun x => by rcases w10 with y | y; · exact absurd y x
                           · exact y
      constraints := by
        unfold roomForConstraint
        split
        · exact fun l hl _ _ r hr => (w9 l hl r hr).2
        · trivial
      full := fun m => by rcases w11 with x | x; · rw [x] at m; contradiction
                          · exact x
      budget := w12
      board := w13
      notParked := w14
      accFree := by rw [hu.2]; exact w15
      woken := fun l hl _ => w16 l hl
      tokens := .inl w5
      notWithheld := fun _ S hS => w17 S hS }

/-- R158, R163-R165: words of control transfers and rejoin sets, field by field from the formats. -/
theorem test_decode_control_1 : ∀ x ∈ ([
    (0b1_0000001_101_000000000000000001010#32, .bra (Hdr.plain true) 5 10),
    (0b1_0000010_101_000000000000000001010#32, .call (Hdr.plain true) 5 10),
    (0b1_0000011_101_000000000000000000000#32, .nop (Hdr.plain true) 5),
    (0b1_0000011_101_000000000000000000001#32, .ret (Hdr.plain true) 5),
    (0b1_0000011_101_000000000000000000010#32, .exit (Hdr.plain true) 5),
    (0b1_0000011_101_000000000000000000011#32, .exitQ (Hdr.plain true) 5),
    (0b1_0000011_101_000000000000000000100#32, .yield (Hdr.plain true) 5),
    (0b1_0000011_101_000000000000000000101#32, .tret (Hdr.plain true) 5),
    (0b1_0000011_101_0001000_00000000000110#32, .brx (Hdr.plain true) 5 8),
    (0b1_0000011_101_0001000_00000000000111#32, .callx (Hdr.plain true) 5 8),
    (0b1_0000011_101_000000_000001001_001000#32, .bkpt (Hdr.plain true) 5 9),
    (0b1_0000011_101_000000_000001001_001001#32, .trap (Hdr.plain true) 5 9)] : List (Word × Instr)),
    decodeWords [x.1] = .ok x.2 1 := by decide

/-- R158, R163-R165: words of control transfers and rejoin sets, field by field from the formats. -/
theorem test_decode_control_2 : ∀ x ∈ ([
    (0b1_0000100_1011_00000000000000000000#32, .jenter (Hdr.plain true) 11),
    (0b1_0000100_1011_00000000000000000001#32, .jquit (Hdr.plain true) 11),
    (0b1_0000100_1011_00000000000000000010#32, .jwait (Hdr.plain true) 11),
    (0b1_0000100_1011_00000000000000000011#32, .jclr (Hdr.plain true) 11),
    (0b1_0000100_1011_000011_00000000000100#32, .jmask (Hdr.plain true) 11 3),
    (0b1_0000100_1011_000011_00000000000101#32, .jarr (Hdr.plain true) 11 3),
    (0b1_0000100_1011_000011_00000000000110#32, .jload (Hdr.plain true) 11 3)] : List (Word × Instr)),
    decodeWords [x.1] = .ok x.2 1 := by decide

/-- R158, R163-R165: words of predicates, field by field from the formats. -/
theorem test_decode_predicate : ∀ x ∈ ([
    (0b1_0000101_101_010_00000000_100_0000_110#32, .pand (Hdr.plain true) 5 2 4 6),
    (0b1_0000101_101_010_00010000_100_0000_110#32, .por (Hdr.plain true) 5 2 4 6),
    (0b1_0000101_101_010_00100000_100_0000_110#32, .pxor (Hdr.plain true) 5 2 4 6),
    (0b1_0000101_101_010_00110000_100_0000_110#32, .pandn (Hdr.plain true) 5 2 4 6),
    (0b1_0000101_101_010_01000000_100_0000000#32, .pnot (Hdr.plain true) 5 2 4),
    (0b1_0000101_101_010_0101_0000100_0000000#32, .pmov (Hdr.plain true) 5 2 4),
    (0b1_0000101_101_00001110_000011_0000_100#32, .pget (Hdr.plain true) 5 3 4),
    (0b1_0000110_101_010_000000000000000000#32, .elect (Hdr.plain true) 5 2)] : List (Word × Instr)),
    decodeWords [x.1] = .ok x.2 1 := by decide

/-- R158, R163-R165: words of register growth and special registers, field by field from the formats. -/
theorem test_decode_special : ∀ x ∈ ([
    (0b1_0000111_111000000_000001101_000000#32, .reggrow (Hdr.plain true) 13),
    (0b1_0001000_000010_000000_100001_000000#32, .sget (Hdr.plain true) 2 33),
    (0b1_0001000_000000_000100_100101_000001#32, .sset (Hdr.plain true) 4 37),
    (0b1_0001000_0000010_00000_101101_000010#32, .vgetGang (Hdr.plain true) 2 45),
    (0b1_0001001_000010_000000000000000000#32, .clkScalar (Hdr.plain true) 2),
    (0b1_0001001_0000010_00000000000000001#32, .clkVector (Hdr.plain true) 2)] : List (Word × Instr)),
    decodeWords [x.1] = .ok x.2 1 := by decide

/-- R158, R163-R165: words of packed forms, conversions and per-thread registers, field by field from the formats. -/
theorem test_decode_packed : ∀ x ∈ ([
    (0b1_1011100_101_0000010_00000000_000011#32, .vgetThread (Hdr.plain true) 5 2 3),
    (0b1_1010010_101_0000010_0000100_0000110#32, .faddF16x2 (Hdr.plain true) 5 2 4 6),
    (0b1_1010011_101_0000010_0000100_0000110#32, .fmulF16x2 (Hdr.plain true) 5 2 4 6),
    (0b1_1010100_101_0000010_0000100_0000110#32, .ffmaF16x2 (Hdr.plain true) 5 2 4 6),
    (0b1_1010101_101_0000010_0000100_0000110#32, .faddBf16x2 (Hdr.plain true) 5 2 4 6),
    (0b1_1010110_101_0000010_0000100_0000110#32, .fmulBf16x2 (Hdr.plain true) 5 2 4 6),
    (0b1_1010111_101_0000010_0000100_0000110#32, .ffmaBf16x2 (Hdr.plain true) 5 2 4 6),
    (0b1_1011000_101_0000010_0000100_0001101#32, .cvt (Hdr.plain true) 5 2 4 13),
    (0b1_1011001_101_0000010_0000100_0000_101#32, .cvtq (Hdr.plain true) 5 2 4 5),
    (0b1_1011010_101_0000010_0000100_0000_110#32, .cvtd (Hdr.plain true) 5 2 4 6),
    (0b1_1011011_101_0000010_00000000000000#32, .rand (Hdr.plain true) 5 2)] : List (Word × Instr)),
    decodeWords [x.1] = .ok x.2 1 := by decide

/-- R158, R163-R165: words of the scalar instructions, field by field from the formats. -/
theorem test_decode_scalar_1 : ∀ x ∈ ([
    (0b1_0010000_000010_000100_000110_000000#32, .sadd (Hdr.plain true) 2 4 6),
    (0b1_0010000_000010_000100_000110_000001#32, .ssub (Hdr.plain true) 2 4 6),
    (0b1_0010000_000010_000100_000110_000010#32, .smul (Hdr.plain true) 2 4 6),
    (0b1_0010000_000010_000100_000110_000011#32, .smulhN (Hdr.plain true) 2 4 6),
    (0b1_0010000_000010_000100_000110_000100#32, .smulhI (Hdr.plain true) 2 4 6),
    (0b1_0010000_000010_000100_000110_000101#32, .sand (Hdr.plain true) 2 4 6),
    (0b1_0010000_000010_000100_000110_000110#32, .sor (Hdr.plain true) 2 4 6),
    (0b1_0010000_000010_000100_000110_000111#32, .sxor (Hdr.plain true) 2 4 6),
    (0b1_0010000_000010_000100_000110_001000#32, .sandn (Hdr.plain true) 2 4 6),
    (0b1_0010000_000010_000100_000110_001001#32, .sshl (Hdr.plain true) 2 4 6),
    (0b1_0010000_000010_000100_000110_001010#32, .sshrN (Hdr.plain true) 2 4 6),
    (0b1_0010000_000010_000100_000110_001011#32, .sshrI (Hdr.plain true) 2 4 6)] : List (Word × Instr)),
    decodeWords [x.1] = .ok x.2 1 := by decide

/-- R158, R163-R165: words of the scalar instructions, field by field from the formats. -/
theorem test_decode_scalar_2 : ∀ x ∈ ([
    (0b1_0010000_000010_000100_000110_001100#32, .sminI (Hdr.plain true) 2 4 6),
    (0b1_0010000_000010_000100_000110_001101#32, .smaxI (Hdr.plain true) 2 4 6),
    (0b1_0010000_000010_000100_000110_001110#32, .sminN (Hdr.plain true) 2 4 6),
    (0b1_0010000_000010_000100_000110_001111#32, .smaxN (Hdr.plain true) 2 4 6),
    (0b1_0010000_000010_000100_000110_010000#32, .sadda (Hdr.plain true) 2 4 6),
    (0b1_0010000_000010_000100_000000010001#32, .smov (Hdr.plain true) 2 4),
    (0b1_0010000_000010_000100_000000010010#32, .spopc (Hdr.plain true) 2 4),
    (0b1_0010001_000010_000100_000000010101#32, .saddi (Hdr.plain true) 2 4 21),
    (0b1_0010010_000010_000100_000000_001101#32, .sshli (Hdr.plain true) 2 4 13),
    (0b1_0010011_000010_000000000000010101#32, .sli (Hdr.plain true) 2 21),
    (0b1_0010100_010_000_000100_000110_000010#32, .scmp (Hdr.plain true) 2 4 6 2),
    (0b1_0010101_000010_000100_000000010101#32, .saddai (Hdr.plain true) 2 4 21)] : List (Word × Instr)),
    decodeWords [x.1] = .ok x.2 1 := by decide

/-- R158, R163-R165: words of the scalar instructions, field by field from the formats. -/
theorem test_decode_scalar_3 : ∀ x ∈ ([
    (0b1_0010110_000010_000100_100_000010101#32, .sld (Hdr.plain true) 2 4 4 21),
    (0b1_0010110_000010_000100_110_000010101#32, .sldp (Hdr.plain true) 2 4 21),
    (0b1_0010111_000010_000100_100_000010101#32, .sst (Hdr.plain true) 2 4 4 21),
    (0b1_0010111_000010_000100_110_000010101#32, .sstp (Hdr.plain true) 2 4 21),
    (0b1_0011000_000010_000_101_000000001010#32, .sldparam (Hdr.plain true) 2 5 10),
    (0b1_0011001_000010_0000_0000100_0000000#32, .sfirst (Hdr.plain true) 2 4)] : List (Word × Instr)),
    decodeWords [x.1] = .ok x.2 1 := by decide

/-- R158, R163-R165: words of vector integer arithmetic, field by field from the formats. -/
theorem test_decode_integer_1 : ∀ x ∈ ([
    (0b1_0100000_101_0000010_0000100_0000110#32, .iadd (Hdr.plain true) 5 2 4 6),
    (0b1_0100001_101_0000010_0000100_0000110#32, .isub (Hdr.plain true) 5 2 4 6),
    (0b1_0100010_101_0000010_0000100_0000110#32, .imulLo (Hdr.plain true) 5 2 4 6),
    (0b1_0100011_101_0000010_0000100_0000110#32, .imulhI32 (Hdr.plain true) 5 2 4 6),
    (0b1_0100100_101_0000010_0000100_0000110#32, .imulhN32 (Hdr.plain true) 5 2 4 6),
    (0b1_0100101_101_0000010_0000100_0000110#32, .imad (Hdr.plain true) 5 2 4 6),
    (0b1_0100110_101_0000010_0000100_0000110#32, .iand (Hdr.plain true) 5 2 4 6),
    (0b1_0100111_101_0000010_0000100_0000110#32, .ior (Hdr.plain true) 5 2 4 6),
    (0b1_0101000_101_0000010_0000100_0000110#32, .ixor (Hdr.plain true) 5 2 4 6),
    (0b1_0101001_101_0000010_0000100_0000110#32, .ishl (Hdr.plain true) 5 2 4 6),
    (0b1_0101010_101_0000010_0000100_0000110#32, .ishrN (Hdr.plain true) 5 2 4 6),
    (0b1_0101011_101_0000010_0000100_0000110#32, .ishrI (Hdr.plain true) 5 2 4 6)] : List (Word × Instr)),
    decodeWords [x.1] = .ok x.2 1 := by decide

/-- R158, R163-R165: words of vector integer arithmetic, field by field from the formats. -/
theorem test_decode_integer_2 : ∀ x ∈ ([
    (0b1_0101100_101_0000010_0000100_0000110#32, .iminI32 (Hdr.plain true) 5 2 4 6),
    (0b1_0101101_101_0000010_0000100_0000110#32, .imaxI32 (Hdr.plain true) 5 2 4 6),
    (0b1_0101110_101_0000010_0000100_0000110#32, .iminN32 (Hdr.plain true) 5 2 4 6),
    (0b1_0101111_101_0000010_0000100_0000110#32, .imaxN32 (Hdr.plain true) 5 2 4 6),
    (0b1_0110000_101_0000010_0000100_0000110#32, .iadd64 (Hdr.plain true) 5 2 4 6),
    (0b1_0110001_101_0000010_0000100_0000110#32, .imadw (Hdr.plain true) 5 2 4 6),
    (0b1_0110010_101_010_0101_0000100_0000110#32, .icmp (Hdr.plain true) 5 2 5 4 6),
    (0b1_0110011_011_0000010_0000100_0000110#32, .isel (Hdr.plain true) 3 2 4 6),
    (0b1_0110100_101_0000010_0000100_0000011#32, .ibit (Hdr.plain true) 5 2 4 3),
    (0b1_0110101_101_0000010_0000100_0000110#32, .ibfe (Hdr.plain true) 5 2 4 6),
    (0b1_0110110_101_0000010_0000100_0000110#32, .ibfi (Hdr.plain true) 5 2 4 6),
    (0b1_0110111_101_0000010_0000100_0000110#32, .idivI32 (Hdr.plain true) 5 2 4 6)] : List (Word × Instr)),
    decodeWords [x.1] = .ok x.2 1 := by decide

/-- R158, R163-R165: words of vector integer arithmetic, field by field from the formats. -/
theorem test_decode_integer_3 : ∀ x ∈ ([
    (0b1_0111000_101_0000010_0000100_0000110#32, .idivN32 (Hdr.plain true) 5 2 4 6),
    (0b1_0111001_101_0000010_0000100_0000110#32, .iremI32 (Hdr.plain true) 5 2 4 6),
    (0b1_0111010_101_0000010_0000100_0000110#32, .iremN32 (Hdr.plain true) 5 2 4 6),
    (0b1_0111011_101_0000010_0000100_0010101#32, .iaddi (Hdr.plain true) 5 2 4 21),
    (0b1_0111100_101_0000010_0000100_00_01101#32, .ishli (Hdr.plain true) 5 2 4 13),
    (0b1_0111100_101_0000010_0000100_01_01101#32, .ishriN (Hdr.plain true) 5 2 4 13),
    (0b1_0111100_101_0000010_0000100_10_01101#32, .ishriI (Hdr.plain true) 5 2 4 13)] : List (Word × Instr)),
    decodeWords [x.1] = .ok x.2 1 := by decide

/-- R158, R163-R165: words of exchanges and folds, field by field from the formats. -/
theorem test_decode_exchange : ∀ x ∈ ([
    (0b1_0111101_101_0000010_0000100_0000110#32, .vshfl (Hdr.plain true) 5 2 4 6),
    (0b1_0111110_101_0000010_0000100_0000000#32, .vfirst (Hdr.plain true) 5 2 4),
    (0b1_0111110_101_0000010_0000100_01_01101#32, .vbcast (Hdr.plain true) 5 2 4 13),
    (0b1_0111110_101_0000010_0000100_1000_010#32, .vscan (Hdr.plain true) 5 2 4 2),
    (0b1_0111111_101_0000010_0000100_0001001#32, .vred (Hdr.plain true) 5 2 4 9)] : List (Word × Instr)),
    decodeWords [x.1] = .ok x.2 1 := by decide

/-- R158, R163-R165: words of F32, field by field from the formats. -/
theorem test_decode_f32 : ∀ x ∈ ([
    (0b1_1000000_101_0000010_0000100_0000110#32, .faddF32 (Hdr.plain true) 5 2 4 6),
    (0b1_1000001_101_0000010_0000100_0000110#32, .fsubF32 (Hdr.plain true) 5 2 4 6),
    (0b1_1000010_101_0000010_0000100_0000110#32, .fmulF32 (Hdr.plain true) 5 2 4 6),
    (0b1_1000011_101_0000010_0000100_0000110#32, .ffmaF32 (Hdr.plain true) 5 2 4 6),
    (0b1_1000100_101_0000010_0000100_0000110#32, .fminF32 (Hdr.plain true) 5 2 4 6),
    (0b1_1000101_101_0000010_0000100_0000110#32, .fmaxF32 (Hdr.plain true) 5 2 4 6),
    (0b1_1000110_101_010_0011_0000100_0000110#32, .fcmpF32 (Hdr.plain true) 5 2 3 4 6),
    (0b1_1000111_101_0000010_0000100_0000001#32, .ffunF32 (Hdr.plain true) 5 2 4 1),
    (0b1_1001000_101_0000010_0000100_0000110#32, .fdivF32 (Hdr.plain true) 5 2 4 6)] : List (Word × Instr)),
    decodeWords [x.1] = .ok x.2 1 := by decide

/-- R158, R163-R165: words of F64, field by field from the formats. -/
theorem test_decode_f64 : ∀ x ∈ ([
    (0b1_1001001_101_0000010_0000100_0000110#32, .faddF64 (Hdr.plain true) 5 2 4 6),
    (0b1_1001010_101_0000010_0000100_0000110#32, .fsubF64 (Hdr.plain true) 5 2 4 6),
    (0b1_1001011_101_0000010_0000100_0000110#32, .fmulF64 (Hdr.plain true) 5 2 4 6),
    (0b1_1001100_101_0000010_0000100_0000110#32, .ffmaF64 (Hdr.plain true) 5 2 4 6),
    (0b1_1001101_101_0000010_0000100_0000110#32, .fminF64 (Hdr.plain true) 5 2 4 6),
    (0b1_1001110_101_0000010_0000100_0000110#32, .fmaxF64 (Hdr.plain true) 5 2 4 6),
    (0b1_1001111_101_010_0100_0000100_0000110#32, .fcmpF64 (Hdr.plain true) 5 2 4 4 6),
    (0b1_1010000_101_0000010_0000100_0000101#32, .ffunF64 (Hdr.plain true) 5 2 4 5),
    (0b1_1010001_101_0000010_0000100_0000110#32, .fdivF64 (Hdr.plain true) 5 2 4 6)] : List (Word × Instr)),
    decodeWords [x.1] = .ok x.2 1 := by decide

/-- R158, R163-R165: words of loads and stores, field by field from the formats. -/
theorem test_decode_memory : ∀ x ∈ ([
    (0b1_1100000_101_0001000_0001010_0110_100#32, .ldg (Hdr.plain true) 5 8 10 6 4),
    (0b1_1100001_101_0001000_0001010_0110_100#32, .stg (Hdr.plain true) 5 8 10 6 4),
    (0b1_1100010_101_0001000_0001010_0110_100#32, .ldgAcq (Hdr.plain true) 5 8 10 6 4),
    (0b1_1100011_101_0001000_0001010_0110_100#32, .stgRel (Hdr.plain true) 5 8 10 6 4),
    (0b1_1100100_101_0001000_0001010_0101_100#32, .lds (Hdr.plain true) 5 8 10 5 4),
    (0b1_1100101_101_0001000_0001010_0101_100#32, .sts (Hdr.plain true) 5 8 10 5 4)] : List (Word × Instr)),
    decodeWords [x.1] = .ok x.2 1 := by decide

/-- R158, R163-R165: words of atomics, field by field from the formats. -/
theorem test_decode_atomic : ∀ x ∈ ([
    (0b1_1100110_101_0001000_0001010_110_0010#32, .atomg (Hdr.plain true) 5 8 10 6 2),
    (0b1_1100111_101_0001000_0001010_110_0010#32, .redg (Hdr.plain true) 5 8 10 6 2),
    (0b1_1101000_101_0001000_0001010_110_0010#32, .redgDet (Hdr.plain true) 5 8 10 6 2),
    (0b1_1101001_101_0001000_0001010_000_0010#32, .atoms (Hdr.plain true) 5 8 10 2),
    (0b1_1101010_101_0001000_0001010_000_0010#32, .reds (Hdr.plain true) 5 8 10 2)] : List (Word × Instr)),
    decodeWords [x.1] = .ok x.2 1 := by decide

/-- R158, R163-R165: words of fences, barriers, prefetch and buffers, field by field from the formats. -/
theorem test_decode_sync : ∀ x ∈ ([
    (0b1_1101011_10_01_00000000000000000000#32, .fence (Hdr.plain true) 2 1),
    (0b1_1101100_01_01_00_000100_000110_000000#32, .fencer (Hdr.plain true) 1 1 4 6),
    (0b1_1101101_101_000011_000000000000000#32, .barArrive (Hdr.plain true) 5 3),
    (0b1_1101101_101_000011_000000000000001#32, .barWait (Hdr.plain true) 5 3),
    (0b1_1101101_101_000011_000000000000010#32, .barArrwait (Hdr.plain true) 5 3),
    (0b1_1101101_101_000011_000000100_000011#32, .barCredit (Hdr.plain true) 5 3 4),
    (0b1_1101110_101_0000000_0001010_0110_010#32, .pfg (Hdr.plain true) 5 10 6 2),
    (0b1_1101111_101_00000000000_1101_000000#32, .bufFill (Hdr.plain true) 5 13),
    (0b1_1101111_101_00000000000_1101_000001#32, .bufTake (Hdr.plain true) 5 13),
    (0b1_1101111_101_00000000000_1101_000010#32, .bufFree (Hdr.plain true) 5 13)] : List (Word × Instr)),
    decodeWords [x.1] = .ok x.2 1 := by decide

/-- R158, R163-R165: words of jobs and accumulators, field by field from the formats. -/
theorem test_decode_jobs : ∀ x ∈ ([
    (0b1_1110000_101_001001_001000_000000000#32, .copy (Hdr.plain true) 5 9 8),
    (0b1_1110001_101_001001_001000_100_110_1_1_0#32, .mma (Hdr.plain true) 5 9 8 4 6 1 1),
    (0b1_1110010_101_0000010_0000100_0000_000#32, .accread (Hdr.plain true) 5 2 4 0),
    (0b1_1110011_101_0000010_0000100_0000_000#32, .accwrite (Hdr.plain true) 5 2 4 0),
    (0b1_1110100_101_0000010_0000100_00_1_0_000#32, .apatch (Hdr.plain true) 5 2 4 1 0 0),
    (0b1_1110101_101_000000000000_000_000000#32, .accctlClear (Hdr.plain true) 5 0),
    (0b1_1110101_101_001001_000000_000_000001#32, .accctlSave (Hdr.plain true) 5 9 0),
    (0b1_1110101_101_001001_000000_000_000010#32, .accctlLoad (Hdr.plain true) 5 9 0),
    (0b1_1110101_101_000000000000_000_000011#32, .accctlWait (Hdr.plain true) 5 0),
    (0b1_1110101_101_000000_000010_000_000100#32, .accctlOvf (Hdr.plain true) 5 2 0)] : List (Word × Instr)),
    decodeWords [x.1] = .ok x.2 1 := by decide

/-- R158, R163-R165: words of regions, field by field from the formats. -/
theorem test_decode_region : ∀ x ∈ ([
    (0b1_1111000_101_000000000000000001010#32, .rbegin (Hdr.plain true) 5 10),
    (0b1_1111001_101_0001000_0001010_0110_100#32, .rld (Hdr.plain true) 5 8 10 6),
    (0b1_1111010_101_0001000_0001010_0110_100#32, .rst (Hdr.plain true) 5 8 10 6 4),
    (0b1_1111011_101_000000000000000000000#32, .rend (Hdr.plain true) 5),
    (0b1_1111011_101_000000_00010101_0000001#32, .rabort (Hdr.plain true) 5 21),
    (0b1_1111011_101_0000010_00000000000010#32, .rstat (Hdr.plain true) 5 2)] : List (Word × Instr)),
    decodeWords [x.1] = .ok x.2 1 := by decide

/-- The same for each instruction of a list. -/
theorem ready_all {is : List Instr} {h : Hdr} {g : BitVec 3} {s : State} {P : Ctx → Bool}
    (w : is.all (fun i => (s.ctx 0 0 h h.words g).any fun c => readyIn i h s c && P c) = true) :
    ∀ i ∈ is, ∃ c, Ready i h g s c ∧ P c = true := fun i hi => ready_of (List.all_eq_true.mp w i hi)

/-- Any context. -/
def anyCtx (_ : Ctx) : Bool := true

/-- A header with a run's end, one with modifiers, one with an immediate extension, one with each kind of extra operand. -/
def ended : Hdr := Hdr.plain true
def going : Hdr := Hdr.plain false
def modified : Hdr := { going with mod := some ⟨3, true, true, false, 0, false, 0, 0, false⟩ }
def extended : Hdr := { going with imm := some 0x3FFFFF }
def third : Hdr := { going with ext := some (.vec 5) }
def scalarDest : Hdr := { going with ext := some (.sca 63) }

/-! ### The hypotheses of the statements about instructions -/

theorem test_hyp_VectorIntegerResults : ∀ i ∈ [Instr.iadd ended 7 3 2 1, .isub ended 7 3 2 1, .imulLo ended 7 3 2 1,
    .imulhI32 ended 7 3 2 1, .imulhN32 ended 7 3 2 1, .imad ended 7 3 2 1, .iand ended 7 3 2 1, .ior ended 7 3 2 1, .ixor ended 7 3 2 1,
    .iminI32 ended 7 3 2 1, .imaxI32 ended 7 3 2 1, .iminN32 ended 7 3 2 1, .imaxN32 ended 7 3 2 1, .iaddi ended 7 3 2 0x7F,
    .isel ended 6 3 2 0x7F], ∃ c, Ready i ended 7 plain c ∧ anyCtx c = true := ready_all (by decide)

/-- Every active lane's divisor is 1; the dividend is the most negative number. -/
theorem test_hyp_division : ∀ i ∈ [Instr.idivI32 going 7 3 2 1, .idivN32 going 7 3 2 1, .iremI32 going 7 3 2 1, .iremN32 going 7 3 2 1],
    ∃ c, Ready i going 7 (running id id (lanesAre (BitVec.allOnes 32) fun t => (t.setReg 1 1).setReg 2 0x80000000)) c ∧
      ((List.range 32).all fun l => !c.act.getLsbD l || decide (laneSrc c 1 l ≠ 0)) = true := ready_all (by decide +kernel)

theorem test_hyp_VectorBitResults : ∀ i ∈ [Instr.ishl going 7 3 2 1, .ishrN going 7 3 2 1, .ishrI going 7 3 2 1, .ishli going 7 3 2 31,
    .ishriN going 7 3 2 31, .ishriI going 7 3 2 0, .ibfe going 7 3 2 1, .ibfi going 7 3 2 1, .ibit going 7 3 2 11],
    ∃ c, Ready i going 7 plain c ∧ anyCtx c = true := ready_all (by decide)

theorem test_hyp_PairAndCompareResults : ∀ i ∈ [Instr.iadd64 ended 7 4 2 6, .imadw ended 7 4 2 1, .icmp ended 7 2 9 4 3],
    ∃ c, Ready i ended 7 plain c ∧ anyCtx c = true := ready_all (by decide)

theorem test_hyp_scalar : ∀ i ∈ [Instr.sadd ended 3 2 1, .ssub ended 3 2 1, .smul ended 3 2 1, .smulhN ended 3 2 1, .smulhI ended 3 2 1,
    .sand ended 3 2 1, .sor ended 3 2 1, .sxor ended 3 2 1, .sandn ended 3 2 1, .sshl ended 3 2 1, .sshrN ended 3 2 1, .sshrI ended 3 2 1,
    .sminI ended 3 2 1, .smaxI ended 3 2 1, .sminN ended 3 2 1, .smaxN ended 3 2 1, .sadda ended 3 2 1, .smov ended 63 2, .spopc ended 3 2,
    .saddi ended 3 2 0xFFF, .sshli ended 3 2 63, .sli ended 3 0x20000, .saddai ended 3 2 0x800, .scmp ended 2 3 4 9],
    ∃ c, Ready i ended 7 plain c ∧ anyCtx c = true := ready_all (by decide)

theorem test_hyp_predicate : ∀ i ∈ [Instr.pand ended 3 0 1 2, .por ended 3 0 1 2, .pxor ended 3 0 1 2, .pandn ended 3 0 1 2,
    .pnot ended 3 6 0, .pmov ended 3 7 111, .elect ended 3 1, .pget ended 3 5 1],
    ∃ c, Ready i ended 3 plain c ∧ anyCtx c = true := ready_all (by decide)

/-- Lane 31 is the lowest live one. -/
theorem test_hyp_gather : ∀ i ∈ [Instr.jmask ended 15 5, .jarr ended 0 5, .sfirst ended 5 2],
    ∃ c, Ready i ended 7 (running id id (lanesAre 0x7FFFFFFF fun t => { t with st := .exited })) c ∧
      ((c.G.lane 31).live && (List.range 31).all fun m => !(c.G.lane m).live) = true := ready_all (by decide)

theorem test_hyp_SpecialRegisterResults : ∀ i ∈ [Instr.sget ended 5 0x20, .sget ended 5 0x30, .vgetGang ended 5 0x2F,
    .vgetThread ended 7 5 0x0D, .sset ended 5 0x25, .clkScalar ended 5, .clkVector ended 4],
    ∃ c, Ready i ended 7 plain c ∧ c.G.chunk.isNone = true := ready_all (by decide)

theorem test_hyp_TransferResults : ∀ i ∈ [Instr.bra ended 3 0x100000, .call ended 3 1, .ret ended 3, .brx ended 3 4, .callx ended 3 4, .nop ended 3,
    .yield ended 3], ∃ c, Ready i ended 3 plain c ∧ anyCtx c = true := ready_all (by decide)

/-- Lanes 0 and 1 wait nowhere: exit may run, and exit.q may leave a set whose other member waits. -/
theorem test_hyp_exit : ∀ i ∈ [Instr.exit ended 7, .exitQ ended 7], ∃ c, Ready i ended 7 plain c ∧
    (c.G.events.isEmpty && !c.L.r.debug && (List.range 16).all fun j => decide (c.G.m j &&& c.act = 0)) = true := ready_all (by decide)

theorem test_hyp_exitQ : ∃ c, Ready (.exitQ ended 7) ended 7
      (running id id fun G => { (G.setM 15 7).setA 15 4 with sheaf := G.sheaf.map fun S => { S with members := 3 } }) c ∧
    (c.G.events.isEmpty && !c.L.r.debug && decide (c.G.m 15 &&& c.act ≠ 0)
      && decide (c.G.a 15 &&& ~~~c.act = c.G.m 15 &&& ~~~c.act)) = true := ready_of (by decide)

/-- A mask of threads may take a trap. -/
def trapsIn (c : Ctx) (m : BitVec 32) : Bool :=
  decide (m ≠ 0) && decide (m &&& c.members = m) && decide (c.L.r.handler ≠ noHandler) && c.G.chunk.isNone
    && (List.range 32).all fun l => !m.getLsbD l || (!(c.G.lane l).handler && (c.G.lane l).region.isNone)

theorem trapsTo_of {c : Ctx} {m : BitVec 32} (w : trapsIn c m = true) : TrapsTo c m := by
  simp only [trapsIn, Bool.and_eq_true, decide_eq_true_eq, Option.isNone_iff_eq_none, List.all_eq_true, List.mem_range,
    Bool.or_eq_true, Bool.not_eq_true'] at w
  obtain ⟨⟨⟨⟨w1, w2⟩, w3⟩, w4⟩, w5⟩ := w
  exact ⟨w1, w2, w3, fun l hl hm => by rcases w5 l hl with x | x; · rw [x] at hm; contradiction
                                       · exact x, w4⟩

theorem test_hyp_traps : ∀ i ∈ [Instr.bkpt ended 7 511, .trap ended 7 0, .tret ended 7], ∃ c, Ready i ended 7 plain c ∧ trapsIn c c.act = true :=
  ready_all (by decide)

/-- The divisor of lane 31 alone is 0. -/
theorem test_hyp_divideTrap : ∀ i ∈ [Instr.idivI32 going 7 3 2 1, .idivN32 going 7 3 2 1, .iremI32 going 7 3 2 1, .iremN32 going 7 3 2 1],
    ∃ c, Ready i going 7 (running id id (lanesAre 0x7FFFFFFF fun t => t.setReg 1 1)) c ∧
      (trapsIn c c.members && c.act.getLsbD 31 && decide (laneSrc c 1 31 = 0) && (List.range 31).all fun m => decide (laneSrc c 1 m ≠ 0)) = true :=
  ready_all (by decide +kernel)

theorem test_hyp_handlerReturn : ∃ c, Ready (.tret ended 7) ended 7 (running id id (lanesAre (BitVec.allOnes 32) fun t => { t with handler := true })) c ∧
    ((List.range 32).all fun l => !c.act.getLsbD l || (c.G.lane l).handler) = true := ready_of (by decide)

theorem test_hyp_RejoinAndGrowthResults : ∀ i ∈ [Instr.jenter ended 0, .jquit ended 15, .jwait ended 15, .jclr ended 15, .jload ended 15 3],
    ∃ c, Ready i ended 7 (running id id fun G => G.setM 15 (BitVec.allOnes 32)) c ∧
      decide (c.run &&& ~~~ c.G.m 15 = 0 ∧ c.G.a 15 = 0) = true := ready_all (by decide)

/-- A member of set 15 that exits; a jwait of threads outside their set, and a set whose waiters jclr and jload would forget. -/
theorem test_hyp_membershipTraps : (∃ c, Ready (.exit ended 7) ended 7 (running id id fun G => G.setM 15 0x80000000) c ∧
      (trapsIn c c.members && decide (c.G.m 15 &&& c.act ≠ 0)) = true) ∧
    (∃ c, Ready (.jwait ended 15) ended 7 (running id id fun G => G.setM 15 0x7FFFFFFF) c ∧ (trapsIn c c.members && decide (c.run &&& ~~~c.G.m 15 ≠ 0)) = true) ∧
    ∀ i ∈ [Instr.jclr ended 15, .jload ended 15 3], ∃ c, Ready i ended 7 (running id id fun G => G.setA 15 1) c ∧
      (trapsIn c c.members && decide (c.G.a 15 ≠ 0)) = true :=
  ⟨ready_of (by decide), ready_of (by decide), ready_all (by decide)⟩

/-- A request for the present budget, and one for 8 registers more. -/
theorem test_hyp_growth : (∃ c, Ready (.reggrow ended 112) ended 7 plain c ∧ decide (112 ≤ c.G.vb) = true) ∧
    (∃ c, Ready (.reggrow ended 24) ended 7 (running id id fun G => { G with vb := 16 }) c ∧ decide (c.G.vb < 24) = true) :=
  ⟨ready_of (by decide), ready_of (by decide)⟩

theorem test_hyp_FloatArithmeticResults : ∀ i ∈ [Instr.faddF32 modified 7 4 2 6, .fsubF32 modified 7 4 2 6, .fmulF32 modified 7 4 2 6,
    .ffmaF32 modified 7 4 2 6, .fdivF32 modified 7 4 2 6, .faddF64 modified 7 4 2 6, .fsubF64 modified 7 4 2 6, .fmulF64 modified 7 4 2 6,
    .ffmaF64 modified 7 4 2 6, .fdivF64 modified 7 4 2 6], ∃ c, Ready i modified 7 plain c ∧ anyCtx c = true := ready_all (by decide)

theorem test_hyp_FloatFunctionResults : ∀ i ∈ [Instr.fminF32 going 7 4 2 6, .fmaxF32 going 7 4 2 6, .fminF64 going 7 4 2 6, .fmaxF64 going 7 4 2 6,
    .fcmpF32 going 7 6 7 2 4, .fcmpF64 going 7 0 0 2 4, .ffunF32 going 7 4 2 0, .ffunF32 going 7 4 2 7, .ffunF64 going 7 4 2 4,
    .ffunF64 going 7 4 2 7], ∃ c, Ready i going 7 plain c ∧ anyCtx c = true := ready_all (by decide)

theorem test_hyp_packed : ∀ i ∈ [Instr.faddF16x2 third 7 4 2 6, .fmulF16x2 third 7 4 2 6, .ffmaF16x2 third 7 4 2 6, .faddBf16x2 third 7 4 2 6,
    .fmulBf16x2 third 7 4 2 6, .ffmaBf16x2 third 7 4 2 6], ∃ c, Ready i third 7 plain c ∧ anyCtx c = true := ready_all (by decide)

/-- Slot 0 is bound, to F16 in one launch and to F64 in another. -/
theorem test_hyp_conversion : ∀ fmt ∈ [3, 1], ∀ i ∈ [Instr.cvt modified 7 4 110 0, .cvt modified 7 4 110 99, .cvtq modified 7 4 110 0, .cvtd modified 7 4 110 0],
    ∃ c, Ready i modified 7 (running (fun r => { r with slots := r.slots.map (Option.map fun D => { D with fmt := fmt }) }) id id) c ∧
      ((c.L.r.slots.getD 0 none).any fun D => decide (D.fmt = fmt)) = true := by
  intro fmt hf
  simp only [List.mem_cons, List.not_mem_nil, or_false] at hf
  rcases hf with rfl | rfl
  · exact ready_all (by decide)
  · exact ready_all (by decide)

/-- Lane 31 alone is active under p0; no lane is under p1. -/
def oneLane : State := running id id (lanesAre 0x80000000 fun t => t.setPred 0 true)

theorem test_hyp_ExchangeResults : (∃ c, Ready (.vshfl going 7 3 2 1) going 7 plain c ∧ anyCtx c = true) ∧
    (∀ h ∈ [going, scalarDest], ∀ i ∈ [Instr.vfirst h 0 (if h = going then 3 else 0) 2, .vbcast h 0 (if h = going then 3 else 0) 2 31], ∃ c, Ready i h 0 oneLane c ∧
      (c.act.getLsbD 31 && (List.range 31).all fun m => !c.act.getLsbD m) = true) ∧
    (∀ i ∈ [Instr.vfirst going 1 3 2, .vbcast going 1 3 2 0], ∃ c, Ready i going 1 oneLane c ∧ decide (c.act = 0) = true) := by
  refine ⟨ready_of (by decide), ?_, ready_all (by decide)⟩
  intro h hh
  simp only [List.mem_cons, List.not_mem_nil, or_false] at hh
  rcases hh with rfl | rfl
  · exact ready_all (by decide)
  · exact ready_all (by decide)

theorem test_hyp_FoldAndRandomResults :
    (∀ i ∈ [Instr.vscan going 7 3 2 6, .vred going 7 3 2 10, .rand going 7 3], ∃ c, Ready i going 7 plain c ∧ decide (2 ≤ popcount c.act) = true) ∧
    (∃ c, Ready (.vred scalarDest 0 0 2 9) scalarDest 0 oneLane c ∧ decide (c.act = BitVec.twoPow 32 31) = true) ∧
    (∃ c, Ready (.vred going 1 3 2 0) going 1 oneLane c ∧ decide (c.act = 0) = true) :=
  ⟨ready_all (by decide), ready_of (by decide), ready_of (by decide)⟩

/-! ### Accesses to memory -/

/-- The same device with the first 16 TiB mapped onto themselves (R343), and one dirty byte in cluster 0's L1. -/
def mapped (fr : LaunchRec → LaunchRec) (fb : Block → Block) (fg : Gang → Gang) : State :=
  { running fr fb fg with
    mem := probeTables []
    parts := vset State.reset.parts 0 { State.reset.part 0 with troot := 0x20000 }
    l1 := [{ cluster := 0, line := 5, key := 0, data := 1, valid := BitVec.allOnes 128, dirty := 1, whole := 0 }] }

/-- The gang's members are lanes 0 and 31, whose register 9 holds 16 and 496. -/
def twoLanes (G : Gang) : Gang :=
  { G.modLanes (BitVec.allOnes 32) (fun l t => t.setReg 9 (BitVec.ofNat 32 (16 + 480 * (l / 31)))) with
    sheaf := G.sheaf.map fun S => { S with members := 0x80000001 } }

/-- The places of the lanes of an access. -/
def spotsOf (c : Ctx) (s : State) (a : Access) (las : List (Nat × Nat)) : List Spot :=
  las.filterMap fun x => match placeOf c a s x.2 with
    | .ok pa key => some { lane := x.1, va := x.2, pa := pa, key := key }
    | _ => none

/-- The checks of Served. -/
def servedIn (s : State) (line key : Nat) : Bool :=
  !(s.entry line key).bad && (s.entry line key).req.isNone && (s.entry line key).held.isEmpty
    && decide ((s.entry line key).sharers &&& s.dieFailed = 0) && (s.holdersOf line key).all fun d => !s.dieFailed.getLsbD d

theorem served_of {s : State} {line key : Nat} (w : servedIn s line key = true) : Served s line key := by
  simp only [servedIn, Bool.and_eq_true, decide_eq_true_eq, List.all_eq_true, Option.isNone_iff_eq_none, List.isEmpty_iff,
    Bool.not_eq_true'] at w
  exact ⟨w.1.1.1.1, ⟨w.1.1.1.2, w.1.1.2⟩, w.1.2, w.2⟩

/-- The checks of Reaches at those places. -/
def reachesIn (c : Ctx) (s : State) (a : Access) (las : List (Nat × Nat)) : Bool :=
  las.all (fun x => decide (x.2 % a.n = 0)) && c.G.parked.isNone && c.L.r.watch.isEmpty && c.G.chunk.isNone && decide (c.G.stored = 0)
    && decide (las = (spotsOf c s a las).map fun x => (x.lane, x.va))
    && (spotsOf c s a las).all fun x => decide (placeOf c a s x.va = .ok x.pa x.key) && decide (x.pa % 128 = x.va % 128) && s.local x.pa
      && servedIn s (lineOf x.pa) x.key && !s.poisoned x.key x.pa a.n

theorem reaches_of {c : Ctx} {s : State} {a : Access} {las : List (Nat × Nat)} (w : reachesIn c s a las = true) :
    Reaches c s a las (spotsOf c s a las) := by
  simp only [reachesIn, Bool.and_eq_true, decide_eq_true_eq, List.all_eq_true, Option.isNone_iff_eq_none, List.isEmpty_iff,
    Bool.not_eq_true'] at w
  obtain ⟨⟨⟨⟨⟨⟨w1, w2⟩, w3⟩, w4⟩, w5⟩, w6⟩, w7⟩ := w
  exact ⟨w1, w2, w3, w4, w5, w6, fun x hx => (w7 x hx).1.1.1, fun x hx => (w7 x hx).1.1.2,
    fun x hx => served_of (w7 x hx).1.2, fun x hx => (w7 x hx).2⟩

/-- The checks of ReachesSpad. -/
def reachesSpadIn (c : Ctx) (a : Access) (align : Nat) (las : List (Nat × Nat)) : Bool :=
  las.all (fun x => decide (x.2 % align = 0) && decide (x.2 + a.n ≤ c.L.r.scratch)) && c.L.r.bufs.all (fun d => decide (d.2 = 0))
    && c.L.r.watch.isEmpty && c.G.chunk.isNone

/-- The two members, at addresses within lines, one of them the last aligned one of its line. -/
def memState : State := mapped id id twoLanes

/-- All 32 members, as a scalar write needs them (R37). -/
def fullState : State := mapped id id id

theorem test_hyp_vectorLoads : (∀ i ∈ [Instr.ldg going 7 8 9 2 4, .ldgAcq going 7 8 9 2 4],
      ∃ c, Ready i going 7 memState c ∧ reachesIn c memState (Access.load 4) (globalAt c 2 9) = true) ∧
    (∃ c, Ready (.ldg going 7 8 9 2 6) going 7 memState c ∧ reachesIn c memState (Access.load 16) (globalAt c 2 9) = true) ∧
    (∃ c, Ready (.ldg going 7 8 9 2 1) going 7 memState c ∧ reachesIn c memState (Access.load 1) (globalAt c 2 9) = true) :=
  ⟨ready_all (by decide +kernel), ready_of (by decide +kernel), ready_of (by decide +kernel)⟩

/-- The one place of a scalar access at its lowest member. -/
def scalarAt (c : Ctx) (s : State) (a : Access) (ea : Nat) : Bool :=
  let las := [(lowest c.members, ea)]
  reachesIn c s { a with scalar := true } las && decide (ea = (((c.G.sreg 2).toNat + c.h.immOf (16#9) true * 8) % (2 ^ 72 : Int)).toNat)

theorem test_hyp_scalarLoads : (∃ c, Ready (.sld going 5 2 1 16) going 7 fullState c ∧ scalarAt c fullState (Access.load 1) 128 = true) ∧
    (∃ c, Ready (.sld going 5 2 3 16) going 7 fullState c ∧ scalarAt c fullState (Access.load 2) 128 = true) ∧
    (∃ c, Ready (.sld going 5 2 5 16) going 7 fullState c ∧ scalarAt c fullState (Access.load 8) 128 = true) ∧
    (∃ c, Ready (.sldp going 5 2 16) going 7 fullState c ∧ (scalarAt c fullState (Access.load 16) 128
      && decide (fieldAt (fullState.plainBytes 0 0 128 16) 9 7 = 0)) = true) :=
  ⟨ready_of (by decide +kernel), ready_of (by decide +kernel), ready_of (by decide +kernel), ready_of (by decide +kernel)⟩

theorem test_hyp_vectorStores : (∃ c, Ready (.stg going 7 8 9 2 6) going 7 memState c ∧
      reachesIn c memState (Access.store 16) (globalAt c 2 9) = true) ∧
    (∃ c, Ready (.stgRel going 7 8 9 2 4) going 7 memState c ∧ (reachesIn c memState (Access.store 4) (globalAt c 2 9)
      && !(spotsOf c memState (Access.store 4) (globalAt c 2 9)).isEmpty && memState.remote.isEmpty && !memState.writesPending
      && !memState.dieFailed.getLsbD (clusterOf c.B.core / 8)
      && memState.l1.all (fun y => memState.local (y.line * 128)) && decide (2 ≤ going.scope)) = true) :=
  ⟨ready_of (by decide +kernel), ready_of (by decide +kernel)⟩

theorem test_hyp_scalarStores : (∃ c, Ready (.sst going 5 2 5 16) going 7 fullState c ∧ scalarAt c fullState (Access.store 8) 128 = true) ∧
    (∃ c, Ready (.sstp going 5 2 16) going 7 fullState c ∧ scalarAt c fullState (Access.store 16) 128 = true) :=
  ⟨ready_of (by decide +kernel), ready_of (by decide +kernel)⟩

/-- No L1 holds a dirty byte, and none holds two copies of a line. -/
theorem test_hyp_noDirty : noDirty plain ∧ linesOnce memState := ⟨fun _ h => absurd h (by simp [plain, running, State.reset]), List.pairwise_singleton ..⟩

/-- The last words of a scratchpad of 512 bytes. -/
theorem test_hyp_LocalAccesses :
    (∀ i ∈ [Instr.lds going 7 8 9 0 6, .sts going 7 8 9 0 6],
      ∃ c, Ready i going 7 (running (fun r => { r with scratch := 512 }) id twoLanes) c ∧
        (reachesSpadIn c (Access.load 16) 16 (spadAt c 9 0) && reachesSpadIn c (Access.store 16) 16 (spadAt c 9 0) && Memory.wf c.B.spad) = true) ∧
    (∃ c, Ready (.sldparam going 5 5 0xFF8) going 7 plain c ∧ decide ((0xFF8#12).toNat % 8 = 0) = true) ∧
    (∃ c, Ready (.sldparam going 5 6 0xFF0) going 7 plain c ∧ decide ((0xFF0#12).toNat % 16 = 0 ∧ fieldAt c.L.r.param (0xFF0 + 9) 7 = 0) = true) :=
  ⟨ready_all (by decide +kernel), ready_of (by decide +kernel), ready_of (by decide +kernel)⟩

/-- The conditions of the fences' clauses. -/
def fenceAt (s : State) (c : Ctx) : Bool :=
  c.G.parked.isNone && s.remote.isEmpty && !s.writesPending && !s.dieFailed.getLsbD (clusterOf c.B.core / 8) && s.l1.all fun z => s.local (z.line * 128)

theorem test_hyp_FenceResults : (∀ i ∈ [Instr.fence going 3 3, .fence going 1 0, .fence going 2 2], ∃ c, Ready i going 7 memState c ∧ fenceAt memState c = true) ∧
    (∃ c, Ready (.fencer going 3 2 2 3) going 7 (mapped id id fun G => G.setSreg 3 1) c ∧
      (fenceAt (mapped id id fun G => G.setSreg 3 1) c && decide ((c.G.sreg 3).extractLsb' 0 64 ≠ 0)) = true) ∧
    (∃ c, Ready (.fencer going 3 2 2 3) going 7 memState c ∧ decide ((c.G.sreg 3).extractLsb' 0 64 = 0) = true) ∧
    (∃ c, Ready (.pfg going 7 9 2 2) going 7 memState c ∧ anyCtx c = true) :=
  ⟨ready_all (by decide +kernel), ready_of (by decide +kernel), ready_of (by decide +kernel), ready_of (by decide +kernel)⟩

/-- A compare value in register 5. -/
theorem test_hyp_AtomicIssue : (∃ c, Ready (.atomg third 7 8 9 2 9) third 7 memState c ∧ (reachesIn c memState (Access.atomic 4 true) (globalAt c 2 9)
      && c.G.away.isEmpty && memState.remote.isEmpty && !memState.writesPending && memState.l1.all fun y => memState.local (y.line * 128)) = true) ∧
    (∃ c, Ready (.redg going 7 8 9 2 10) going 7 memState c ∧ (reachesIn c memState (Access.atomic 4 false) (globalAt c 2 9)
      && c.G.away.isEmpty) = true) := ⟨ready_of (by decide +kernel), ready_of (by decide +kernel)⟩

/-- The launch is deterministic, and each lane's SEQ is the last of its 37 bits. -/
def detState : State :=
  mapped (fun r => { r with det := true }) id fun G => lanesAre (BitVec.allOnes 32) (fun t => { t with seq := 2 ^ 37 - 1 }) (twoLanes G)

theorem test_hyp_deterministicIssue : ∃ c, Ready (.redgDet going 7 8 9 2 7) going 7
      detState c ∧
    (reachesIn c detState { Access.atomic 4 false with rd := false, det := true } (globalAt c 2 9) && decide (c.L.status = 0)
      && (List.range 32).all fun l => decide ((c.G.lane l).seq < 2 ^ 37)) = true := ready_of (by decide +kernel)

theorem test_hyp_ScratchpadAtomics : (∃ c, Ready (.atoms third 7 8 9 9) third 7 (running id id twoLanes) c ∧
      reachesSpadIn c (Access.atomic 4 true) 4 (spadAt c 9 0) = true) ∧
    (∃ c, Ready (.reds going 7 8 9 0) going 7 (running id id twoLanes) c ∧ reachesSpadIn c (Access.atomic 4 false) 4 (spadAt c 9 0) = true) :=
  ⟨ready_of (by decide +kernel), ready_of (by decide +kernel)⟩

/-! ### Barriers and buffers -/

/-- A scratchpad with an object at offset 0 whose QUOTA is 33. -/
def quota33 : List Host.Cell := writeLE [] 0 4 33

/-- One arrival beyond the quota, at it, and below it. -/
theorem test_hyp_arrival : Memory.wf quota33 = true ∧ readLE quota33 0 4 < readLE quota33 4 4 + 34 ∧
    readLE quota33 4 4 + 33 = readLE quota33 0 4 ∧ readLE quota33 4 4 + 32 ≤ readLE quota33 0 4 := by decide

/-- Every clause of the barriers, on the object at offset 0. -/
theorem test_hyp_BarrierResults : (∀ i ∈ [Instr.barArrive ended 7 3, .barArrwait ended 7 3, .barWait ended 7 3],
      ∃ c, Ready i ended 7 (running id (fun b => { b with spad := quota33 }) id) c ∧ (decide (c.act ≠ 0) && c.G.mau.isEmpty && !c.L.r.debug
        && c.G.chunk.isNone && (List.range 16).all (fun k => (c.L.r.bufAt k).isNone) && decide (16 ≤ c.L.r.scratch)
        && (c.B.arrivals 0 1 (lanesOf c.act)).2.2.isEmpty) = true) ∧
    (∃ c, Ready (.barCredit going 0 3 33) going 0 (running id (fun b => { b with spad := quota33 }) (lanesAre 1 fun t => t.setPred 0 true)) c ∧
      ((c.B.arrivals 0 33 (lanesOf c.act)).2.2.isEmpty && decide (c.act ≠ 0)) = true) := ⟨ready_all (by decide +kernel), ready_of (by decide +kernel)⟩

/-- A declared buffer 0 in a state, and no other. -/
def buffered (st : BitVec 2) : State :=
  running (fun r => { r with bufs := r.bufs.set 0 (64, 64) }) (fun b => { b with bufs := vset b.bufs 0 st }) id

theorem test_hyp_BufferResults :
    (∃ c, Ready (.bufFill going 7 0) going 7 (buffered 0) c ∧ decide (c.act ≠ 0 ∧ (c.L.r.bufs.getD 0 (0, 0)).2 ≠ 0 ∧ vget c.B.bufs 0 0 = 0) = true) ∧
    (∃ c, Ready (.bufTake going 7 0) going 7 (buffered 2) c ∧ decide (c.act ≠ 0 ∧ (c.L.r.bufs.getD 0 (0, 0)).2 ≠ 0 ∧ vget c.B.bufs 0 0 = 2) = true) ∧
    (∃ c, Ready (.bufFree going 7 0) going 7 (buffered 3) c ∧ decide (c.act ≠ 0 ∧ (c.L.r.bufs.getD 0 (0, 0)).2 ≠ 0 ∧ vget c.B.bufs 0 0 = 3) = true) ∧
    (∃ c, Ready (.bufFill going 7 0) going 7 (buffered 1) c ∧ (trapsIn c c.members && decide (vget c.B.bufs 0 0 ≠ 0)) = true) ∧
    (∃ c, Ready (.bufTake going 7 15) going 7 (buffered 0) c ∧ (trapsIn c c.members && decide ((c.L.r.bufs.getD 15 (0, 0)).2 = 0)) = true) ∧
    (∃ c, Ready (.bufFree going 0 0) going 0 (buffered 0) c ∧ decide (c.act = 0) = true) :=
  ⟨ready_of (by decide +kernel), ready_of (by decide +kernel), ready_of (by decide +kernel), ready_of (by decide +kernel), ready_of (by decide +kernel), ready_of (by decide +kernel)⟩

/-! ### Regions -/

/-- The members are in a region that has read one line, up to its last word but one. -/
def inRegion (n : Nat) (G : Gang) : Gang :=
  let ls : List RLine := (List.range 7).map fun k => { line := k + 1, va := BitVec.ofNat 72 (128 * (k + 1)), key := 0, snap := none }
  let r : Region := { fallback := 0x80, count := n, inputs := [], lines := ls, cons := [], stores := [], tags := [] }
  lanesAre (BitVec.allOnes 32) (fun t => { t with region := some r }) (twoLanes G)

theorem test_hyp_RegionControl : (∃ c, Ready (.rbegin going 7 1) going 7 plain c ∧ anyCtx c = true) ∧
    (∃ c, Ready (.rend ended 0) ended 0 (running id id (inRegion 63)) c ∧ decide (c.act = 0) = true) ∧
    (∀ i ∈ [Instr.rend ended 7, .rabort ended 7 0xFF], ∃ c, Ready i ended 7 (running id id (inRegion 63)) c ∧
      (decide (c.act ≠ 0) && c.G.mau.isEmpty && c.G.chunk.isNone) = true) ∧
    (∃ c, Ready (.rstat going 7 5) going 7 plain c ∧ anyCtx c = true) :=
  ⟨ready_of (by decide +kernel), ready_of (by decide +kernel), ready_all (by decide +kernel), ready_of (by decide +kernel)⟩

/-- Every member in such a region, and no line in an L1. -/
def regionState : State := { mapped id id (inRegion 0) with l1 := [] }

/-- An access to an eighth line, and one to a line that the region has. -/
theorem test_hyp_RegionAccesses :
    (∃ c, Ready (.rld going 7 8 9 2) going 7 regionState c ∧
      (reachesIn c regionState { Access.load 4 with fetch := false, region := true } (globalAt c 2 9)
        && (spotsOf c regionState { Access.load 4 with fetch := false, region := true } (globalAt c 2 9)).all fun x =>
          (c.G.lane x.lane).region.any fun r => decide (r.inputs.length < 8)
            && (r.lines.any (fun y => decide (y.line = lineOf x.pa)) || decide (r.lines.length < 8))) = true) ∧
    (∃ c, Ready (.rst going 7 8 9 2 4) going 7 regionState c ∧
      (reachesIn c regionState { Access.store 4 with region := true } (globalAt c 2 9)
        && (spotsOf c regionState { Access.store 4 with region := true } (globalAt c 2 9)).all fun x =>
          (c.G.lane x.lane).region.any fun r => decide (r.stores.length < 8)
            && (r.lines.any (fun y => decide (y.line = lineOf x.pa)) || decide (r.lines.length < 8))) = true) :=
  ⟨ready_of (by decide +kernel), ready_of (by decide +kernel)⟩

/-! ### Jobs -/

/-- A scratchpad with a card at 256, that copies 4 bytes from 0 to 64, and a parameter block of one row and column at 512. -/
def cards : List Host.Cell :=
  let m := writeLE (writeLE (writeLE [] 256 4 0x225) 264 8 0x100000001) 272 8 0x100000001
  let m := writeLE (writeLE (writeLE (writeLE m 296 4 64) 368 4 1) 392 4 4) 400 4 0x101
  writeLE (writeLE (writeLE (writeLE (writeLE (writeLE m 408 4 64) 424 4 4) 516 4 16) 520 4 32) 524 4 16) 528 4 0x101

/-- Lane 31 alone is active under p0; s2 points at the card, s3 at the parameter block. -/
def jobState : State :=
  running id (fun b => { b with spad := cards }) fun G => ((lanesAre 0x80000000 (fun t => t.setPred 0 true) G).setSreg 2 256).setSreg 3 512

/-- The launch is neither recorded nor replayed. -/
def unrecordedIn (s : State) (c : Ctx) : Bool :=
  c.L.number.isNone && (s.replayOf 0).isNone && c.G.chunk.isNone && decide (c.L.status = 0)

theorem test_hyp_JobIssue :
    (∃ c, Ready (.copy going 0 2 5) going 0 jobState c ∧ (unrecordedIn jobState c && decide (c.act ≠ 0) &&
      (let r := checkJobs (fun b => checkCopy c 2 b 5) c.B (cardOffsets c 2)
       decide (r.1.length = 1) && r.2.1.isEmpty && r.2.2.isNone && decide (((jobState.coreJobs c.B.core).filter Job.isCopy).length + r.1.length ≤ 64))) = true) ∧
    (∃ c, Ready (.mma going 0 3 5 0 0 1 0) going 0 jobState c ∧ (unrecordedIn jobState c && decide (c.act ≠ 0) &&
      (let r := checkJobs (checkMma 0 0 true false 3 5 c) c.B (cardOffsets c 3)
       decide (r.1.length = 1) && r.2.1.isEmpty && r.2.2.isNone && decide (((jobState.coreJobs c.B.core).filter Job.isMma).length + r.1.length ≤ 32))) = true) ∧
    (∀ i ∈ [Instr.copy going 1 2 5, .mma going 1 3 5 0 0 1 0], ∃ c, Ready i going 1 jobState c ∧ (unrecordedIn jobState c && decide (c.act = 0)) = true) :=
  ⟨ready_of (by decide +kernel), ready_of (by decide +kernel), ready_all (by decide +kernel)⟩

/-- The last tile, the last pair within the budget, and 16 KiB of the scratchpad. -/
theorem test_hyp_accumulatorIssue : ∀ i ∈ [Instr.accread going 0 94 9 7, .accwrite going 0 94 9 7, .apatch going 0 94 9 1 0 7, .accctlClear going 0 7,
      .accctlSave going 0 2 7, .accctlLoad going 0 2 7, .accctlWait going 0 7, .accctlOvf going 0 5 7],
    ∃ c, Ready i going 0 jobState c ∧ (unrecordedIn jobState c && decide (c.act ≠ 0) &&
      (List.range 32).all (fun l => (c.B.frozenFor c.G l 7).isNone)
      && reachesSpadIn c (Access.store 16384) 16 ((lanesOf c.act).map fun l => (l, 256))
      && reachesSpadIn c (Access.load 16384) 16 ((lanesOf c.act).map fun l => (l, 256))) = true := ready_all (by decide +kernel)

/-! ### The hypotheses of the statements about events: scheduling -/

theorem test_hyp_SheafFormation :
    (plain.block? 0).isSome ∧ (plain.launchOf 0).isSome ∧ plain.canIssue 0 0 = true ∧
    ((plain.gang? 0 0).any fun G => decide (G.idx = 0) && G.sheaf.isSome) = true ∧
    (let s := running id id fun G => idle (G.modLane 31 fun t => { t with waitCount := 32, ymark := true })
     s.canIssue 0 0 = true ∧ ((s.gang? 0 0).any fun G => G.sheaf.isNone && decide ((G.lane 31).waitCount = 32)) = true) ∧
    (let s := running (fun r => { r with det := true }) id fun G => idle (lanesAre (BitVec.allOnes 32) (fun t => { t with waitCount := 31 }) G)
     s.canIssue 0 0 = true ∧ ((s.gang? 0 0).any fun G => G.sheaf.isNone && (List.range 32).all fun l => decide ((G.lane l).waitCount < 32)) = true) := by
  decide +kernel

/-- A deterministic hold of 65,536 runs, by the first of two gangs of quadrant 0. -/
def longHold : State :=
  { running (fun r => { r with det := true }) (fun b => { b with gangs := b.gangs ++ b.gangs.map fun G => { G with idx := 4, runs := 0 } })
      (fun G => idle { G with runs := 65536 }) with holders := [(0, 0, 0, 0, 0)] }

theorem test_hyp_forcedSwitch : longHold.heldBy 0 0 0 = some (0, 0) ∧ longHold.order 0 0 0 = [] ++ (0, 0) :: [(0, 4)] ∧
    ((longHold.gang? 0 0).any fun G => decide (65536 ≤ G.runs) && G.sheaf.isNone) = true ∧
    ((longHold.launchOf 0).any fun L => L.r.det) = true := by decide +kernel

/-- Two writes to one register under way. -/
theorem test_hyp_loadResponse : ((running id id fun G => { G with resp := [{ writes := [(31, 3, 1), (31, 3, 2)], far := true }] }).gang? 0 0).any
    (fun G => (G.resp[0]?).isSome) = true := by decide +kernel

/-- A gang whose threads have exited, the last of its block, and one of two. -/
theorem test_hyp_gangDrain :
    (let s := running id id fun G => idle (lanesAre (BitVec.allOnes 32) (fun t => { t with st := .exited }) G)
     ((s.block? 0).any fun b => b.jobs.isEmpty && decide (b.gangs.length = 1)) = true ∧ (s.launch? 0).isSome ∧
     ((s.gang? 0 0).any fun G => decide (G.live = 0) && G.settled && !G.drained) = true) ∧
    (let s := running id (fun b => { b with gangs := b.gangs ++ b.gangs.map fun G => { G with idx := 1 } }) fun G => idle (lanesAre (BitVec.allOnes 32) (fun t => { t with st := .exited }) G)
     ((s.gang? 0 1).any fun G => !G.drained) = true ∧ ((s.gang? 0 0).any fun G => decide (G.live = 0) && G.settled && !G.drained) = true) := by decide +kernel

/-- n gangs of quadrant 0 with budgets of 112, the first asking for 24 registers beside its 16 since time 0. -/
def crowded (n : Nat) : State :=
  let other (k : Nat) (G : Gang) : Gang := { idle G with idx := k + 1, grow := none, vb := 112, drained := decide ((k + 1) % 4 ≠ 0) }
  { running id (fun b => { b with gangs := b.gangs ++ (List.range (4 * n)).flatMap (fun k => b.gangs.map (other k)) })
      (fun G => { idle G with grow := some (24, 0), vb := 16 }) with time := 1048576 }

/-- The first gang of quadrant 0 asks for registers, with or without room for them. -/
def asksFirst (s : State) (room : Bool) : Bool :=
  (s.quadOrder 0 0).head?.any (fun x => decide (x.1 = 0 ∧ x.2.idx = 0 ∧ 8 ≤ x.2.vb) && x.2.grow.isSome
      && (decide (x.2.asks ≤ s.freeGranules 0 0) == room))
    && ((s.quadOrder 0 0).drop 1).all fun x => !decide (x.1 = 0 ∧ x.2.idx = 0)

/-- With exactly the granules that it asks for, and with none. -/
theorem test_hyp_reggrowGrant : asksFirst (crowded 13) true = true ∧ asksFirst (crowded 14) false = true := by decide +kernel

/-- A quadrant whose first gang waits without room grants nothing. -/
theorem grants_none {s : State} (h : asksFirst s false = true) : s.grants 0 0 = s := by
  unfold asksFirst at h
  cases hq : s.quadOrder 0 0 with
  | nil => simp [hq] at h
  | cons x t =>
    obtain ⟨u, G⟩ := x
    simp only [hq, List.head?_cons, Option.any_some, Bool.and_eq_true, beq_iff_eq, decide_eq_false_iff_not] at h
    have hg : G.grow.isSome = true := h.1.1.2
    have first (t' : List (Nat × Gang)) : s.grantFrom 0 0 ((u, G) :: t') = s := by
      rw [State.grantFrom, if_neg (by cases hn : G.grow <;> simp_all), if_pos (by omega)]
    unfold State.grants
    simp only [hq, List.filter_cons, hg, if_true]
    split <;> exact first _

/-- A read of this device's memory that translates leaves the state as it is. -/
theorem virtRead_here {s : State} {p va n : Nat} {need : Needs} (h : ((s.virtCheck p va n need).isNone && (s.virtMissing p va n need).isEmpty
    && (match s.virtBytes p va n need with | .ok _ => true | .error _ => false)) = true) : ∃ bs, s.virtRead p va n need = (s, .ok bs) := by
  simp only [Bool.and_eq_true, Option.isNone_iff_eq_none, List.isEmpty_iff] at h
  obtain ⟨⟨h1, h2⟩, h3⟩ := h
  unfold State.virtRead
  rw [h1, h2]
  cases hb : s.virtBytes p va n need with
  | ok bs => exact ⟨bs, rfl⟩
  | error _ => simp [hb] at h3

/-- The last gang of the quadrant gives way to the first, which waits since 1,048,576 cycles. -/
theorem test_hyp_eviction : (crowded 14).grants 0 0 = crowded 14 ∧ ((crowded 14).firstWaiter 0 0).any (fun w => decide (w.1 = 0 ∧ w.2.idx = 0)
      && w.2.grow.any fun x => decide (x.2 + 1048576 ≤ (crowded 14).time)) = true ∧
    ((crowded 14).quadOrder 0 0).getLast?.any (fun x => !x.2.evicted && x.2.evictable && decide (x.2.idx = 56)) = true :=
  ⟨grants_none (by decide +kernel), by decide +kernel, by decide +kernel⟩

/-- A launch with a block to place, and the same with a saved one. -/
def unplaced : State := { mapped id id id with blocks := [], launches := [{ probeLaunch with next := 0 }], cur := none }
def savedOne : State := { unplaced with launches := [{ probeLaunch with saved := [(probeBlock, 0, 256)] }] }

theorem test_hyp_placeBlock : (unplaced.launch? 0).isSome ∧ unplaced.nextPlacement 0 = some (0, 0) ∧
    ((unplaced.launch? 0).any fun L => L.number.isNone && match L.nextBlock with | some (.fresh n) => decide (n = 0) | _ => false) = true ∧ (∀ x ∈ unplaced.blocks, x.uid < unplaced.nextId) := by
  decide +kernel

theorem test_hyp_placeSaved : savedOne.nextPlacement 0 = some (0, 0) ∧
    ((savedOne.launch? 0).any fun L => L.number.isNone && decide (L.part = 0 ∧ savedOne.savedAt L 0 = 0)
      && match L.nextBlock with | some (.saved x) => decide (x.2 = (0, 256)) | _ => false) = true ∧
    ∃ bs, savedOne.virtRead 0 0 256 ⟨true, false, false⟩ = (savedOne, .ok bs) :=
  ⟨by decide +kernel, by decide +kernel, virtRead_here (by decide +kernel)⟩

/-- Every thread waits in set 0, whose arrivals are not all its members. -/
theorem test_hyp_blockStall :
    (let s := running id id fun G => (idle (lanesAre (BitVec.allOnes 32) (fun t => { t with st := .blocked (.jwait 0 0) }) G)).setM 0 (BitVec.allOnes 32)
     ((s.block? 0).any fun b => b.stalled && b.gangs.all fun G => decide (G.idx = 0) && G.chunk.isNone) = true ∧ (s.launch? 0).isSome) := by decide +kernel

/-- A context pool of 256 KiB at 1 MiB, and a block at rest; a block that is not. -/
def pooled : State :=
  { mapped (fun r => { r with scratch := 0, accn := 0 }) id idle with
    parts := vset State.reset.parts 0 { State.reset.part 0 with troot := 0x20000, ctxBase := 0x100000, ctxSize := 0x40000 }, cur := none }

theorem test_hyp_preemption :
    (let t : State := { pooled with blocks := pooled.blocks.map fun b => if b.uid ∈ [0] ∧ b.stop = none then { b with stop := some pooled.time } else b }
     ((t.block? 0).any fun b => pooled.quiet b && !b.parked && b.gangs.all (fun G => decide (G.idx = 0 ∧ G.sheaf = none ∧ G.inRegion = 0))
       && (pooled.launch? b.launch).any fun L =>
         let n := (b.layout L).size
         let P := pooled.part L.part
         (t.poolPlace L.part n (P.poolSize - if t.leavesForPriority b then t.poolReserve L.part else 0)).any fun off =>
           (t.virtCheck L.part ((P.poolBase + off) % 2 ^ 72) n ⟨false, true, false⟩).isNone) = true) ∧
    ((plain.block? 0).any fun b => !plain.quiet b) = true := by decide +kernel

/-- A run that goes on 560 cycles after the request. -/
theorem test_hyp_openRunTimeout :
    (let s : State := { running id (fun b => { b with stop := some 0 }) id with time := 560 }
     ((s.block? 0).any fun b => decide (b.stop = some 0)) = true ∧ ((s.gang? 0 0).any fun G => G.sheaf.isSome) = true ∧ 0 + 560 ≤ s.time) := by decide +kernel

/-- A gang with an event of lane 31 in its queue, whose state is st. -/
def eventFor (st : ThreadState) (ran : Bool) : State :=
  running id id fun G => { idle (G.modLane 31 fun t => { t with st := st, ranSinceTret := ran }) with
    events := [{ lane := 31, cause := 0x10, tpc := 4, taddr := 8, tinfo := 12, job := none }] }

theorem test_hyp_EventDelivery : ∀ st ∈ [ThreadState.eligible, .blocked (.jwait 15 8), .blocked (.bar 16 1 8 false), .blocked (.bar 16 1 8 true)],
    let s := eventFor st true
    (s.block? 0).isSome ∧ (s.launchOf 0).isSome ∧ s.replayOf 0 = none ∧ ((s.gang? 0 0).any fun G => G.chunk.isNone && !G.evicted && !(G.lane 31).handler
      && (G.lane 31).region.isNone && G.sheaf.isNone && decide ((G.lane 31).st = st) && (G.lane 31).ranSinceTret && (G.events.find? fun x => decide (x.lane = 31)).isSome) = true := by
  decide +kernel

/-! ### Memory events -/

theorem test_hyp_l1WriteBack : memState.dieFailed = 0 ∧ Memory.wf memState.mem = true ∧
    (memState.l1.all fun x => decide (x.cluster = 0 ∧ x.line = 5 ∧ x.dirty ≠ 0) && memState.local (5 * 128)) = true ∧ memState.l1.length = 1 := by decide +kernel

/-- An operation of an atomg on the last word of a line, behind one on another line. -/
def mauOps : List MauOp :=
  [0x80, 0x17C].map fun pa => { lane := 31, pa := pa, key := 0, f := 9, w64 := false, operand := 1, compare := 0, dest := some 8, va := 0, acq := 0, pc := 0,
                                tag := none, answer := none }

theorem test_hyp_mauAtomic : noDirty { memState with l1 := [] } ∧
    (let s := running id id fun G => { G with mau := mauOps }
     (s.block? 0).isSome ∧ s.l1 = [] ∧ ((s.gang? 0 0).any fun G => G.chunk.isNone && (G.mau[1]?).any fun op =>
       !(G.mau.take 1).any (MauOp.after op) && s.local op.pa && servedIn s (lineOf op.pa) op.key && !s.poisoned op.key op.pa 4 && decide (op.pa % 4 = 0)) = true) :=
  ⟨fun _ h => absurd h (by simp), by decide +kernel⟩

/-- An update on line n of lane l, of epoch 0. -/
def upd (n l : Nat) : DetUpdate :=
  { issuer := l * 2 ^ 37, lin := 0, pa := 128 * n, key := 0, f := 0, w64 := false, operand := 1, gang := 0, lane := l, epoch := 0, va := 0, tpc := 0,
    chained := false }

/-- A launch with an update of lane 20 on line 1 under way, and others held; a chain area of 64 KiB. -/
def updating (held : List DetUpdate) : State :=
  { plain with
    launches := plain.launches.map fun L => { L with inflight := [upd 1 20], held := held }
    parts := vset State.reset.parts 0 { State.reset.part 0 with dcSize := 0x10000 } }

theorem test_hyp_updateArrival : ∀ held ∈ [(List.range 15).map (upd 1), [], (List.range 64).map (fun k => upd (k + 2) 0), (List.range 16).map (upd 1),
      (List.range 16).map fun l => upd 1 (l + 16)],
    let s := updating held
    s.chainFull 0 = false ∧ ((s.launch? 0).any fun L => decide (L.inflight[0]? = some (upd 1 20)) && decide ((s.launches.filter fun M => decide (M.id = 0)).length = 1)
      && s.launches.all (fun M => decide (M.id = 0))) = true := by decide +kernel

/-- The clauses' conditions: 15 held, none with and without a free buffer, 16 below the new one, 16 with the last above it. -/
theorem test_hyp_updateClauses :
    ((List.range 15).map (upd 1)).length < 16 ∧ (updating []).buffersUsed (sliceOf 1) < 64 ∧
    64 ≤ (updating ((List.range 64).map fun k => upd (k + 2) 0)).buffersUsed (sliceOf 1) ∧
    (∀ y ∈ (List.range 16).map (upd 1), y.key8 ≤ (upd 1 20).key8) ∧
    (∀ y ∈ (List.range 15).map (fun l => upd 1 (l + 16)), y.key8 < (upd 1 31).key8) ∧ (upd 1 20).key8 < (upd 1 31).key8 := by decide +kernel

/-- Every thread has passed the first drain point, and the update has arrived. -/
theorem test_hyp_drain :
    (let s : State := { running id id (lanesAre (BitVec.allOnes 32) fun t => { t with epoch := 5 }) with
       launches := plain.launches.map fun L => { L with held := [upd 1 20] } }
     ((s.launch? 0).any fun L => s.drainReady L && L.number.isNone) = true) := by decide +kernel

/-- Lane 31's region has read one word of line 1, and stores to its last one; its input is rigid, constrained, or neither. -/
def regionAt (rigid : Bool) (cons : List RConstraint) (value : Word) : Region :=
  { fallback := 0x80, count := 5, inputs := [{ pa := 0x80, va := 0x80, value := value, rigid := rigid }], lines := [{ line := 1, va := 0x80, key := 0, snap := some (value.setWidth 1024, 1) }],
    cons := cons, stores := [{ pa := 0xFC, va := 0xFC, size := 4, bits := 7, sym := some (0, 1) }], tags := [{ reg := 3, k := 0, c := 2 }] }

/-- The region is at the commit engine. -/
def committing (r : Region) : State :=
  { mapped id id fun G => { G.modLane 31 (fun t => { t with region := some r }) with
      sheaf := G.sheaf.map fun S => { S with commit := some (0x80000000, 0x40, 1) } } with l1 := [] }

/-- The premises of the commit of lane 31, whatever its region. -/
def commitIn (s : State) : Bool :=
  match s.block? 0, s.launchOf 0, s.gang? 0 0 with
  | some b, some L, some G => G.sheaf.any (fun S => S.commit.isSome && S.fp.isNone) && G.parked.isNone && !G.drained && G.chunk.isNone && decide (L.status = 0)
      && !L.r.det && decide (0x80000000#32 &&& G.inRegion = BitVec.twoPow 32 31) && G.running.getLsbD 31 && decide (s.dieFailed = 0)
      && decide ((G.lane 31).st = .eligible) && Memory.wf s.mem && (G.lane 31).region.any fun r =>
        r.lines.all (fun x => match s.regionPlace (.thread b.core 0) L.part x.va.toNat ⟨true, true, false⟩ with
          | .ok pa key => decide (key = x.key ∧ lineOf pa = x.line) && s.local (x.line * 128) && decide (s.poisonBits x.line x.key = 0) && servedIn s x.line x.key && r.lines.all fun y => decide (y.line = x.line → y = x)
          | _ => false)
        && r.stores.all fun w => decide (w.pa % 128 + w.size ≤ 128 ∧ w.size ≤ 8) && r.lines.any fun x => decide (x.line = lineOf w.pa)
  | _, _, _ => false

/-- A rigid conflict; a constraint that fails; one that holds. -/
theorem test_hyp_CommitResults :
    (let r := regionAt true [] 1
     commitIn (committing r) = true ∧ (r.inputs.findIdx? fun i => i.rigid && (committing r).inputConflicts r i) = some 0) ∧
    (let r := regionAt false [{ k := 0, c := 0, cond := 1, u := 0, tagFirst := true, result := true }] 1
     commitIn (committing r) = true ∧ (r.inputs.all fun i => !i.rigid) = true ∧
       (r.cons.findIdx? fun q => !q.holds ((r.inputs.map ((committing r).inputValue r)).getD q.k 0)) = some 0) ∧
    (let r := regionAt false [{ k := 0, c := 0, cond := 0, u := 0, tagFirst := true, result := true }] 1
     commitIn (committing r) = true ∧ (r.cons.all fun q => q.holds ((r.inputs.map ((committing r).inputValue r)).getD q.k 0)) = true) := by decide +kernel

/-! ### Running jobs -/

/-- The copy of 4 bytes from the scratchpad's start to 64, with and without a barrier at 0 that it completes. -/
def smallCopy (bar : Bool) (srcSpad dstSpad : Bool) : CopyCard :=
  { es := 4, srcSpad := srcSpad, dstSpad := dstSpad, src := 0x1000, dst := 0x2000, ext := [1, 1, 1, 1], sstr := [4, 0, 0, 0], dstr := [4, 0, 0, 0], bar := bar,
    baroff := 0, arrw := 33, dstBuf := some 3 }

/-- A block with one job. -/
def working (k : JobKind) (f : Job → Job) : State :=
  mapped id (fun b => { b with spad := quota33, jobs := [f (Job.fresh 0 31 k (some 5) true 0 [])] }) idle

/-- The premises of the statements about jobs. -/
def jobIn (s : State) : Bool :=
  match s.block? 0, s.launchOf 0 with
  | some b, some L => L.number.isNone && b.stop.isNone && Memory.wf b.spad && swfFrom 0 b.acc && L.r.watch.isEmpty
      && b.jobs.all (fun x => !x.frozen && !x.failed && !x.held && !x.parked && x.want.isNone && decide (x.id = 0)) && b.gangs.any fun G => !G.drained
  | _, _ => false

theorem test_hyp_copyStart : jobIn (working (.copy (smallCopy false true true)) id) = true ∧
    ((working (.copy (smallCopy false true true)) id).copyQueue 0).head? = some (0, 0, 0) ∧
    (working (.copy (smallCopy false true true)) id).activeCopies 0 < 8 := by decide +kernel

/-- A beat that begins, in each direction: its addresses are aligned, on this device, without poison, and apart. -/
theorem test_hyp_copyBeat : ∀ d ∈ [(true, true), (true, false), (false, true), (false, false)],
    let k := smallCopy false d.1 d.2
    let s := working (.copy k) fun x => { x with started := true }
    jobIn s = true ∧ 0 < k.total ∧ k.es ∣ 16 ∧ min (64 / k.es) (k.total - 0) = 1 ∧ (k.beat 0).getD 0 (0, 0) = (0x1000, 0x2000) ∧
      s.place (.job 0) 0 0x1000 ⟨true, false, false⟩ = .ok 0x1000 0 ∧ s.place (.job 0) 0 0x2000 ⟨false, true, false⟩ = .ok 0x2000 0 ∧ s.local 0x2000 = true ∧
      s.poisoned 0 0x1000 4 = false ∧ servedIn s (lineOf 0x1000) 0 = true := by decide +kernel

theorem test_hyp_copyCompletion : ∀ bar ∈ [true, false],
    let k := smallCopy bar true true
    let s := working (.copy k) fun x => { x with started := true, pos := 1 }
    jobIn s = true ∧ k.total = 1 ∧ s.requests = [] ∧ (5 < 64) ∧
      ((s.block? 0).any fun b => (({ b with spad := writeLE b.spad 8 4 (readLE b.spad 8 4 + 4) } : Block).arrive 0 33).isSome) = true := by decide +kernel

/-- A slot of a format, and the parameters of a job of 64 rows and columns on the last tile of its class. -/
def slotOf (fmt : Nat) : SlotDesc := { fmt := fmt, planes := 0, centre := false, scale := 0, ftz := false, rnd := 0 }
def params (fmt tile : Nat) : MmaPar :=
  { m := 64, n := 64, slotA := slotOf fmt, slotB := slotOf fmt, z := false, bs := false, tile := tile, abase := 0, astr := 16, bbase := 1024, bstr := 128 }

/-- A job that may start, one at its first group, and one after its last. -/
theorem test_hyp_MatrixEvents : ∀ x ∈ [(1, 6), (3, 7), (9, 7)],
    let p := params x.1 x.2
    (mmaClass p.slotA.fmt p.slotB.fmt).isSome ∧ p.m ≤ 64 ∧ p.n ≤ 64 ∧ p.tile < 8 ∧ jobIn (working (.mma p) id) = true ∧
      ((working (.mma p) id).mmaQueue 0).head?.map (·.2) = some (0, 0) ∧
      ((working (.mma p) id).coreJobs 0).filter (fun y => y.isMma && y.started) = [] ∧
      (let s := working (.mma p) fun x => { x with started := true }
       jobIn s = true ∧ 0 < mmaK p.slotA.fmt / 16 ∧ ((s.block? 0).any fun b => b.jobs.all fun y => decide (y.past ≠ some 0)) = true) ∧
      jobIn (working (.mma p) fun x => { x with started := true, pos := mmaK p.slotA.fmt / 16 }) = true := by decide +kernel

/-- Each action of a tile, with no job before it. -/
theorem test_hyp_AccumulatorEvents : ∀ op ∈ [AccOp.read 110 [(31, 63)], .write [(31, 63, some 1, none)], .clear, .save 512, .load 512, .wait, .ovf 5],
    let s := working (.acc 7 op) id
    jobIn s = true ∧ ((s.block? 0).any fun b => b.jobs.all (fun x => b.allows x) && (b.gangs[0]?).any fun G => !G.drained && G.chunk.isNone) = true ∧
      ([(31, 63)].map (·.1)).Nodup := by decide +kernel

/-! ### Queues, packets, launches -/

/-- Partition 0 with its tables, a context pool of 640 MiB, and one queue. -/
def queued (Q : Queue) (m : List Host.Cell) : State :=
  let P := State.reset.part 0
  let P : Partition := { P with troot := 0x20000, ctxBase := 0x1000000, ctxSize := 0x28000000, queues := vset P.queues 63 Q }
  { State.reset with
    mem := probeTables m
    parts := vset State.reset.parts 0 P
    tlb := [{ core := 255, quad := none, part := 0, level := 2, va := 0, pa := 0, key := 0, r := true, w := true, x := true }] }

/-- A running queue of 16 packets at 64 KiB whose index 15 is next. -/
def fullQueue : Queue := { Queue.reset with st := 1, log2n := 4, policy := false, en := true, base := 0x10000, widx := 16, ridx := 15 }

/-- Bit 0 set and clear, and each state of the queue. -/
theorem test_hyp_QueueRegisters : 0 < partsOf State.reset.code ∧ (0x41#64).getLsbD 0 = true ∧ (0x40#64).getLsbD 0 = false ∧
    (queued Queue.reset []).queue 0 63 = Queue.reset ∧ Queue.reset.st = 0 ∧
    (2560 * 1024 * ((queued Queue.reset []).workingCores 0).length ≤ ((queued Queue.reset []).part 0).ctxSize.toNat / 2 ^ 16 * 2 ^ 16) ∧
    ((queued { fullQueue with st := 2 } []).queue 0 63).st = 2 ∧ ((queued fullQueue []).queue 0 63).st = 1 ∧ fullQueue.policy = false := by decide +kernel

/-- A read of the command processor that succeeds, with a property of the bytes. -/
def readIn (s : State) (va n : Nat) (P : List Byte → Bool) : Bool :=
  (s.virtCheck 0 va n ⟨true, false, false⟩).isNone && (s.virtMissing 0 va n ⟨true, false, false⟩).isEmpty
    && match s.virtBytes 0 va n ⟨true, false, false⟩ with | .ok bs => P bs | .error _ => false

/-- A ring that is too full; and, in the last place of the ring, a packet whose number is wrong, a malformed one, and a MARK. -/
theorem test_hyp_packetFetch :
    (let s := queued { fullQueue with widx := 32 } []
     s.mayFetch 0 63 = true ∧ s.remote = [] ∧ 2 ^ 4 < ((32#32) - 15).toNat) ∧
    (let s := queued fullQueue (writeLE [] 0x10780 8 0x0E00000004)
     s.mayFetch 0 63 = true ∧ readIn s 0x10780 128 (fun bs => decide (fieldAt bs 4 4 ≠ 15)) = true) ∧
    (let s := queued fullQueue (writeLE [] 0x10780 8 0x0F00000000)
     s.mayFetch 0 63 = true ∧ readIn s 0x10780 128 (fun bs => decide (fieldAt bs 4 4 = 15) && malformedPacket bs) = true) ∧
    (let s := queued fullQueue (writeLE [] 0x10780 8 0x0F00000004)
     s.mayFetch 0 63 = true ∧ readIn s 0x10780 128 (fun bs => decide (fieldAt bs 4 4 = 15) && !malformedPacket bs) = true) := by decide +kernel

/-- A packet of a type at which the queue stands: its address is 0x1000. -/
def packetOf (typ : Nat) (launched : Bool) : Packet :=
  { idx := 14, typ := typ, barrier := false, bytes := bytesOf 8 typ ++ bytesOf 8 (if typ = 5 then 0 else 0x1000) ++ List.replicate 112 0, launched := launched }

/-- The queue stands at it, and nothing is under way in the device. -/
def atPacket (typ : Nat) (launched : Bool) (m : List Host.Cell) : State := queued { fullQueue with packets := [packetOf typ launched] } m

/-- A launch record of one block of one gang, whose completion record stands at 0x30000. -/
def launchBytes : List Host.Cell :=
  let m := writeLE (writeLE (writeLE [] 0x1000 4 1) 0x1020 8 0x100000001) 0x1028 8 0x100000001
  writeLE (writeLE (writeLE m 0x1034 4 16) 0x1090 4 0x30000) 0x1180 2 0x1010

theorem test_hyp_PacketResults :
    (∀ x ∈ [(1, false), (2, false), (2, true), (3, false), (4, false), (5, false)],
      let s := atPacket x.1 x.2 launchBytes
      s.actsOn 0 63 x.1 = some (packetOf x.1 x.2) ∧ s.remote = [] ∧ s.requests = [] ∧ (s.queue 0 63).closing = none ∧ s.l1 = [] ∧ s.dieFailed = 0) ∧
    readIn (atPacket 2 false []) 0x1000 8 (fun _ => true) = true ∧
    (let s := atPacket 3 false []
     s.place .device 0 0x1000 ⟨true, true, false⟩ = .ok 0x1000 0 ∧ s.local 0x1000 = true ∧ servedIn s (lineOf 0x1000) 0 = true ∧ s.poisoned 0 0x1000 8 = false) := by
  decide +kernel

/-- The record of a launch of one block can be read, and its completion record written. -/
theorem test_hyp_launch : (let s := atPacket 1 false launchBytes
    (s.part 0).rrEn = false ∧ s.launches = [] ∧ readIn s 0x1000 512 (fun bs => decide (fieldAt bs 0x90 9 % 128 = 0)
      && (s.virtCheck 0 (fieldAt bs 0x90 9) 0x4000 ⟨false, true, false⟩).isNone) = true) := by decide +kernel

/-- The launch, whose packet has dropped the proxy copies; what its record names lies in this device's memory. -/
def askedLaunch : State := queued { fullQueue with packets := [packetOf 1 false], asked := true } launchBytes

theorem test_hyp_launchData : askedLaunch.actsOn 0 63 1 = some (packetOf 1 false) ∧ (askedLaunch.queue 0 63).asked = true ∧
    ∃ d, askedLaunch.launchData 0 (askedLaunch.bytesAt 0 0x1000 512) = (askedLaunch, some d) := by
  refine ⟨by decide +kernel, by decide +kernel, ?_⟩
  obtain ⟨bs, h⟩ := virtRead_here (s := askedLaunch) (p := 0) (va := 0) (n := 4096) (need := ⟨true, false, false⟩) (by decide +kernel)
  unfold State.launchData
  rw [show fieldAt (askedLaunch.bytesAt 0 0x1000 512) 0x68 1 = 0 by decide +kernel,
    show fieldAt (askedLaunch.bytesAt 0 0x1000 512) 0x69 1 = 0 by decide +kernel,
    show fieldAt (askedLaunch.bytesAt 0 0x1000 512) 0x48 9 = 0 by decide +kernel]
  simp [State.namedRead, h]

/-- A launch that has ended, its completion record not yet or already written, with a signal or without one. -/
def ending (written : Bool) (signal : Wide) : State :=
  { queued fullQueue [] with launches := [{ probeLaunch with done := 1, recordWritten := written, signal := signal }] }

/-- Its premises. -/
def endingIn (s : State) (written : Bool) (signal : Wide) : Bool :=
  (s.launch? 0).any (fun L => s.completes L && L.number.isNone && decide (L.queue < 64 ∧ L.part < 4) && (L.recordWritten == written)
    && decide (L.signal = signal) && (s.virtCheck L.part L.r.completion.toNat 0x4000 ⟨false, true, false⟩).isNone)
  && decide ((s.launches.filter fun M => decide (M.id = 0)).length = 1) && s.remote.isEmpty && s.requests.isEmpty && s.l1.isEmpty
  && (s.part 0).frames.isEmpty && decide (s.place .device 0 0x1000 ⟨true, true, false⟩ = .ok 0x1000 0) && s.local 0x1000
  && servedIn s (lineOf 0x1000) 0 && !s.poisoned 0 0x1000 8

theorem test_hyp_launchCompletion : endingIn (ending false 0) false 0 = true ∧ endingIn (ending true 0) true 0 = true ∧
    endingIn (ending true 0x1000) true 0x1000 = true := by decide +kernel

/-- A quadrant's record is due at 2^20 cycles, and at the end; the buffer holds one record. -/
theorem test_hyp_traceRecord : ∀ final ∈ [true, false],
    let s : State := { queued fullQueue [] with
      time := 2 ^ 20
      quads := [QuadStat.fresh 0 3]
      launches := [{ probeLaunch with r := { probeRecord with trace := 0x3000, traceLen := 1024 }, done := if final then 1 else 0, traceQuads := [(0, 3, 0)] }] }
    ((s.launch? 0).any fun L => s.traceDue L 0 3 final && !L.traceSuspended && !L.traceEnded && decide (1024 ≤ L.r.traceLen)
      && (s.virtCheck L.part 0x3200 512 ⟨false, true, false⟩).isNone
      && ((s.virtWrite L.part 0x3200 ((QuadStat.fresh 0 3).record s.time final)).virtCheck L.part 0x3000 512 ⟨false, true, false⟩).isNone) = true ∧
    (s.quads.find? fun x => decide (x.core = 0 ∧ x.quad = 3)).isSome := by decide +kernel

/-! ### Translations and the control window -/

/-- A walk that ends; a core at the top of the range. -/
theorem test_hyp_tableWalk : memState.tlbFind 255 none 0 0x1234 = none ∧ memState.tlb = [] ∧
    (match memState.walkBy (.job 255) 0 0x1234 with | .ok _ _ _ _ _ _ => true | _ => false) = true := by decide +kernel

/-- GO with and without ALL, busy and not; parked accesses; keys retired and under way. -/
theorem test_hyp_ControlWindow : (0x3#64).getLsbD 0 = true ∧ (0x3#64).getLsbD 1 = true ∧ (0xD#64).getLsbD 1 = false ∧ (State.reset.part 0).tinvalBusy = false ∧
    (let s : State := { memState with parts := vset memState.parts 0 { memState.part 0 with tinvalBusy := true } }
     (s.part 0).tinvalBusy = true ∧ s.accessesSettled 0 = true) ∧
    (0x1FF#64).getLsbD 8 = true ∧ (State.reset.part 0).keyBusy = false ∧ ((0x1FF#64).extractLsb' 0 8 : BitVec 8) ≠ 0 ∧
    (let s : State := { plain with parts := vset plain.parts 0 { plain.part 0 with keyOwn := BitVec.allOnes 256, keyBusy := true, keyRet := 255 } }
     (s.part 0).keyOwn.getLsbD 255 = true ∧ (s.part 0).keyBusy = true ∧ s.accessesSettled 0 = true ∧ s.remote = [] ∧ s.l1 = []) ∧
    (State.reset.part 0).idle = true ∧ ((queued fullQueue []).part 0).idle = false := by decide +kernel

/-! ### Homes -/

/-- The directory's entry of line 1, and the states of the dies' L2s for it. -/
def homed (e : DirEntry → DirEntry) (ls : List L2Line) : State :=
  { State.reset with dir := [e (DirEntry.absent 1 0)], l2 := ls }

/-- Line 1 in a die's L2. -/
def inL2 (d : Nat) (st : L2State) (own : BitVec 128) : L2Line :=
  { die := d, line := 1, key := 0, st := st, own := own, foreign := 0, clk := Vector.replicate 4 Clocks.none }

/-- A die works, and its message is of this incarnation. -/
theorem test_hyp_messages : State.reset.dieUp 3 = true ∧ msgLine 1 = 1 ∧ msgKey 1 = 0 ∧ agentDie 3 = 3 ∧ State.reset.l1 = [] := by decide +kernel

/-- A request of die 3 at rest, without the line or with it shared; one that makes the line contended; one behind a transaction; an
entry that cannot be read. -/
theorem test_hyp_HomeRequests :
    (∀ ls ∈ [[], [inL2 3 .s 0], [inL2 3 .o 0]], let s := homed id ls
      servedIn s 1 0 = true ∧ (s.entry 1 0).st = .i ∧ (s.dir.filter fun x => decide (sliceOf x.line = sliceOf 1 ∧ x.line % 1024 = 1 % 1024)).length < 16) ∧
    (let s := homed (fun e => { e with st := .m, sharers := 1, moves := [(0, 0), (0, 1), (0, 0)] }) [inL2 0 .m 0]
     servedIn s 1 0 = true ∧ s.ownerOf 1 0 = some 0 ∧ contended (recentMoves (s.entry 1 0).moves s.time ++ [(s.time, 3)]) s.time = true ∧
       s.privUsed (sliceOf 1) < 64) ∧
    (let s := homed (fun e => { e with st := .busy, req := some (0, true) }) []
     (s.entry 1 0).bad = false ∧ (s.entry 1 0).req = some (0, true) ∧ s.dieUp 0 = true ∧ (3, false) ∉ (s.entry 1 0).held) ∧
    ((homed (fun e => { e with bad := true }) []).entry 1 0).bad = true := by decide +kernel

/-- A grant beside no other copy, and beside a shared one while an answer is due. -/
theorem test_hyp_data : (let s := homed (fun e => { e with st := .busy, req := some (3, true) }) []
     (s.entry 1 0).req = some (3, true) ∧ (s.entry 1 0).st = .busy ∧ (s.entry 1 0).acks = 0 ∧ (s.entry 1 0).held = [] ∧ (s.entry 1 0).priv = false) ∧
    (let s := homed (fun e => { e with st := .busy, req := some (3, false), acks := 1 }) [inL2 0 .s 0]
     (s.entry 1 0).req = some (3, false) ∧ (s.entry 1 0).acks ≠ 0 ∧ ∀ k < 4, k ≠ 3 → s.l2st k 1 0 ≠ .e ∧ s.l2st k 1 0 ≠ .m) := by decide +kernel

/-- Line 1 with a dirty byte in an L1 of die 3. -/
def pendingAt (s : State) : State :=
  { s with l1 := [{ cluster := 24, line := 1, key := 0, data := 1, valid := 1, dirty := 1, whole := 0 }] }

/-- Each forward's and release's premises. -/
theorem test_hyp_HomeForwards :
    (∀ st ∈ [L2State.e, .m, .o], ∀ m ∈ [false, true], let s := homed (fun e => { e with st := .busy, req := some (3, m) }) [inL2 0 st 0]
      (s.entry 1 0).st = .busy ∧ (s.entry 1 0).req = some (3, m) ∧ s.ownerOf 1 0 = some 0) ∧
    (let s := homed (fun e => { e with st := .busy, sharers := 8, req := some (0, true) }) [inL2 3 .s 0]
     (s.entry 1 0).req = some (0, true) ∧ (s.entry 1 0).sharers.getLsbD 3 = true ∧ s.l2st 3 1 0 = .s) ∧
    (∀ st ∈ [L2State.s, .e, .m, .o, .p], let s := homed (fun e => { e with st := .s, sharers := 8 }) [inL2 3 st 0]
      s.l2st 3 1 0 = st ∧ (s.entry 1 0).st ≠ .busy ∧ s.pendingMask 3 1 0 = 0 ∧ (pendingAt s).pendingMask 3 1 0 ≠ 0) := by decide +kernel

/-- Answers: one of several and the last, of a sharer, of the owner, and to a read. -/
theorem test_hyp_acks : (let s := homed (fun e => { e with st := .busy, sharers := 9, acks := 2, req := some (1, true) }) []
     (s.entry 1 0).st = .busy ∧ 1 < (s.entry 1 0).acks ∧ (s.entry 1 0).sharers.getLsbD 3 = true ∧ s.l2st 3 1 0 = .i) ∧
    (let s := homed (fun e => { e with st := .busy, sharers := 8, owner := 3, acks := 1, req := some (1, true) }) [inL2 1 .m 0]
     (s.entry 1 0).acks = 1 ∧ s.l2st 1 1 0 = .m ∧ (s.entry 1 0).owner.toNat = 3 ∧ s.l2st 3 1 0 = .i ∧ (s.entry 1 0).held = []) ∧
    (let s := homed (fun e => { e with st := .busy, sharers := 8, owner := 3, acks := 1, req := some (1, false) }) [inL2 1 .s 0, inL2 3 .o 0]
     s.l2st 1 1 0 ≠ .i ∧ (s.entry 1 0).owner.toNat = 3 ∧ s.l2st 3 1 0 ≠ .e ∧ s.l2st 3 1 0 ≠ .m) := by decide +kernel

/-- Masks: an asked die, disjoint and overlapping answers of all, and writes of a P holder. -/
theorem test_hyp_masks :
    (let asked (ms : List (Nat × BitVec 128)) : State :=
       homed (fun e => { e with st := .busy, priv := true, req := some (3, true), moves := [(0, 0), (0, 3), (0, 0), (0, 3)], masks := ms }) []
     (3 ∈ (asked []).maskDies ((asked []).entry 1 0) ∧ (asked []).pendingMask 3 1 0 = 0) ∧
     (let s := asked [(3, 1), (0, 2)]
      (∀ k ∈ s.maskDies (s.entry 1 0), ∃ y ∈ (s.entry 1 0).masks, y.1 = k) ∧ (s.entry 1 0).held = [] ∧
        ((s.entry 1 0).masks.find? fun y => decide (y.1 = 3)) = some (3, 1) ∧ (s.entry 1 0).masks.Pairwise fun y z => y.2 &&& z.2 = 0) ∧
     (let s := asked [(3, 1), (0, 3)]
      (∀ k ∈ s.maskDies (s.entry 1 0), ∃ y ∈ (s.entry 1 0).masks, y.1 = k) ∧ ¬ (s.entry 1 0).masks.Pairwise fun y z => y.2 &&& z.2 = 0)) ∧
    (let s := homed (fun e => { e with st := .p, priv := true }) [inL2 3 .p 1, inL2 0 .p 2]
     let taken := (List.range 4).foldl (fun a k => if k = 3 then a else a ||| (s.l2line k 1 0).own) (0 : BitVec 128)
     (s.l2line 3 1 0).st = .p ∧ servedIn s 1 0 = true ∧ s.ownerOf 1 0 = none ∧ (5#128) &&& taken = 0 ∧ (5#128) &&& ~~~ (s.l2line 3 1 0).own ≠ 0 ∧
       (2#128) &&& taken ≠ 0 ∧ (2#128) &&& ~~~ (s.l2line 3 1 0).own ≠ 0 ∧ (2#128) &&& ~~~ taken = 0) := by decide +kernel

/-! ### Failures and repair -/

theorem test_hyp_CacheFailures : State.reset.dieFailed.getLsbD 3 = false ∧ ({ State.reset with dieFailed := 8 } : State).dieFailed.getLsbD 3 = true ∧
    (memState.blocks.all fun b => b.gangs.all fun G => G.mau.isEmpty) = true ∧ memState.local (5 * 128) = true ∧ offOf (5 * 128) < hbmLimit ∧ (31, 7) ∉ State.reset.mgmt.l1Out ∧
    (memState.l1.any fun x => decide (x.cluster = 0 ∧ memState.slicePos 0 (x.line % 8) < 8 ∧ (0, memState.slicePos 0 (x.line % 8)) ∉ memState.mgmt.l1Out)) = true := by
  decide +kernel

/-- A core, a slice, a row and a link that fail, first with a spare and then without one. -/
theorem test_hyp_RepairResults : 255 ∉ State.reset.mgmt.failedCores ∧ 31 ∉ State.reset.mgmt.sparesUsed ∧ 255 ∉ State.reset.mgmt.slicesOut ∧
    (let m := { State.reset.mgmt with sparesUsed := [31], slicesOut := [254], rows := (List.range 64).map fun r => (255, r) }
     31 ∈ m.sparesUsed ∧ (31, 255 % 8) ∉ m.l1Out ∧ (255 ^^^ 1) ∈ m.slicesOut ∧ 64 ≤ (m.rows.filter fun x => decide (x.1 = 255)).length) ∧
    (∀ x ∈ State.reset.mgmt.retired, x.1 ≠ 255) ∧ (State.reset.links[17]?.any fun L => L.up && decide (7 < L.lanes) && L.held.isEmpty && L.wait.isEmpty) = true ∧
    50 < State.reset.mgmt.clockMHz ∧ State.reset.mgmt.thermal = false ∧ ({ State.reset.mgmt with thermal := true } : Mgmt).thermal = true ∧
    ({ State.reset.mgmt with step := 3 } : Mgmt).step ≠ 4 ∧ State.reset.mgmt.fwStaged = none := by decide +kernel

/-- A pool whose unused frames just reach the number that a channel needs, and one that does not. -/
theorem test_hyp_channelFailure : ∀ n ∈ [49152, 49151],
    ((List.replicate n (0, false)).filter fun x : Nat × Bool => !x.2 && decide (channelOfFrame x.1 ≠ 255)).length = n := by
  intro n _
  rw [List.filter_replicate, if_pos (by decide +kernel), List.length_replicate]

/-! ### The host port -/

/-- A number as two bytes of a frame. -/
def be16 (n : Nat) : List Byte := [BitVec.ofNat 8 (n / 256), BitVec.ofNat 8 n]

/-- A datagram from address 0 and port 0 to address 0 and port 49,760 (R402), with a UDP payload. -/
def datagram (body : List Byte) : HostPkt :=
  let n := body.length + 8
  let udp (c : Nat) : List Byte := be16 0 ++ be16 49760 ++ be16 n ++ be16 c ++ body
  let c := 65535 - (sum16 (List.replicate 32 (0 : Byte)) + n + 17 + sum16 (udp 0)) % 65535
  { port := 0, frame := [0x60, 0, 0, 0] ++ be16 n ++ [17, 64] ++ List.replicate 32 0 ++ udp c }

/-- A packet for connection 255: its operation, PSN, APSN, address space, NAK code, length and address, and its payload (R403). -/
def packet (op psn apsn space nak len addr : Nat) (bs : List Byte) : HostPkt :=
  datagram (bytesOf 4 (1 + 256 * op) ++ bytesOf 4 255 ++ bytesOf 4 psn ++ bytesOf 4 apsn ++ bytesOf 4 (space + 256 * nak) ++ bytesOf 4 len
    ++ bytesOf 9 addr ++ bytesOf 7 0 ++ bs)

/-- The device with connection 255 bound. -/
def bound (f : Conn → Conn) : State :=
  { queued Queue.reset [] with conns := vset State.reset.conns 255 (f { Conn.reset with bound := true }) }

/-- What makes a packet one of connection 255, and how its fields read. -/
def isMine (k : HostPkt) (s : State) : Bool :=
  decide (k.verdict (vget s.portAddrs k.port []) = .take) && (s.conn 255).bound && !(s.conn 255).parked && !(s.conn 255).begun && decide (k.src = (s.conn 255).addr ∧ k.connNo = 255) && (s.conn 255).todo.isEmpty

/-- R403, R404: the next packet of each operation, one behind and one ahead, a malformed one, a connection in error. -/
theorem test_hyp_packets : isMine (packet 1 0 0 0 0 4 8 [1, 2, 3, 4]) (bound id) = true ∧
    (∀ x ∈ [(1, 4, 0), (2, 4, 0), (4, 0, 0), (5, 0, 1)],
      let k := packet x.1 0 0 0 x.2.2 x.2.1 8 (if x.1 = 1 then [1, 2, 3, 4] else [])
      isMine k (bound id) = true ∧ k.malformed = false ∧ k.op = x.1 ∧ k.psn = ((bound id).conn 255).expect ∧ k.nak = x.2.2) ∧
    ahead (packet 4 1 0 0 0 0 0 []).psn ((bound id).conn 255).expect = true ∧
    ahead (packet 4 (2 ^ 32 - 1) 0 0 0 0 0 []).psn ((bound id).conn 255).expect = false ∧
    (packet 4 (2 ^ 32 - 1) 0 0 0 0 0 []).psn ≠ ((bound id).conn 255).expect ∧
    (packet 3 0 0 0 0 0 0 []).malformed = true ∧ ((bound fun C => { C with error := true }).conn 255).error = true ∧
    ({ port := 1, frame := [0x45] } : HostPkt).verdict [0] = .count ∧ ({ port := 1, frame := [] } : HostPkt).verdict [0] = .drop := by decide +kernel

/-- R405: an operation at each kind of address; the address space's value beyond the ring; a virtual address without a translation,
and one that a page does not let a WRITE reach. -/
theorem test_hyp_operations :
    (packet 1 0 0 3 0 4 8 []).space = 3 ∧ (packet 1 0 0 1 0 4 8 []).space = 1 ∧
    (∀ op ∈ [1, 2], let k := packet op 0 0 0 0 4 (0xBFFFFFFFFC) []
      k.space = 0 ∧ (bound id).virtCheck 0 k.addr k.len ⟨decide (op = 2), decide (op = 1), false⟩ = none ∧ (bound id).remote = []) ∧
    (bound id).virtMissing 0 (0xBFFFFFFFFC) 4 ⟨true, false, false⟩ = [] ∧
    (match (bound id).virtBytes 0 (0xBFFFFFFFFC) 4 ⟨true, false, false⟩ with | .ok bs => decide (bs.length = 4) | .error _ => true) = true ∧
    ((bound id).virtCheck 0 (2 ^ 44) 4 ⟨false, true, false⟩).any (fun x => match x.2 with | .fault _ _ _ => true | _ => false) = true ∧
    ({ bound id with mem := writeLE (writeLE [] 0x20000 8 0x40001) 0x40000 8 0x17 } : State).virtCheck 0 0 4 ⟨false, true, false⟩ = some (0, .perm 2) ∧
    (let P := (bound id).part 0
     P.rrTail.toNat ≤ (packet 2 0 0 2 0 0 0 []).addr ∧ 0 + 0 ≤ P.rrHead.toNat ∧ ¬ 0 + 4 ≤ P.rrHead.toNat) := by decide +kernel

/-- R404: responses that wait for an acknowledgement: 16,000 of time after they were sent, with 15 and with 16 resends. -/
theorem test_hyp_resends : ∀ n ∈ [15, 16],
    let C := (bound fun C => { C with held := [{ psn := 0, space := 0, addr := 0, data := [1], time := 0, tries := n }] }).conn 255
    C.error = false ∧ (C.held.all fun x => decide (x.time + 16000 ≤ 16000 ∧ (16 ≤ x.tries ↔ n = 16))) = true ∧ C.held.length = 1 := by decide +kernel

/-! ### The fabric -/

/-- A message of a kind for line 1 from device 7, with key 0. -/
def message (kind : Nat) : FabMsg := { FabMsg.plain kind 0 0 128 with src := 7, mask := 1 }

/-- Link 17 set, and messages that have been admitted. -/
def linked (ms : List FabMsg) : State := { plain with linkEn := BitVec.allOnes 18, arrived := ms, devId := 0 }

/-- R406, R407, R409: the next flit on the last link, without a message and with one that is next, ahead and behind. -/
theorem test_hyp_flits :
    (∃ L, (linked []).links[17]? = some L ∧ L.up = true ∧ (linked []).linkEn.getLsbD 17 = true ∧ L.wait = [] ∧ L.lack = 0) ∧
    (∀ p < 4, ((linked []).part p).rrEn = false ∧ ((linked []).part p).replaying = false) ∧ (linked []).dieFailed = 0 ∧
    (linked []).l1 = [] ∧ Memory.wf (linked []).mem = true ∧ (linked []).early = [] ∧
    (message 1).dst = (linked []).devId ∧ (message 1).fseq = 0 ∧ (linked []).fseqIn = [] ∧
    ahead ({ message 1 with fseq := 1 }).fseq 0 = true ∧ ahead ({ message 1 with fseq := 0xFFFFFFFF }).fseq 0 = false := by
  refine ⟨⟨_, rfl, ?_⟩, ?_⟩ <;> decide +kernel

/-- A flit that a link sends passes the check of its receiver. -/
theorem make_crcOk {a b : BitVec 16} {vc : Nat} {cr : List Nat} {m : Option FabMsg}
    (h : (FlitIn.make a b vc cr m).bytes.length = 256) : (FlitIn.make a b vc cr m).crcOk = true := by
  unfold FlitIn.crcOk
  generalize hb : FlitIn.make a b vc cr m = f at h ⊢
  unfold FlitIn.make at hb
  obtain ⟨body, hf⟩ : ∃ body, f.bytes = body ++ bytesOf 4 (crc32 body).toNat := ⟨_, by rw [← hb]⟩
  have hl : body.length = 252 := by
    have : (bytesOf 4 (crc32 body).toNat).length = 4 := by simp [bytesOf]
    rw [hf, List.length_append] at h; omega
  have hv : ofBytes (bytesOf 4 (crc32 body).toNat) = (crc32 body).toNat := by
    have := (crc32 body).isLt
    simp only [bytesOf, ofBytes, BitVec.toNat_ofNat]
    omega
  have h4 : (bytesOf 4 (crc32 body).toNat).length = 4 := by simp [bytesOf]
  have htake : f.bytes.take 252 = body := by rw [hf]; exact List.take_left' hl
  have hdrop : fieldAt f.bytes 252 4 = (crc32 body).toNat := by
    rw [fieldAt, hf, List.drop_left' hl, List.take_of_length_le (by omega), hv]
  rw [htake, hdrop]
  simp [h]

/-- The next flit, without a message and with one; one whose CRC fails; one that is ahead. -/
theorem test_hyp_flitBytes :
    (let f := FlitIn.make 0 0 3 [1, 2, 3] none
     f.crcOk = true ∧ f.lseq = 0 ∧ f.lack = 0 ∧ f.vc = 3 ∧ f.msg = none ∧ f.cred 2 = 3) ∧
    (let f := FlitIn.make 0 0 0 [0, 0, 0] (some (message 1))
     f.crcOk = true ∧ f.lseq = 0 ∧ f.msg = some (message 1)) ∧
    ({ bytes := [] } : FlitIn).crcOk = false ∧
    (let f := FlitIn.make 1 0 3 [0, 0, 0] none
     f.crcOk = true ∧ (f.lseq - 0).toNat < 2 ^ 15 ∧ f.lseq ≠ 0) :=
  ⟨⟨make_crcOk (by decide +kernel), by decide +kernel⟩, ⟨make_crcOk (by decide +kernel), by decide +kernel⟩, by decide +kernel,
    make_crcOk (by decide +kernel), by decide +kernel⟩

/-- R410: each request that is admitted and served, one whose key is not installed, one whose address is another device's. -/
theorem test_hyp_requests :
    (∀ k ∈ [1, 2, 3, 8], (message k).kind.toNat = k ∧ message k ∈ (linked [message k]).arrived) ∧
    (message 3).key = 0 ∧ (linked []).local (message 3).pa.toNat = true ∧ (linked []).badPlace (message 3).pa.toNat = false ∧
    (linked []).poisoned 0 128 4 = false ∧ servedIn (linked []) 1 0 = true ∧ (linked []).mgmt.keysUsed.getLsbD 255 = false ∧ ({ message 1 with key := 255 }).key ≠ 0 ∧
    (linked []).local ({ message 1 with pa := BitVec.ofNat 64 (2 ^ 44) }).pa.toNat = false := by decide +kernel

/-- The response of a kind to a request of a kind, which gang 0 waits for. -/
def answered (kind asked : Nat) : State :=
  let r : RemoteReq := { msg := { FabMsg.plain asked 7 0 (7 * 2 ^ 44 + 128) with mask := 1 }, sent := 0, gang := some (0, 0), job := none, lane := 0, pc := 0, va := 0, stale := false }
  { running id id fun G => { G with
      parked := some { kind := 1, part := 0, va := BitVec.ofNat 72 (7 * 2 ^ 44 + 128) }
      away := [{ lane := 0, pa := 0, key := 0, f := 0, w64 := false, operand := 0, compare := 0, dest := some 1, va := 0, acq := 0, pc := 0, tag := some 0, answer := none }] } with
    arrived := [message kind]
    remote := [{ line := (7 * 2 ^ 44 + 128) / 128, key := 0, data := 0, valid := 3, dirty := 1, clk := Vector.replicate 4 Clocks.none }]
    requests := [r]
    time := 800000 }

/-- R410: a response of each kind to a request that is open. -/
theorem test_hyp_responses : ∀ x ∈ [(4, 1), (5, 2), (6, 3), (7, 1), (7, 2), (7, 3)],
    let s := answered x.1 x.2
    let m := message x.1
    ((s.requests.find? fun q => decide (q.msg.tag = m.tag ∧ q.msg.dst = m.src)).any fun r =>
      decide (r.msg.kind = BitVec.ofNat 8 x.2) && r.job.isNone && decide (r.gang = some (0, 0) ∧ r.sent + 800000 ≤ s.time)
        && decide ((s.remoteLine (lineOf r.msg.pa.toNat) r.msg.key.toNat).valid &&& ~~~ r.msg.mask ≠ 0)
        && (s.requests.filter fun q => decide (q.msg.tag ≠ r.msg.tag)).isEmpty) = true ∧
    m ∈ s.arrived ∧ m.kind.toNat = x.1 ∧
    ((s.gang? 0 0).any fun G => G.parked.any (fun y => decide (y.kind = 1)) && G.away.any fun op => decide (op.tag = some 0)) = true := by
  decide +kernel

/-! ### The management port -/

/-- Each command's premises, at the ends of their ranges. -/
theorem test_hyp_ManagementCommands : State.reset.mgmt.step = 4 ∧ State.reset.mgmt.lastSeq < 1 ∧ 0 ≤ State.reset.mgmt.lastSeq ∧
    (∀ P ∈ State.reset.parts.toList, ∀ Q ∈ P.queues.toList, ¬ (Q.st = 1 ∨ Q.st = 3)) ∧
    (∃ P ∈ (queued fullQueue []).parts.toList, ∃ Q ∈ P.queues.toList, Q.st = 1 ∨ Q.st = 3) ∧
    0 < partsOf State.reset.code ∧ State.reset.mgmt.keysUsed.getLsbD 255 = false ∧ State.reset.mgmt.keyPairs = [] ∧
    ({ State.reset.mgmt with keysUsed := BitVec.allOnes 256 } : Mgmt).keysUsed.getLsbD 255 = true ∧
    State.reset.mgmt.pool = [] ∧ State.reset.mgmt.retired = [] ∧ ([1#64, 2#64]).Nodup ∧ ¬ ([1#64, 1#64]).Nodup ∧
    (0xBFFFFF#64).toNat * 2 ^ 16 < 0xC000000000 ∧ 0xC000000000 ≤ (0xC00000#64).toNat * 2 ^ 16 ∧ State.reset.mgmt.fwStaged = none ∧
    ({ State.reset.mgmt with fwStaged := some (1, 1, []) } : Mgmt).fwStaged = some (1, 1, []) ∧ State.reset.launches = [] ∧
    State.reset.blocks = [] ∧ State.reset.dir = [] ∧ State.reset.l1 = [] := by
  refine ⟨rfl, by decide, by decide, by decide +kernel, ?_, by decide +kernel⟩
  exact ⟨(queued fullQueue []).part 0, by decide +kernel, fullQueue, by decide +kernel, by decide⟩

/-! ### Recording and replay -/

/-- RRCTL with EN and a ring of 2^36 and of 2^25 bytes; a device in a session; a clock at the limit; a queue that runs. -/
theorem test_hyp_sessions : 0 < partsOf State.reset.code ∧ (State.reset.part 0).idle = true ∧ ((queued fullQueue []).part 0).idle = false ∧
    ((0x49#64).getLsbD 0 = true ∧ ((0x49#64).extractLsb' 1 6 : BitVec 6).toNat = 36) ∧
    ((0x33#64).getLsbD 0 = true ∧ ((0x33#64).extractLsb' 1 6 : BitVec 6).toNat = 25) ∧ (State.reset.part 0).rrBase = 0 ∧ (State.reset.part 0).rrEn = false ∧
    (let s : State := { plain with parts := vset plain.parts 0 { plain.part 0 with rrEn := true, hwm := clockLimit } }
     (s.part 0).rrEn = true ∧ clockLimit < (s.part 0).hwm + 1 ∧ (s.part 0).idle = true ∧
     (s.blocks.all fun b => (List.range b.gangs.length).all fun i => decide ((b.gangs[i]?).map (·.idx) = some i)) = true) := by decide +kernel

/-- A partition's replay registers and ring changed, beside the one gang, in chunk 0 at clock 5 with a count of 8192. -/
def session (fP : Partition → Partition) (held : Bool) : State :=
  { running id id fun G => { G with held := held, chunk := some { clock := 5, cseq := 0, count := 8192, digest := 0, clks := [], traps := [], deps := [], fabric := [], mseq := 0, prevClock := 0, sieve := [] } } with
    launches := [{ probeLaunch with number := some 0 }]
    parts := vset State.reset.parts 0 (fP (State.reset.part 0)) }

/-- A chunk that has executed its instructions in a recording. -/
theorem test_hyp_chunkEnd : let s := session (fun P => { P with rrEn := true, rrLog2sz := 26 }) false
    ((s.launchOf 0).any fun L => (s.gang? 0 0).any fun G => G.chunk.any fun k =>
      decide (L.r.chunk ≤ k.count ∧ k.clock + 1 ≤ clockLimit ∧ L.part < 4)) = true ∧ (s.replayOf 0).isNone ∧ (s.part 0).rrEn = true := by decide +kernel

/-- A frame with one record, where the ring has room, where it has not, and none. -/
theorem test_hyp_frameClose : (∀ x ∈ [(0, 0), (2 ^ 26 - 2 ^ 24, 2 ^ 26 - 2 ^ 24)],
    let P : Partition := { State.reset.part 0 with
      rrEn := true, rrLog2sz := 26, rrHead := BitVec.ofNat 64 x.1, frames := [{ src := 36, seq := 0, kept := [], bytes := [7, 0, 0] }] }
    (P.frame 36).kept = [] ∧ (P.frame 36).bytes ≠ [] ∧ P.rrMode = false ∧ P.rrHead.toNat % (2 ^ 26 - 2 ^ 24) + 64 ≤ 2 ^ 26 - 2 ^ 24 ∧
      (if x.1 = 0 then (P.rrHead - P.rrTail).toNat + 64 ≤ 2 ^ 26 - 2 ^ 24 else 2 ^ 26 - 2 ^ 24 < (P.rrHead - P.rrTail).toNat + 64)) ∧
    ((State.reset.part 0).frame 36).bytes = [] := by decide +kernel

/-- GO and HALT in each state of a replay; a buffer without frames, and one that is no frame. -/
theorem test_hyp_ReplayResults : ((1#64).getLsbD 0 = true ∧ (1#64).getLsbD 1 = false ∧ (1#64).getLsbD 2 = false ∧ (1#64).getLsbD 3 = false) ∧
    ((9#64).getLsbD 0 = true ∧ (9#64).getLsbD 1 = false ∧ (9#64).getLsbD 2 = false ∧ (9#64).getLsbD 3 = true) ∧
    ((2#64).getLsbD 0 = false ∧ (2#64).getLsbD 1 = true) ∧
    (∀ k ∈ [0, 4], let P := (session (fun P => { P with rpState := k }) false).part 0
      (P.rpState = 0 ∨ P.rpState = 4) ∧ P.idle = true ∧ P.rrEn = false) ∧
    (∀ k ∈ [1, 2, 3, 5], ((session (fun P => { P with rpState := k }) false).part 0).rpState = k) ∧
    readLog [] = some [] ∧ readLog (List.replicate 64 0) = none := by decide +kernel

/-- A partition's replay registers, on a device whose second 16 TiB are device 7's. -/
def replaying (fP : Partition → Partition) : State :=
  let s := queued Queue.reset (writeLE [] 0x1000 8 0x184000000001)
  { s with mem := writeLE s.mem 0x40008 8 (7 * 2 ^ 44 + 0x1F), parts := vset s.parts 0 (fP (s.part 0)), linkEn := 1, routes := vset s.routes 7 1 }

/-- A read of another device's memory is on its way. -/
theorem virtRead_away {s : State} {p va n : Nat} {need : Needs} (h : ((s.virtCheck p va n need).isNone && !(s.virtMissing p va n need).isEmpty
    && (s.virtMissing p va n need).all fun y => !decide (y ∈ s.deadLines)) = true) : ∃ s' : State, s.virtRead p va n need = (s', .error .away) := by
  simp only [Bool.and_eq_true, Option.isNone_iff_eq_none, Bool.not_eq_true', List.all_eq_true, decide_eq_false_iff_not] at h
  obtain ⟨⟨h1, h2⟩, h3⟩ := h
  unfold State.virtRead
  rw [h1]
  cases hm : s.virtMissing p va n need with
  | nil => simp [hm] at h2
  | cons x t =>
    rw [hm] at h3
    simp only
    rw [if_neg (by simp only [List.any_eq_true, decide_eq_true_eq]; rintro ⟨y, hy, hd⟩; exact h3 y hy hd)]
    exact ⟨_, rfl⟩

/-- A GO at a buffer that is here, of no bytes and of bytes that are no frame, and at one that another device has. -/
theorem test_hyp_replayBuffer :
    (∃ bs, (replaying id).replayBuffer 0 = (replaying id, some (some bs))) ∧
    (∃ bs, (replaying fun P => { P with rpLen := 64 }).replayBuffer 0 = (replaying fun P => { P with rpLen := 64 }, some (some bs))) ∧
    (∃ s', (replaying fun P => { P with rpSrc := 0x100000000000, rpLen := 64 }).replayBuffer 0 = (s', none)) := by
  refine ⟨?_, ?_, ?_⟩ <;> unfold State.replayBuffer <;> rw [if_neg (by decide +kernel)] <;> unfold State.namedRead
  · obtain ⟨bs, h⟩ := virtRead_here (s := replaying id) (p := 0) (va := ((replaying id).part 0).rpSrc.toNat) (n := ((replaying id).part 0).rpLen.toNat)
      (need := ⟨true, false, false⟩) (by decide +kernel)
    rw [h]; exact ⟨bs, rfl⟩
  · generalize hs : (replaying fun P => { P with rpLen := 64 }) = s
    obtain ⟨bs, h⟩ := virtRead_here (s := s) (p := 0) (va := (s.part 0).rpSrc.toNat) (n := (s.part 0).rpLen.toNat)
      (need := ⟨true, false, false⟩) (by rw [← hs]; decide +kernel)
    rw [h]; exact ⟨bs, rfl⟩
  · generalize hs : (replaying fun P => { P with rpSrc := 0x100000000000, rpLen := 64 }) = s
    obtain ⟨s', h⟩ := virtRead_away (s := s) (p := 0) (va := (s.part 0).rpSrc.toNat) (n := (s.part 0).rpLen.toNat)
      (need := ⟨true, false, false⟩) (by rw [← hs]; decide +kernel)
    rw [h]; exact ⟨s', rfl⟩

/-- Seals refused and made; a held gang whose clock is clear, and one whose clock a record holds back; a stop with and without such
a record, before any launch and with a gang that would halt inside a region. -/
theorem test_hyp_replayHolds :
    (State.reset.part 0).rpState ≠ 2 ∧
    ((replaying fun P => { P with rpState := 2 }).part 0).rpState = 2 ∧
    (∀ x ∈ [([], true), ([LogRec.drain 0 0 4], false), ([LogRec.drain 0 0 5], true)],
      let s := session (fun P => { P with rpState := 1, rpLog := x.1 }) true
      ((s.replayOf 0).any fun R => ((List.range R.rpLog.length).all fun i => !R.holdsBack 5 i) == x.2) = true ∧ (s.gang? 0 0).any (·.held) = true) ∧
    (let s := session (fun P => { P with rpState := 5, rpStop := some 5 }) true
     (s.part 0).rpState = 5 ∧ (s.part 0).rpLeft = false ∧ (s.part 0).stopAt = some 5 ∧ ∀ i < (s.part 0).rpLog.length, (s.part 0).holdsBack 5 i = false) ∧
    (let s : State := { session (fun P => { P with rpState := 1, rpStop := some 5 }) true with blocks := [] }
     ∀ b ∈ s.blocks, ∀ L, s.launch? b.launch = some L → L.part ≠ 0) ∧
    (let s := session (fun P => { P with rpState := 1, rpStop := some 5 }) true
     ({ s with blocks := s.blocks.map fun b => { b with gangs := b.gangs.map (inRegion 0) } } : State).regionHalt 0 = some 5) := by
  refine ⟨by decide +kernel, by decide +kernel, by decide +kernel, by decide +kernel, ?_, by decide +kernel⟩
  intro s b hb; cases hb

/-- Bytes of this device's memory that translate can be read. -/
theorem namedRead_here {s : State} {p va n : Nat} (h : ((s.virtCheck p va n ⟨true, false, false⟩).isNone
    && (s.virtMissing p va n ⟨true, false, false⟩).isEmpty
    && (match s.virtBytes p va n ⟨true, false, false⟩ with | .ok _ => true | .error _ => false)) = true) :
    ∃ bs, s.virtBytes p va n ⟨true, false, false⟩ = .ok bs ∧ s.namedRead p va n = (s, some (some bs)) := by
  obtain ⟨bs, hb⟩ := virtRead_here h
  refine ⟨bs, ?_, by unfold State.namedRead; rw [hb]⟩
  simp only [Bool.and_eq_true, Option.isNone_iff_eq_none, List.isEmpty_iff] at h
  unfold State.virtRead at hb
  rw [h.1.1, h.1.2] at hb
  cases hv : s.virtBytes p va n ⟨true, false, false⟩ with
  | ok b => rw [hv] at hb; cases hb; rfl
  | error _ => rw [hv] at h; simp at h

/-- RPSEAL at bytes that are no image, at an image without tiles, and at one that another device has. -/
theorem test_hyp_seal : let s := replaying fun P => { P with rpState := 2 }
    s.sealImage 0 0x2000 = (s, some none) ∧ (∃ bs, s.sealImage 0 0x1000 = (s, some (some bs))) ∧ ∃ s', s.sealImage 0 (2 ^ 44) = (s', none) := by
  intro s
  refine ⟨?_, ?_, ?_⟩ <;> unfold State.sealImage
  · obtain ⟨bs, hb, h⟩ := namedRead_here (s := s) (p := 0) (va := 0x2000) (n := 9) (by decide +kernel)
    have hv : (match s.virtBytes 0 0x2000 9 ⟨true, false, false⟩ with | .ok bs => decide (fieldAt bs 0 4 ≠ 1) | .error _ => false) = true := by decide +kernel
    rw [hb] at hv
    rw [h]
    simp only
    rw [if_pos (.inl (of_decide_eq_true hv))]
  · obtain ⟨bs, hb, h⟩ := namedRead_here (s := s) (p := 0) (va := 0x1000) (n := 9) (by decide +kernel)
    have hv : (match s.virtBytes 0 0x1000 9 ⟨true, false, false⟩ with
      | .ok bs => decide (fieldAt bs 0 4 = 1 ∧ fieldAt bs 8 1 = 0 ∧ fieldAt bs 4 4 = 0x1840) | .error _ => false) = true := by decide +kernel
    have hc : s.virtCheck 0 0x1000 0x1840 ⟨true, true, false⟩ = none := by decide +kernel
    rw [hb] at hv
    simp only [decide_eq_true_eq] at hv
    obtain ⟨bs', -, h'⟩ := namedRead_here (s := s) (p := 0) (va := 0x1000) (n := 0x1840) (by decide +kernel)
    refine ⟨bs', ?_⟩
    rw [h]
    simp only [hv.1, hv.2.1, hv.2.2]
    simpa [hc] using h'
  · obtain ⟨s', h⟩ := virtRead_away (s := s) (p := 0) (va := 2 ^ 44) (n := 9) (need := ⟨true, false, false⟩) (by decide +kernel)
    unfold State.namedRead
    rw [h]; exact ⟨s', rfl⟩

/-! ### Steps -/

/-- A run at words that decode, with nothing else due; an event on the agenda. -/
theorem test_hyp_steps :
    (let s := State.reset.withFetchWord 32 0x03000000
     s.agenda = [] ∧ (s.launches.all fun L => !s.drainDue L) = true ∧
     (s.focus.any fun x => (s.ctx x.1 x.2.1 (Hdr.plain false) 1 7).any fun c => !c.G.isParked && !c.G.held && c.G.chunk.isNone) = true ∧
     decodeWords [0x03000000] = .ok (.nop (Hdr.plain false) 0) 1 ∧
     s.makeRoom.isNone = true ∧ s.place (.thread 0 0) 0 0 ⟨false, false, true⟩ = .ok 0 0 ∧ s.local 0 = true ∧ s.poisoned 0 0 4 = false ∧
     s.place (.thread 0 0) 0 92 ⟨false, false, true⟩ = .ok 92 0 ∧ servedIn s 0 0 = true ∧
     (0x03000000#32) = BitVec.ofNat 32 (ofBytes (s.bytesAt 0 0 4))) ∧
    ({ State.reset with agenda := [.clockEnd 0] } : State).agenda = .clockEnd 0 :: [] := by decide +kernel

/-- No run, and one whose members take Illegal-Instruction; a run that ends. -/
theorem test_hyp_runs : State.reset.focus.isNone ∧ (Instr.nop going 7).hdr.isSome = true ∧
    (plain.focus.any fun x => (plain.ctx x.1 x.2.1 (Hdr.plain false) 1 7).any fun c => !plain.chunkDue 0 0 && !c.G.held && trapsIn c c.members) = true ∧
    ((plain.gang? 0 0).any fun G => (G.sheaf.any fun S => S.fp.isNone) && !G.drained && decide (G.eligible ≠ 0)) = true ∧ plain.loggedTrap 0 0 ≠ some 0x40 ∧
    ((plain.launchOf 0).any fun L => decide (L.status = 0) && !L.r.det) = true := by decide +kernel

/-- The invariants hold of the machine after reset. -/
theorem test_hyp_invariants : canonical State.reset ∧ linesOnce State.reset ∧ named State.reset := by
  refine ⟨⟨rfl, ?_, ?_⟩, List.Pairwise.nil, List.Pairwise.nil, List.Pairwise.nil, ?_, ?_, ?_⟩ <;> intro x hx <;> cases hx

/-- Well-formed instructions with a prefix of each kind and without any, and their words back (R158-R172). -/
theorem test_hyp_DecodeEncode : ∀ i ∈ [Instr.iadd going 7 111 1 127, .iaddi extended 7 111 1 0x7F, .imad third 7 3 2 1, .cvt { going with mod := some ⟨4, true, true, false, 0, false, 0, 0, false⟩ } 0 110 2 60],
    i.hdr.isSome = true ∧ i.wellFormed = true ∧ decodeWords (encode i ++ [0xFFFFFFFF]) = .ok i (encode i).length := by decide +kernel

/-! ### Encoding -/

/-- R158-R172, R193, R200-R206, R230-R234, R251-R266: the words that the spec writes out beside its instructions. -/
theorem test_decode_examples : ∀ x ∈ ([
    (0x87E01000, .reggrow (Hdr.plain true) 64), (0x11104008, .saddi going 4 4 8), (0x13140400, .sli going 5 1024), (0x101020C0, .sadd going 4 2 3),
    (0x14404142, .scmp going 2 4 5 2), (0x16182A02, .sld going 6 2 5 2), (0x180C5010, .sldparam going 3 5 16), (0x191C0480, .sfirst going 7 9),
    (0x6EE00191, .pfg going 7 3 2 1), (0x70E4A800, .copy going 7 9 20), (0x7024A800, .copy going 1 9 20), (0x34E08180, .ibit going 7 2 3 0),
    (0x34E08181, .ibit going 7 2 3 1), (0x32E602F3, .icmp going 7 1 8 5 0x73), (0x49E08206, .faddF64 going 7 2 4 6),
    (0x50E08204, .ffunF64 going 7 2 4 4), (0x40E04103, .faddF32 going 7 1 2 3), (0x52E04103, .faddF16x2 going 7 1 2 3),
    (0x3DE2048A, .vshfl going 7 8 9 10), (0x3EE04120, .vbcast going 7 1 2 0), (0x3EE0C140, .vscan going 7 3 2 0), (0x3FE10100, .vred going 7 4 2 0),
    (0x58E0410C, .cvt going 7 1 2 12), (0x58E082DA, .cvt going 7 2 5 90)] : List (Word × Instr)),
    decodeWords [x.1] = .ok x.2 1 := by decide

/-- A modifier prefix of a rounding mode, with saturation or without. -/
def roundsTo (r : BitVec 3) (sat : Bool) : Hdr := { going with mod := some ⟨r, false, sat, false, 0, false, 0, 0, false⟩ }

/-- R170-R172, R230, R255, R260: the words with prefixes that the spec writes out, an extra operand of each class, and both beside each other. -/
theorem test_decode_prefixes : ∀ x ∈ ([
    ([0x7E000007, 0x3BE14268], .iaddi { going with imm := some 7 } 7 5 4 0x68),
    ([0x7E000001, 0x6DE47A03], .barCredit { going with imm := some 1 } 7 8 488),
    ([0x7E480000, 0x40E04103], .faddF32 (roundsTo 1 false) 7 1 2 3),
    ([0x7E4A0000, 0x58E04110], .cvt (roundsTo 1 true) 7 1 2 16),
    ([0x7E80A000, 0x25E04103], .imad third 7 1 2 3),
    ([0x7E97E000, 0x3FE00100], .vred { going with ext := some (.sca 63) } 7 0 2 0)] : List (List Word × Instr)),
    decodeWords x.1 = .ok x.2 2 := by decide

/-- R170: 1,000 is 7 times 128 and 104; 9 bits of bar.credit and an extension. -/
theorem test_immediates : ({ going with imm := some 7 } : Hdr).immOf (0x68#7) true = 1000 ∧ ({ going with imm := some 1 } : Hdr).immOf (488#9) false = 1000 ∧
    going.immOf (0x7F#7) true = -1 ∧ going.immOf (0x1FF#9) false = 511 ∧ ({ going with imm := some 0x200000 } : Hdr).immOf (0#18) true = -(2 ^ 39) := by decide

/-- The reason, the word, its place and the words of a group that is no instruction. -/
def badWord (ws : List Word) : Option (Nat × Word × Nat × Nat) :=
  match decodeWords ws with
  | .illegal r w k n _ => some (r, w, k, n)
  | _ => none

/-- R166, R167: each reason on a word or a group that meets it, and the lowest one where it meets several. -/
theorem test_illegal_words : ∀ x ∈ ([
    ([0], (1, 0, 0, 1)), ([0x7F000000], (1, 0x7F000000, 0, 1)), ([0x1440414A], (2, 0x1440414A, 0, 1)),
    ([0x191E0480], (3, 0x191E0480, 0, 1)), ([0x87801000], (3, 0x87801000, 0, 1)), ([0x49E04206], (4, 0x49E04206, 0, 1)),
    ([0x20FC4103], (4, 0x20FC4103, 0, 1)), ([0x7E000007, 0x20E04103], (5, 0x7E000007, 0, 2)), ([0x7E480000, 0x7E480000, 0x40E04103], (5, 0x7E480000, 1, 3)),
    ([0x7E680000, 0x40E04103], (5, 0x7E680000, 0, 2)), ([0x7EC00000, 0x40E04103], (5, 0x7EC00000, 0, 2)), ([0x66E60690 + 9], (5, 0x66E60699, 0, 1)),
    ([0x7E000007, 0x14404142 + 8], (2, 0x1440414A, 1, 2))] : List (List (BitVec 32) × Nat × BitVec 32 × Nat × Nat)),
    badWord x.1 = some x.2 := by decide

/-- R33, R169: a prefix word with E = 1, and a group whose main word is still to come. -/
theorem test_open_groups : decodeWords [0xFE000007, 0x3BE14268] = .pfxEnd (.iaddi { going with imm := some 7 } 7 5 4 0x68) 2 ∧
    decodeWords [0x7E000007] = .more := by decide

/-- A term that fails each check of WellFormed, and is refused; the like one that is well formed. -/
theorem test_wellFormed_refuses :
    (Instr.scmp going 0 0 0 10).funcOk = false ∧ (Instr.vred { going with ext := some (.sca 3) } 7 1 2 0).reservedOk = false ∧
    (Instr.iadd64 going 7 3 2 4).codesOk = false ∧ (Instr.iadd extended 7 1 2 3).immOk = false ∧ (Instr.iadd modified 7 1 2 3).modOk = false ∧
    (Instr.iadd third 7 1 2 3).extOk = false ∧ (Instr.atomg going 7 1 2 3 9).extPresent = false ∧
    (∀ i ∈ [Instr.scmp going 0 0 0 10, .vred { going with ext := some (.sca 3) } 7 1 2 0, .iadd64 going 7 3 2 4, .iadd extended 7 1 2 3,
      .iadd modified 7 1 2 3, .iadd third 7 1 2 3, .atomg going 7 1 2 3 9, .fence going 0 2, .sset going 0 0x20, .ffunF64 going 7 2 4 3], i.wellFormed = false) ∧
    ∀ i ∈ [Instr.scmp going 0 0 0 9, .vred { going with ext := some (.sca 3) } 7 0 2 0, .iadd64 going 7 2 2 4, .iaddi extended 7 1 2 3,
      .faddF32 (roundsTo 4 false) 7 1 2 3, .imad third 7 1 2 3, .atomg third 7 1 2 3 9, .fence going 1 2, .sset going 0 0x25, .ffunF64 going 7 2 4 4,
      .clockEnd 0], i.wellFormed = true := by decide

/-! ### Values -/

/-- R87: the conversions to F8A and of F32 2.5, 300.0, 127.6 and 127.4 to I8, with their flags: OF and NX are 20, NX is 16, NV is 1. -/
theorem test_conversions :
    convert (.int 470) 5 0 false false = (0x7F, 20) ∧ convert (.int 470) 5 0 true false = (0x7E, 20) ∧
    convert (.int 455) 5 0 false false = (0x7E, 16) ∧
    (convert (.flt .f32 0x40200000) 8 0 false false = (2, 16) ∧ convert (.flt .f32 0x40200000) 8 4 false false = (3, 16) ∧
      convert (.flt .f32 0x40200000) 8 1 false false = (2, 16)) ∧
    convert (.flt .f32 0x43960000) 8 0 false false = (127, 1) ∧ convert (.flt .f32 0x42FF3333) 8 0 false false = (127, 1) ∧
    convert (.flt .f32 0x42FECCCD) 8 0 false false = (127, 16) ∧ convert (.flt .f32 0x7FC12345) 2 0 false false = (0x7FC00000, 0) := by decide

/-- R78, R82: the values of F8A 0x7E and F8B 0x7B and the signalling NaN 0x7D; planes of -37 and of 219. -/
theorem test_formats : convert (.flt .f8A 0x7E) 2 0 false false = (0x43E00000, 0) ∧ convert (.flt .f8B 0x7B) 2 0 false false = (0x47600000, 0) ∧
    convert (.flt .f8B 0x7D) 2 0 false false = (0x7FC00000, 1) ∧
    planeRead (-37) 2 false = -64 ∧ planeRead (-37) 2 true = -32 ∧ planeRead (-37) 4 false = -48 ∧ planeRead (-37) 4 true = -40 ∧
    planeRead (-37) 8 true = -37 ∧ planeRead 219 4 true = 216 := by decide

/-- R79, R85, R95: 0 times infinity beside a quiet NaN; the four steps of a block scale. -/
theorem test_float_steps :
    fFma 0 (.num false 0 0) (.inf false) (.nan false) = (.nan, 1) ∧
    (let f (b : Nat) : FVal := Fmt.f32.value b
     roundFmt (fAdd 0 (f 0x4B800000) (f 0xBFC00000)).1 .f32 0 false false = (0x4B7FFFFE, 16) ∧
     roundFmt (fMul (f 0xC0400000) (Fmt.f16.value 0x3800)).1 .f32 0 false false = (0xBFC00000, 0) ∧
     roundFmt (fAdd 0 (f 0x4B800000) (f 0x3F800000)).1 .f32 0 false false = (0x4B800000, 16)) ∧
    fRint .f32 0 0xC0200000 = (0xC0000000, 16) ∧ fRint .f32 4 0xC0200000 = (0xC0400000, 16) ∧ (fRint .f32 2 0xBF000000).1 = 0x80000000 := by decide

/-- R7, R318, R353: an issuer index, a die and a slice as the spec works them out. -/
theorem test_indices : issuerIndex 3 5 7 2 = 0x00C014E000000002 ∧ ({ probeRecord with affsel := 1, affmul := 0x9E3779B9 } : LaunchRec).dieIndex 5 4 = 0 ∧
    sliceOf (0x5A370040 / 128) = 109 := by decide

/-- R344: the walk of 0x1000_8003_0040 through the four tables, with its entry's key and permissions. -/
theorem test_walk :
    let m := writeLE (writeLE (writeLE (writeLE [] 0x100000 8 0x200001) 0x200008 8 0x300001) 0x300010 8 0x400001) 0x400018 8 0x030000005A37000F
    ({ State.reset with mem := m, parts := vset State.reset.parts 0 { State.reset.part 0 with troot := 0x100000 } } : State).walk 0 0x100080030040
      = .ok 0x5A370040 3 0 true true false := by decide +kernel

/-- R385, R398, R422: the chunk records that the spec writes out. -/
theorem test_chunk_records :
    let c : ChunkState := { clock := 1, cseq := 0, count := 40, digest := 0, clks := [], traps := [], deps := [], fabric := [], mseq := 0, prevClock := 0, sieve := [] }
    chunkRecord c 0 0 0 0 8192 1 false = [0x01, 0x01, 0x00, 0x00, 0x00, 0x00, 0x01, 0xAF, 0x7F, 0x00, 0x00, 0x00, 0x00] ∧
    chunkRecord { c with clock := 9, cseq := 1, count := 3, deps := [(7, 8)] } 0 0 0 1 1024 2 false
      = [0x01, 0x02, 0x00, 0x00, 0x00, 0x01, 0x08, 0xF9, 0x0F, 0x00, 0x00, 0x01, 0x00, 0x07, 0x00, 0x00, 0x00, 0x01] := by decide

/-! ### One instruction -/

/-- What an instruction leaves of gang 0. -/
def gangAfter (i : Instr) (s : State) : Option Gang :=
  match exec i s with
  | .next t => t.gang? 0 0
  | _ => none

/-- A state whose gang has the members of a mask. -/
def members (m : BitVec 32) (f : Gang → Gang) : State := running id id fun G => f { G with sheaf := G.sheaf.map fun S => { S with members := m } }

/-- R198: only sadda carries into bits 71:64. -/
theorem test_sadd_wraps : let s := members (BitVec.allOnes 32) fun G => { G with s := vset (vset G.s 4 0xFFFFFFFFFFFFFFF0) 3 0x20 }
    (gangAfter (.sadd going 6 4 3) s).map (·.sreg 6) = some 0x10 ∧ (gangAfter (.sadda going 6 4 3) s).map (·.sreg 6) = some 0x010000000000000010 := by
  decide +kernel

/-- R181: the call of lanes 4 and 5 alone, to F = 0x80 from 0x40. -/
theorem test_call_diverges : let s := running id id fun G => { lanesAre 0x30 (fun t => t.setPred 2 true) G with sheaf := G.sheaf.map fun S => { S with pc := 0x40 } }
    (match exec (.call (Hdr.plain true) 2 16) s with
      | .next t => (t.gang? 0 0).map fun G => (List.range 8).map fun l => ((G.lane l).pc, (G.lane l).lnk)
      | _ => none) = some [(0x44, 0), (0x44, 0), (0x44, 0), (0x44, 0), (0x80, 0x44), (0x80, 0x44), (0x44, 0), (0x44, 0)] := by decide +kernel

/-- R192: the lowest active lane is elected. -/
theorem test_elect : let s := members 0x308 (lanesAre 0x300 fun t => t.setPred 4 true)
    (gangAfter (.elect going 4 1) s).map (fun G => [3, 8, 9].map fun l => (G.lane l).pred 1) = some [false, true, false] := by decide +kernel

/-- R250: the field of 0xF0F0_1234 at bit 4 of 12 bits. -/
theorem test_ibfe : let s := members 1 (lanesAre 1 fun t => (t.setReg 1 0xF0F01234).setReg 2 0x00010C04)
    (gangAfter (.ibfe going 7 3 1 2) s).map (fun G => (G.lane 0).reg 3) = some 0x123 := by decide +kernel

/-- Lanes 0 to 3 with 7, -7, the most negative number and 9 in v5, and 2, 2, -1 and 0 in v6; lane 3 not active under p1. -/
def dividing : State := members 0xF fun G => { G with lanes := Vector.ofFn fun l : Fin 32 => ((((G.lane l.val).setReg 5 ([7, 0xFFFFFFF9, 0x80000000, 9].getD l.val 0)).setReg 6
    ([2, 2, 0xFFFFFFFF, 0].getD l.val 1)).setReg 4 77).setPred 1 (decide (l.val < 3)) }

/-- R252: the quotients with lane 3 guarded off; with its zero divisor every member traps and v4 keeps its values. -/
theorem test_idiv :
    (gangAfter (.idivI32 going 1 4 5 6) dividing).map (fun G => (List.range 4).map fun l => (G.lane l).reg 4) = some [3, 0xFFFFFFFD, 0x80000000, 77] ∧
    (gangAfter (.idivI32 going 7 4 5 6) dividing).map (fun G => ((List.range 4).map fun l => ((G.lane l).reg 4, (G.lane l).taddr, (G.lane l).tinfo)).eraseDups)
      = some [(77, 8, 3)] := by decide +kernel

/-- R265: the inclusive sums of 1.0, 2^24, 1.0 and 1.0 in their order. -/
theorem test_vscan_order : let s := members 0xF fun G => { G with lanes := Vector.ofFn fun l : Fin 32 => (G.lane l.val).setReg 2 (if l.val = 1 then 0x4B800000 else 0x3F800000) }
    (gangAfter (.vscan going 7 3 2 6) s).map (fun G => (List.range 4).map fun l => (G.lane l).reg 3) = some [0x3F800000, 0x4B800000, 0x4B800000, 0x4B800000] := by
  decide +kernel

/-- R24, R31, R169: a step reads the word at the PC and runs it: saddi s4, s4, 8 after reset. -/
theorem test_step_runs_word : (match step (State.reset.withFetchWord 32 0x11104008) with
    | .next t => (t.gang? 0 0).map fun G => (G.sreg 4, G.sheaf.map (·.pc))
    | _ => none) = some (8, some 4) := by decide +kernel

end Sys2Proof.Tests
end

section
/-! PROOFS. O33 fails where an update that is under way carries the chained mark already: it displaces the last update of a full
buffer, and is itself counted against the chain's room when that one goes there. -/

namespace Sys2Proof.Proofs.UpdateArrival
open Sys2Proof.Machine

/-! ### What an arrival at a full buffer does -/

/-- The fold of an arrival over a full buffer finds the one update that stands last in the order of R8. -/
theorem foldl_latest {last : DetUpdate} (ys : List DetUpdate) (m : DetUpdate) (hm : m = last ∨ m.key8 < last.key8)
    (hys : ∀ y ∈ ys, y = last ∨ y.key8 < last.key8) (hin : m = last ∨ last ∈ ys) :
    ys.foldl (fun m y => if m.key8 ≤ y.key8 then y else m) m = last := by
  induction ys generalizing m with
  | nil => simpa using hin
  | cons y ys ih =>
    obtain ⟨hy, hys⟩ := List.forall_mem_cons.1 hys
    rw [List.foldl_cons]
    split
    · next hle =>
      refine ih y hy hys (hin.elim (fun e => ?_) fun e => (List.mem_cons.1 e).imp Eq.symm id)
      exact Or.inl (hy.resolve_right (by rw [← e]; omega))
    · next hgt =>
      refine ih m hm hys (hin.imp id fun e => (List.mem_cons.1 e).resolve_left fun e => ?_)
      rcases hm with rfl | hm
      · exact hgt (e ▸ le_refl _)
      · exact hgt (e ▸ hm.le)

/-- With a single launch, the updates that the homes hold are its own. -/
theorem heldUpdates_of_launches {s : State} {L : Launch} (hs : s.launches = [L]) : s.heldUpdates = L.held := by
  simp [State.heldUpdates, hs]

/-- A change of the only launch. -/
theorem modLaunch_of_launches {s : State} {L : Launch} (hs : s.launches = [L]) (f : Launch → Launch) :
    s.modLaunch L.id f = { s with launches := [f L] } := by
  simp [State.modLaunch, hs]

/-- An arrival at a full buffer whose last update stands after the new one in the order of R8: the new one takes its place,
and the last one goes to the chain (R219), as that is with the new one held. -/
theorem exec_updateArrival_displaces {s : State} {L : Launch} {k : Nat} {x last : DetUpdate} (hs : s.launches = [L])
    (hk : L.inflight[k]? = some x) (hlast : last ∈ s.buffered (lineOf x.pa) x.key)
    (hfull : 16 ≤ (s.buffered (lineOf x.pa) x.key).length)
    (hmax : ∀ y ∈ s.buffered (lineOf x.pa) x.key, y = last ∨ y.key8 < last.key8) (hx : x.key8 < last.key8) :
    exec (.updateArrival L.id k) s = .next (State.chain
      { s with launches := [{ L with inflight := L.inflight.take k ++ L.inflight.drop (k + 1), held := L.held.erase last ++ [x] }] }
      { L with inflight := L.inflight.take k ++ L.inflight.drop (k + 1) } last) := by
  have hfind : s.launch? L.id = some L := by simp [State.launch?, hs]
  have hheld : last ∈ L.held := by
    rw [State.buffered, heldUpdates_of_launches hs] at hlast
    exact (List.mem_filter.1 hlast).1
  have hbuf : State.buffered { s with launches := [{ L with inflight := L.inflight.take k ++ L.inflight.drop (k + 1) }] }
      (lineOf x.pa) x.key = s.buffered (lineOf x.pa) x.key := by
    rw [State.buffered, State.buffered, heldUpdates_of_launches hs, heldUpdates_of_launches rfl]
  have hfold := foldl_latest (s.buffered (lineOf x.pa) x.key ++ [x]) x (.inr hx)
    (by simpa [or_imp, forall_and, hx] using hmax) (by simp [hlast])
  have hne : last ≠ x := fun e => absurd hx (by rw [e]; omega)
  have hsome : (s.buffered (lineOf x.pa) x.key).isEmpty = false := by
    rw [List.isEmpty_eq_false_iff]; exact List.ne_nil_of_mem hlast
  show execUpdateArrival L.id k s = _
  simp only [execUpdateArrival, hfind, hk, modLaunch_of_launches hs, hbuf, hsome, hfold, hne, Nat.not_lt.2 hfull, if_false,
    List.find?_cons, hheld, decide_true, Option.getD_some, State.hold]
  simp [State.modLaunch]

/-- A partition with a single launch and a chain area of 64 KiB has a full chain once that launch holds 2,048 chained updates
(R316). -/
theorem chainFull_of_launches {s : State} {L : Launch} {p : Nat} (hs : s.launches = [L]) (hp : L.part = p)
    (hroom : (s.part p).dcSize = 0x10000) : s.chainFull p = decide (2048 ≤ (L.held.filter (·.chained)).length) := by
  simp [State.chainFull, hs, hp, hroom]

/-! ### The counterexample -/

/-- An update of line 0 that counts as chained wherever it is held. -/
def marked : DetUpdate :=
  { issuer := 0, lin := 0, pa := 0, key := 0, f := 0, w64 := false, operand := 1, gang := 0, lane := 0, epoch := 1, va := 0, tpc := 0,
    chained := true }

/-- An update of the same line that stands after it in the order of R8. -/
def latest : DetUpdate := { marked with issuer := 1, chained := false }

/-- A launch with a full holding buffer, n updates in the chain, and a marked one under way. -/
def crowded (n : Nat) : Launch :=
  { probeLaunch with inflight := [marked], held := List.replicate 16 latest ++ List.replicate n marked }

/-- The device with that launch alone; its partition's chain area of 64 KiB has room for 2,048 updates. -/
def crowdedState (n : Nat) : State :=
  { State.reset with launches := [crowded n], parts := vset State.reset.parts 0 { Partition.reset with dcSize := 0x10000 } }

theorem marked_lt_latest : marked.key8 < latest.key8 := by decide

theorem buffer_crowded (n : Nat) :
    ((crowded n).held.filter fun y => !y.chained && decide (lineOf y.pa = lineOf marked.pa ∧ y.key = marked.key))
      = List.replicate 16 latest := by
  simp [crowded, latest, marked]

theorem chained_crowded (n : Nat) : (crowded n).held.filter (·.chained) = List.replicate n marked := by
  simp [crowded, latest, marked]

/-- Taking the latest update out of its buffer leaves the chained ones. -/
theorem chained_crowded_erase (n : Nat) : ((crowded n).held.erase latest).filter (·.chained) = List.replicate n marked := by
  simp [crowded, latest, marked]

theorem chainFull_crowdedState (n : Nat) : (crowdedState n).chainFull (crowded n).part = decide (2048 ≤ n) :=
  (chainFull_of_launches rfl rfl rfl).trans (by rw [chained_crowded, List.length_replicate])

/-- With 2,047 updates chained before, the marked update takes the room in the chain that the displaced one needs: the chain is
found full, and the launch's stop discards what its homes hold (R220). -/
theorem exec_updateArrival_crowdedState {n : Nat} (hn : 2047 ≤ n) : ∃ t, exec (.updateArrival 0 0) (crowdedState n) = .next t ∧
    (t.launch? 0).map (·.held) = some [] := by
  have hbuf : (crowdedState n).buffered (lineOf marked.pa) marked.key = List.replicate 16 latest := by
    rw [State.buffered, heldUpdates_of_launches rfl, buffer_crowded]
  have hrun := exec_updateArrival_displaces (s := crowdedState n) (L := crowded n) (k := 0) (x := marked) (last := latest) rfl rfl
    (by simp [hbuf]) (by simp [hbuf]) (by simp [hbuf]) marked_lt_latest
  refine ⟨_, hrun, ?_⟩
  rw [State.chain, if_pos]
  · rfl
  · refine (chainFull_of_launches (L := { crowded n with inflight := [], held := (crowded n).held.erase latest ++ [marked] })
      rfl rfl rfl).trans ?_
    rw [List.filter_append, chained_crowded_erase]
    simpa [marked] using hn

/-- What a change of that launch leaves it to hold. -/
theorem held_modLaunch_crowdedState (n : Nat) (f : Launch → Launch) (hid : (f (crowded n)).id = 0) :
    (((crowdedState n).modLaunch 0 f).launch? 0).map (·.held) = some (f (crowded n)).held := by
  rw [show 0 = (crowded n).id from rfl, modLaunch_of_launches rfl]
  simp [State.launch?, show (f (crowded n)).id = (crowded n).id from hid]

/-- Refutes O33: the clause of an update that displaces the last one of a full buffer asks for room in the chain before the
arrival only, and an update under way that carries the chained mark, which none that R218 forms does, fills the last place
itself. -/
theorem not_deterministicUpdates : ¬ Obligations.DeterministicUpdates := by
  intro h
  obtain ⟨harrive, -⟩ := h 0 0 (crowdedState 2047) (crowded 2047) marked rfl
  obtain ⟨-, -, -, -, hdisplace⟩ := harrive rfl (by rw [chainFull_crowdedState]; decide) rfl
    fun M hM hid => absurd (congrArg Launch.id (List.mem_singleton.1 hM)) hid
  obtain ⟨t, ht, hheld⟩ := exec_updateArrival_crowdedState (n := 2047) (le_refl _)
  rw [buffer_crowded] at hdisplace
  have hgives := ht.symm.trans (hdisplace latest (by simp) (by simp)
    (fun y hy hne => absurd (List.eq_of_mem_replicate hy) hne) marked_lt_latest)
  rw [Host.Outcome.next.inj hgives, held_modLaunch_crowdedState _ _ rfl] at hheld
  simp at hheld

end Sys2Proof.Proofs.UpdateArrival
end

section
/-! PROOFS. O41 fails: a recall reaches the dies 0 to 3 alone, and a home that privatises a line gives a copy to every die that
the entry's record of transfers names (R366). -/

namespace Sys2Proof.Proofs.KeyRetire
open Sys2Proof.Machine Sys2Proof.Safety

/-- The entry of line 0 under key 1: die 0 owns it, a request of die 1 for writing waits, and its three last transfers are said to
have gone to a die 7, so that the next one makes the line contended. -/
def farEntry : DirEntry :=
  { DirEntry.absent 0 1 with st := .m, sharers := 1, req := some (1, true), moves := List.replicate 3 (0, 7) }

/-- A copy of that line in a die's L2, without masks or clocks. -/
def copyAt (d : Nat) (st : L2State) : L2Line :=
  { die := d, line := 0, key := 1, st := st, own := 0, foreign := 0, clk := Vector.replicate 4 Clocks.none }

/-- A device whose partition 0 retires key 1, under which die 0 holds that line. -/
def retiring : State :=
  { State.reset with
    parts := vset State.reset.parts 0 { Partition.reset with keyRet := 1, keyBusy := true }
    l2 := [copyAt 0 .m]
    dir := [farEntry] }

/-- The L2 lines of the next state. -/
def l2After (o : Host.Outcome State Fault Refusal) : List L2Line :=
  match o with
  | .next t => t.l2
  | _ => []

/-- Before the recall the home serves the waiting request, and the line is privatised between die 1 and the die 7 of the record. The
recall then brings home what dies 0 to 3 hold; the copy of die 7 stays, and nothing after it touches the L2s. -/
theorem l2After_keyRetireComplete_retiring : l2After (exec (.keyRetireComplete 0) retiring) = [copyAt 7 .p] := by decide +kernel

/-- Refutes O41: the clause of KEY_RETIRE_COMPLETE asks that the L2 lines are of dies 0 to 3, but not that the directory's record
of transfers names no other die, as the one that R366 keeps never does. -/
theorem not_controlWindow : ¬ Obligations.ControlWindow := by
  intro h
  obtain ⟨-, -, -, -, -, -, -, hretire, -⟩ := h 0 0 0 0 retiring (by decide)
  obtain ⟨t, ht, -, -, -, -, -, hl2, -⟩ := hretire rfl (by decide) rfl (fun y hy => absurd hy List.not_mem_nil) rfl
    fun x hx => by rw [List.mem_singleton.1 hx]; decide
  have hleft := l2After_keyRetireComplete_retiring
  rw [ht] at hleft
  exact hl2 (copyAt 7 .p) (by rw [show t.l2 = [copyAt 7 .p] from hleft]; exact List.mem_singleton_self _) rfl

end Sys2Proof.Proofs.KeyRetire
end

section
/-! PROOFS. What the homes and the caches do between accesses leaves blocks, service and device time as they are, and changes no
byte of memory unless an L1 gives up a dirty one. -/

namespace Sys2Proof.Proofs.Caches
open Sys2Proof.Machine Sys2Proof.Safety Sys2Proof.Laws

/-- The state t differs from s by what homes and caches do: lines move between them, but blocks, service and device time stay, and
without a dirty byte in an L1 every byte of memory stays too. -/
structure Upkeep (s t : State) : Prop where
  blocks : t.blocks = s.blocks
  mgmt : t.mgmt = s.mgmt
  time : t.time = s.time
  bytes : noDirty s → noDirty t ∧ SameBytes s t

theorem Upkeep.refl (s : State) : Upkeep s s := ⟨rfl, rfl, rfl, fun h => ⟨h, fun _ _ => rfl⟩⟩

theorem Upkeep.trans {s t u : State} (h : Upkeep s t) (h' : Upkeep t u) : Upkeep s u where
  blocks := h'.blocks.trans h.blocks
  mgmt := h'.mgmt.trans h.mgmt
  time := h'.time.trans h.time
  bytes hs := by
    obtain ⟨ht, hst⟩ := h.bytes hs
    obtain ⟨hu, htu⟩ := h'.bytes ht
    exact ⟨hu, fun key pa => (htu key pa).trans (hst key pa)⟩

theorem Upkeep.ite {s t u : State} {c : Prop} [Decidable c] (ht : Upkeep s t) (hu : Upkeep s u) :
    Upkeep s (if c then t else u) := by
  split
  · exact ht
  · exact hu

/-! ### Updates that the bytes do not depend on -/

variable {s t : State}

/-- A byte of memory is made from the slices' lines, the bytes of HBM4 and what stands beside them. -/
theorem byteAt_congr {t u : State} (hl3 : u.l3 = t.l3) (hlines : u.lines = t.lines) (hmem : u.mem = t.mem) : SameBytes t u := by
  intro key pa
  unfold State.byteAt State.l3Line? State.hbmByte State.line
  rw [hl3, hlines, hmem]

/-- A change of anything but the L1s, the slices and HBM4 is upkeep. -/
theorem Upkeep.of_eq {u : State} (h : Upkeep s t) (hblocks : u.blocks = t.blocks) (hmgmt : u.mgmt = t.mgmt) (htime : u.time = t.time)
    (hl1 : u.l1 = t.l1) (hl3 : u.l3 = t.l3) (hlines : u.lines = t.lines) (hmem : u.mem = t.mem) : Upkeep s u :=
  h.trans ⟨hblocks, hmgmt, htime, fun hd => ⟨by rwa [noDirty, hl1], byteAt_congr hl3 hlines hmem⟩⟩

/-- FLOOR rises, and nothing else changes. -/
theorem raiseFloor_eq (s : State) (n : Nat) (c : Vector Clocks 4) : s.raiseFloor n c = { s with floor := (s.raiseFloor n c).floor } :=
  foldl_keeps (fun t : State => t = { s with floor := t.floor }) _
    (fun t _ ht => by dsimp only; split; exacts [ht, by rw [ht]]) _ _ rfl

theorem setRemote_eq (s : State) (x : RemoteLine) :
    s.setRemote x = { s with remote := (s.setRemote x).remote, floor := (s.setRemote x).floor } := by
  unfold State.setRemote
  split
  · exact congrArg (fun u : State => ({ u with remote := s.remote.filter _ } : State)) (raiseFloor_eq ..)
  · rfl

theorem Upkeep.setL2 (h : Upkeep s t) (x : L2Line) : Upkeep s (t.setL2 x) := h.of_eq rfl rfl rfl rfl rfl rfl rfl

theorem Upkeep.setL2st (h : Upkeep s t) (d line key : Nat) (st : L2State) : Upkeep s (t.setL2st d line key st) := h.setL2 _

theorem Upkeep.useL2 (h : Upkeep s t) (d line key : Nat) : Upkeep s (t.useL2 d line key) := by
  unfold State.useL2
  split
  · exact h.setL2 _
  · exact h

theorem Upkeep.setEntry (h : Upkeep s t) (e : DirEntry) : Upkeep s (t.setEntry e) := by
  unfold State.setEntry
  dsimp only
  split <;> exact h.of_eq rfl rfl rfl rfl rfl rfl rfl

theorem Upkeep.freeEntry (h : Upkeep s t) (line key : Nat) : Upkeep s (t.freeEntry line key) := h.of_eq rfl rfl rfl rfl rfl rfl rfl

theorem Upkeep.idleEntry (h : Upkeep s t) (line key : Nat) : Upkeep s (t.idleEntry line key) := .ite h (h.setEntry _)

theorem Upkeep.restEntry (h : Upkeep s t) (line key : Nat) : Upkeep s (t.restEntry line key) :=
  .ite (h.freeEntry ..) (h.setEntry _)

/-! ### Lines in a slice and in HBM4 -/

/-- A change of a slice's line but for its data changes no byte. -/
theorem byteAt_modL3 (s : State) (line key : Nat) (f : L3Line → L3Line) (hf : ∀ x, (f x).line = x.line ∧ (f x).key = x.key)
    (hdata : ∀ x, (f x).data = x.data) : SameBytes s (s.modL3 line key f) := by
  intro key' pa
  simp only [State.byteAt, l3Line?_modL3 s line key _ _ f hf]
  by_cases hk : line = lineOf pa ∧ key = key'
  · rw [if_pos hk]
    cases s.l3Line? (lineOf pa) key' with
    | none => rfl
    | some x => exact congrArg (lineByte · _) (hdata x)
  · rw [if_neg hk]
    rfl

/-- What HBM4 holds beside a line after a change for one line. -/
theorem line_modLine (s : State) (n m : Nat) (f : LineMeta → LineMeta) (hf : ∀ x, (f x).line = x.line) :
    (s.modLine n f).line m = if m = n then f (s.line n) else s.line m := by
  have hmap : ∀ xs : List LineMeta, (xs.map fun x => if x.line = n then f x else x).find? (fun x => decide (x.line = m)) =
      (xs.find? fun x => decide (x.line = m)).map fun x => if x.line = n then f x else x := by
    intro xs
    rw [List.find?_map]
    congr 2
    funext x
    simp only [Function.comp]
    split
    · rw [hf]
    · rfl
  unfold State.modLine
  split
  · next hany =>
    simp only [State.line, hmap]
    cases hfind : s.lines.find? fun x => decide (x.line = m) with
    | none =>
      have hne : m ≠ n := by
        rintro rfl
        obtain ⟨x, hx, hxm⟩ := List.any_eq_true.1 hany
        exact List.find?_eq_none.1 hfind x hx hxm
      simp [hne]
    | some x =>
      have hx : x.line = m := by simpa using List.find?_some hfind
      by_cases hm : m = n
      · subst hm; simp [hx, hfind]
      · simp [hx, hm]
  · next hany =>
    have hnone : s.lines.find? (fun x => decide (x.line = n)) = none := by
      simpa [List.find?_eq_none] using hany
    by_cases hm : m = n
    · subst hm; simp [State.line, hnone, hf, LineMeta.blank]
    · have : (f (LineMeta.blank n)).line ≠ m := by rw [hf]; exact fun e => hm e.symm
      simp [State.line, this, hm]

/-- Only HBM4's record of lines changes. -/
theorem modLine_eq (s : State) (n : Nat) (f : LineMeta → LineMeta) : s.modLine n f = { s with lines := (s.modLine n f).lines } := by
  unfold State.modLine
  split <;> rfl

/-- A change of what stands beside a line but for its key changes no byte. -/
theorem byteAt_modLine (s : State) (n : Nat) (f : LineMeta → LineMeta) (hf : ∀ x, (f x).line = x.line)
    (hkey : ∀ x, (f x).key = x.key) : SameBytes s (s.modLine n f) := by
  intro key pa
  have hk : ((s.modLine n f).line (lineOf pa)).key = (s.line (lineOf pa)).key := by
    rw [line_modLine s n _ f hf]
    split
    · next h => rw [hkey, h]
    · rfl
  have hl3 : (s.modLine n f).l3Line? (lineOf pa) key = s.l3Line? (lineOf pa) key := by rw [modLine_eq]; rfl
  simp only [State.byteAt, State.hbmByte, hl3, hk, modLine_mem]

theorem Upkeep.modL3 (h : Upkeep s t) (line key : Nat) (f : L3Line → L3Line)
    (hf : ∀ x, (f x).line = x.line ∧ (f x).key = x.key) (hdata : ∀ x, (f x).data = x.data) : Upkeep s (t.modL3 line key f) :=
  h.trans ⟨rfl, rfl, rfl, fun hd => ⟨hd, byteAt_modL3 t line key f hf hdata⟩⟩

theorem Upkeep.modLine (h : Upkeep s t) (n : Nat) (f : LineMeta → LineMeta) (hf : ∀ x, (f x).line = x.line)
    (hkey : ∀ x, (f x).key = x.key) : Upkeep s (t.modLine n f) := by
  have he := modLine_eq t n f
  exact h.trans ⟨by rw [he], by rw [he], by rw [he], fun hd => ⟨by rw [he]; exact hd, byteAt_modLine t n f hf hkey⟩⟩

/-- Only the slices change. -/
theorem l3Fill_eq (s : State) (line key : Nat) : s.l3Fill line key = { s with l3 := (s.l3Fill line key).l3 } := by
  unfold State.l3Fill
  split <;> rfl

theorem Upkeep.l3Fill (h : Upkeep s t) (line key : Nat) : Upkeep s (t.l3Fill line key) := by
  have he := l3Fill_eq t line key
  exact h.trans ⟨by rw [he], by rw [he], by rw [he], fun hd => ⟨by rw [he]; exact hd, byteAt_l3Fill t line key⟩⟩

theorem Upkeep.poison (h : Upkeep s t) (line key : Nat) (pieces : BitVec 16) (src : BitVec 2) :
    Upkeep s (t.poison line key pieces src) := by
  unfold State.poison
  split
  · exact (h.l3Fill line key).modL3 _ _ _ (fun _ => ⟨rfl, rfl⟩) fun _ => rfl
  · exact h.modLine _ _ (fun _ => rfl) fun _ => rfl

theorem Upkeep.modHomeClocks (h : Upkeep s t) (line key : Nat) (f : Vector Clocks 4 → Vector Clocks 4) :
    Upkeep s (t.modHomeClocks line key f) := by
  unfold State.modHomeClocks
  split
  · exact (h.l3Fill line key).modL3 _ _ _ (fun _ => ⟨rfl, rfl⟩) fun _ => rfl
  · exact h.of_eq rfl rfl rfl rfl rfl rfl rfl

theorem Upkeep.homeData (h : Upkeep s t) (line key : Nat) : Upkeep s (t.homeData line key) :=
  .ite (h.l3Fill ..) h

/-! ### The L1s give up bytes -/

/-- A write below the L1s changes slices, proxy copies and what stands beside a line. -/
theorem writeMasked_eq (s : State) (line key : Nat) (d : BitVec 1024) (m : BitVec 128) (whole : BitVec 16) :
    let t := s.writeMasked line key d m whole
    t = { s with l3 := t.l3, writes := t.writes, lines := t.lines, remote := t.remote, floor := t.floor } := by
  dsimp only
  unfold State.writeMasked
  split
  · rfl
  · split
    · unfold State.writeLine
      rw [l3Fill_eq]
      rfl
    · dsimp only
      rw [setRemote_eq]
      split
      · rfl
      · rw [modLine_eq]

/-- Where no L1 holds a dirty byte, there is nothing to collect. -/
theorem collectL1_eq_self (hd : noDirty t) (cl line key : Nat) (allow : BitVec 128) : t.collectL1 cl line key allow = t := by
  unfold State.collectL1
  split
  · rfl
  · next x hx => simp [hd x (List.mem_of_find?_eq_some hx)]

theorem Upkeep.collectL1 (h : Upkeep s t) (cl line key : Nat) (allow : BitVec 128) : Upkeep s (t.collectL1 cl line key allow) := by
  have hkept : (t.collectL1 cl line key allow).blocks = t.blocks ∧ (t.collectL1 cl line key allow).mgmt = t.mgmt ∧
      (t.collectL1 cl line key allow).time = t.time := by
    unfold State.collectL1
    split
    · exact ⟨rfl, rfl, rfl⟩
    · dsimp only
      split
      · exact ⟨rfl, rfl, rfl⟩
      · rw [writeMasked_eq]
        exact ⟨rfl, rfl, rfl⟩
  obtain ⟨hblocks, hmgmt, htime⟩ := hkept
  exact h.trans ⟨hblocks, hmgmt, htime, fun hd => by rw [collectL1_eq_self hd]; exact ⟨hd, fun _ _ => rfl⟩⟩

theorem Upkeep.collectDie (h : Upkeep s t) (d line key : Nat) : Upkeep s (t.collectDie d line key) := by
  have hall (a : BitVec 128) : Upkeep s ((List.range 8).foldl (fun s c => s.collectL1 (8 * d + c) line key a) t) :=
    foldl_keeps (Upkeep s) _ (fun _ _ hu => hu.collectL1 ..) _ _ h
  unfold State.collectDie
  dsimp only
  split
  · exact (hall _).setL2 _
  · exact hall _

/-- In record mode only clean bytes are dropped. -/
theorem Upkeep.dropForRecord (h : Upkeep s t) (d line key : Nat) : Upkeep s (t.dropForRecord d line key) := by
  unfold State.dropForRecord
  split
  · refine h.trans ⟨rfl, rfl, rfl, fun hd => ⟨fun y hy => ?_, fun _ _ => rfl⟩⟩
    obtain ⟨x, hx, hxy⟩ := List.mem_filterMap.1 hy
    have hclean := hd x hx
    split at hxy
    · simp at hxy
    · rw [← Option.some.inj hxy]; exact hclean
  · exact h

theorem Upkeep.downgrade (h : Upkeep s t) (line key d : Nat) (st : L2State) : Upkeep s (t.downgrade line key d st) :=
  (h.setL2st ..).dropForRecord ..

theorem Upkeep.giveUp (h : Upkeep s t) (line key d : Nat) : Upkeep s (t.giveUp line key d) := by
  have hcollected := h.collectDie d line key
  exact (Upkeep.setL2st (.ite (hcollected.modHomeClocks ..) hcollected) ..).dropForRecord ..

/-! ### What a home does -/

theorem Upkeep.giveUps (h : Upkeep s t) (line key : Nat) (ds : List Nat) :
    Upkeep s (ds.foldl (fun s d => s.giveUp line key d) t) :=
  foldl_keeps (Upkeep s) _ (fun _ _ hu => hu.giveUp ..) _ _ h

theorem Upkeep.setL2sts (h : Upkeep s t) (line key : Nat) (st : L2State) (ds : List Nat) :
    Upkeep s (ds.foldl (fun s d => s.setL2st d line key st) t) :=
  foldl_keeps (Upkeep s) _ (fun _ _ hu => hu.setL2st ..) _ _ h

theorem Upkeep.recallCopies (h : Upkeep s t) (line key : Nat) : Upkeep s (t.recallCopies line key) := h.giveUps ..

theorem Upkeep.settle (h : Upkeep s t) (line key : Nat) : Upkeep s (t.settle line key) := by
  unfold State.settle
  extract_lets e dead lost owned priv cleared merged poisoned gone late
  have hcleared : Upkeep s cleared := h.setL2sts ..
  have hmerged : Upkeep s merged := .ite (hcleared.setL2sts ..) (.ite (hcleared.recallCopies ..) hcleared)
  have hpoisoned : Upkeep s poisoned := .ite (hmerged.poison ..) (.ite (hmerged.poison ..) hmerged)
  refine .ite h ?_
  split
  · exact .ite (hpoisoned.setEntry _) (hpoisoned.setEntry _)
  · exact .ite (hpoisoned.idleEntry ..) (hpoisoned.setEntry _)

theorem Upkeep.directoryError (h : Upkeep s t) (line key : Nat) : Upkeep s (t.directoryError line key) := by
  have hrecalled := (h.settle line key).recallCopies line key
  exact Upkeep.setEntry (.ite hrecalled (hrecalled.poison ..)) _

theorem Upkeep.readEntry (h : Upkeep s t) (line key : Nat) : Upkeep s (t.readEntry line key) := .ite (h.directoryError ..) h

theorem Upkeep.privatise (h : Upkeep s t) (line key : Nat) (ms : List (Nat × BitVec 128)) : Upkeep s (t.privatise line key ms) := by
  unfold State.privatise
  exact (foldl_keeps (Upkeep s) _ (fun _ _ hu => hu.setL2 _) _ _ h).setEntry _

theorem Upkeep.grantS (h : Upkeep s t) (line key d : Nat) : Upkeep s (t.grantS line key d) := by
  unfold State.grantS
  extract_lets merged e bit
  have hmerged : Upkeep s merged := .ite ((h.recallCopies ..).idleEntry ..) h
  split
  · next o _ =>
    have hcollected := hmerged.collectDie o line key
    refine .ite hmerged ?_
    dsimp only
    split
    · exact ((hcollected.downgrade ..).setL2st ..).setEntry _
    · exact ((hcollected.downgrade ..).setL2st ..).setEntry _
    · exact (hcollected.setL2st ..).setEntry _
  · exact .ite (((hmerged.homeData ..).setL2st ..).setEntry _) (((hmerged.homeData ..).setL2st ..).setEntry _)

theorem Upkeep.grantM (h : Upkeep s t) (line key d : Nat) (mask : BitVec 128) : Upkeep s (t.grantM line key d mask) := by
  unfold State.grantM
  extract_lets e from_ moves given filled alone ms
  have hfilled : Upkeep s filled := (h.giveUps ..).homeData ..
  have halone : Upkeep s alone := (hfilled.setL2st ..).setEntry _
  exact .ite (.ite (((hfilled.recallCopies ..).setEntry _).privatise ..) halone) halone

theorem Upkeep.grant (h : Upkeep s t) (line key : Nat) (r : Nat × Bool) : Upkeep s (t.grant line key r) :=
  .ite h (.ite (.ite h (h.grantM ..)) (.ite (h.grantS ..) h))

theorem Upkeep.finishHeld (h : Upkeep s t) (line key : Nat) : Upkeep s (t.finishHeld line key) := by
  unfold State.finishHeld
  dsimp only
  split
  · exact h
  · exact foldl_keeps (Upkeep s) _ (fun _ _ hu => hu.grant ..) _ _ (h.restEntry ..)

theorem Upkeep.touch (h : Upkeep s t) (line key : Nat) : Upkeep s (t.touch line key) :=
  ((h.readEntry ..).settle ..).finishHeld ..

theorem Upkeep.recallLine (h : Upkeep s t) (line key : Nat) : Upkeep s (t.recallLine line key) :=
  ((h.touch ..).recallCopies ..).idleEntry ..

theorem Upkeep.allocEntry (h : Upkeep s t) (line key : Nat) : Upkeep s (t.allocEntry line key) := by
  unfold State.allocEntry
  dsimp only
  split
  · exact h
  · split
    · exact h
    · split
      · exact (h.recallLine ..).freeEntry ..
      · exact (h.recallLine ..).freeEntry ..
      · exact h

/-! ### A cluster writes its lines back -/

theorem Upkeep.maskRequest (h : Upkeep s t) (line key d : Nat) (mask : BitVec 128) : Upkeep s (t.maskRequest line key d mask) := by
  have htouched := h.touch line key
  exact .ite ((foldl_keeps (Upkeep s) _ (fun _ _ hu => hu.setL2 _) _ _ htouched).setL2 _) (htouched.grantM ..)

theorem Upkeep.getModified (h : Upkeep s t) (line key d : Nat) (mask : BitVec 128) : Upkeep s (t.getModified line key d mask) := by
  unfold State.getModified
  dsimp only
  split
  · exact h.useL2 ..
  · exact h.setL2 _
  · split
    · exact h.useL2 ..
    · exact h.maskRequest ..
  · exact ((h.touch ..).allocEntry ..).grantM ..

theorem Upkeep.writeBack (h : Upkeep s t) (cl line key : Nat) : Upkeep s (t.writeBack cl line key) := by
  unfold State.writeBack
  split
  · exact h
  · split
    · exact h
    · exact (h.getModified ..).collectL1 ..

theorem Upkeep.releaseCluster (h : Upkeep s t) (cl : Nat) : Upkeep s (t.releaseCluster cl) :=
  foldl_keeps (Upkeep s) _ (fun _ _ hu => hu.writeBack ..) _ _ h

/-- Where no L1 holds a dirty byte, there is nothing to write back. -/
theorem writeBack_eq_self (hd : noDirty t) (cl line key : Nat) : t.writeBack cl line key = t := by
  unfold State.writeBack
  split
  · rfl
  · next x hx => simp [hd x (List.mem_of_find?_eq_some hx)]

theorem Upkeep.dropCaches (h : Upkeep s t) : Upkeep s { t with l1 := [], l2 := [], dir := [], tlb := [], tables := [] } :=
  h.trans ⟨rfl, rfl, rfl, fun _ => ⟨fun _ hy => absurd hy List.not_mem_nil, fun _ _ => rfl⟩⟩

theorem Upkeep.emptyDies (h : Upkeep s t) : Upkeep s t.emptyDies := by
  have hreleased : Upkeep s ((List.range 32).foldl (fun s cl => s.releaseCluster cl) t) :=
    foldl_keeps (Upkeep s) _ (fun _ _ hu => hu.releaseCluster _) _ _ h
  have hrecalled := fun xs : List L2Line =>
    foldl_keeps (Upkeep s) (fun s x => s.recallLine x.line x.key) (fun _ _ hu => hu.recallLine ..) xs _ hreleased
  exact (hrecalled _).dropCaches

end Sys2Proof.Proofs.Caches
end

section
/-! PROOFS. A slice that fails writes its dirty lines back to HBM4, and every line whose place in HBM4 is its own reads as before. -/

namespace Sys2Proof.Proofs.Slices
open Sys2Proof.Machine Sys2Proof.Safety Sys2Proof.Laws Sys2Proof.Proofs.Caches

/-! ### Writing a line back -/

/-- Only HBM4 changes. -/
theorem hbmPut_eq (s : State) (x : L3Line) : s.hbmPut x = { s with mem := (s.hbmPut x).mem, lines := (s.hbmPut x).lines } := by
  unfold State.hbmPut
  split
  · rw [modLine_eq]
  · rfl

theorem hbmPut_clean {s : State} {x : L3Line} (hx : ¬ x.dirty = true) : s.hbmPut x = s := if_neg hx

theorem hbmPut_mem {s : State} {x : L3Line} (hx : x.dirty = true) :
    (s.hbmPut x).mem = writeBytes s.mem (offOf (x.line * 128)) ((List.range 128).map (lineByte x.data)) := by
  unfold State.hbmPut
  rw [if_pos hx, modLine_mem]

theorem line_hbmPut {s : State} {x : L3Line} (hx : x.dirty = true) (n : Nat) : (s.hbmPut x).line n =
    if n = x.line then { s.line x.line with key := x.key, poison := x.poison, psrc := x.psrc } else s.line n := by
  unfold State.hbmPut
  rw [if_pos hx]
  generalize writeBytes s.mem _ _ = m
  exact line_modLine _ x.line n _ (by exact fun _ => rfl)

@[simp] theorem hbmPut_l3 (s : State) (x : L3Line) : (s.hbmPut x).l3 = s.l3 := by rw [hbmPut_eq]

theorem l3Drop_of_none {s : State} {line key : Nat} (h : s.l3Line? line key = none) : s.l3Drop line key = s := by
  unfold State.l3Drop
  rw [h]

/-- The state t differs from s in the slices, HBM4 and FLOOR alone. -/
def OnlyHomes (s t : State) : Prop := t = { s with l3 := t.l3, mem := t.mem, lines := t.lines, floor := t.floor }

theorem OnlyHomes.trans {s t u : State} (h : OnlyHomes s t) (h' : OnlyHomes t u) : OnlyHomes s u := by
  rw [OnlyHomes] at h'
  rw [h', h]
  rfl

theorem OnlyHomes.blocks {s t : State} (h : OnlyHomes s t) : t.blocks = s.blocks := by rw [h]
theorem OnlyHomes.mgmt {s t : State} (h : OnlyHomes s t) : t.mgmt = s.mgmt := by rw [h]
theorem OnlyHomes.time {s t : State} (h : OnlyHomes s t) : t.time = s.time := by rw [h]

theorem onlyHomes_l3Drop (s : State) (line key : Nat) : OnlyHomes s (s.l3Drop line key) := by
  unfold State.l3Drop
  split
  · rfl
  · dsimp only
    rw [hbmPut_eq, raiseFloor_eq]
    rfl

/-- The slices lose that line and keep the others. -/
theorem l3_l3Drop (s : State) (line key : Nat) :
    (s.l3Drop line key).l3 = s.l3.filter fun y => decide (¬ (y.line = line ∧ y.key = key)) := by
  unfold State.l3Drop
  split
  · next hnone =>
    exact (List.filter_eq_self.2 fun y hy => by simpa [imp_iff_not_or] using List.find?_eq_none.1 hnone y hy).symm
  · dsimp only
    rw [hbmPut_l3, raiseFloor_eq]

theorem l3Drop_of_found {s : State} {line key : Nat} {z : L3Line} (hz : s.l3Line? line key = some z) : s.l3Drop line key =
    State.hbmPut { s with l3 := (s.l3Drop line key).l3, floor := (s.raiseFloor line z.clk).floor } z := by
  rw [l3_l3Drop]
  unfold State.l3Drop
  rw [hz]
  dsimp only
  rw [raiseFloor_eq]

theorem l3Line?_l3Drop (s : State) (line key line' key' : Nat) : (s.l3Drop line key).l3Line? line' key' =
    if line = line' ∧ key = key' then none else s.l3Line? line' key' := by
  unfold State.l3Line?
  rw [l3_l3Drop, List.find?_filter]
  split
  · next h =>
    obtain ⟨rfl, rfl⟩ := h
    exact List.find?_eq_none.2 fun x _ => by simp +contextual [imp_iff_not_or]
  · next h =>
    congr 1
    funext x
    by_cases hx : x.line = line' ∧ x.key = key'
    · obtain ⟨rfl, rfl⟩ := hx
      have : ¬ (x.line = line ∧ x.key = key) := fun e => h ⟨e.1.symm, e.2.symm⟩
      simp [this]
    · simp [hx]

/-! ### What HBM4 holds -/

/-- HBM4 holds a line's bytes under its key. -/
def InHbm (s : State) (x : L3Line) : Prop :=
  (s.line x.line).key = x.key ∧ ∀ i < 128, sread s.mem (offOf (x.line * 128) + i) = lineByte x.data i

theorem offOf_line_byte (line i : Nat) (hi : i < 128) : offOf (line * 128 + i) = offOf (line * 128) + i := by
  unfold offOf
  omega

theorem lineOf_line_byte (line i : Nat) (hi : i < 128) : lineOf (line * 128 + i) = line := by
  unfold lineOf
  omega

theorem InHbm.congr {s t : State} {x : L3Line} (h : InHbm s x) (hmem : t.mem = s.mem) (hlines : t.lines = s.lines) : InHbm t x := by
  unfold InHbm State.line at h ⊢
  rwa [hmem, hlines]

/-- A dirty line that is written back stands in HBM4. -/
theorem inHbm_hbmPut {s : State} {x : L3Line} (hs : memOk s) (hx : x.dirty = true) : InHbm (s.hbmPut x) x := by
  refine ⟨by rw [line_hbmPut hx, if_pos rfl], fun i hi => ?_⟩
  rw [hbmPut_mem hx, sread_writeBytes_same _ _ i hs (by simpa using hi)]
  simp

/-- A line at another place of HBM4 that is written back leaves this one there. -/
theorem InHbm.hbmPut_other {s : State} {x : L3Line} (h : InHbm s x) (z : L3Line)
    (hz : offOf (z.line * 128) ≠ offOf (x.line * 128)) : InHbm (s.hbmPut z) x := by
  obtain ⟨hkey, hbytes⟩ := h
  by_cases hd : z.dirty = true
  · refine ⟨by rwa [line_hbmPut hd, if_neg fun e => hz (by rw [e])], fun i hi => ?_⟩
    rw [hbmPut_mem hd, sread_writeBytes_other, hbytes i hi]
    simp only [List.length_map, List.length_range]
    unfold offOf at hz ⊢
    omega
  · rw [hbmPut_clean hd]
    exact ⟨hkey, hbytes⟩

/-- A line whose bytes stand in HBM4 or that is dirty stands there once it is written back. -/
theorem inHbm_hbmPut_of {s : State} {x z : L3Line} (hs : memOk s) (hline : z.line = x.line) (hkey : z.key = x.key)
    (hdata : z.data = x.data) (h : z.dirty = true ∨ InHbm s x) : InHbm (s.hbmPut z) x := by
  by_cases hz : z.dirty = true
  · have := inHbm_hbmPut hs hz
    rwa [InHbm, hline, hkey, hdata] at this
  · rw [hbmPut_clean hz]
    exact h.resolve_left hz

/-! ### One line of the failed slice -/

/-- What the failure of a slice does with one of its lines. -/
def emptyLine (s : State) (x : L3Line) : State :=
  if (s.holdersOf x.line x.key).isEmpty && !s.tracked x.line x.key then s.l3Drop x.line x.key
  else (s.hbmPut x).modL3 x.line x.key fun y => { y with dirty := false }

theorem emptySlice_eq (s : State) (sl : Nat) :
    s.emptySlice sl = (s.l3.filter fun x => decide (sliceOf x.line = sl)).foldl emptyLine s := rfl

/-- Only the slices, HBM4 and FLOOR change. -/
theorem onlyHomes_emptyLine (s : State) (x : L3Line) : OnlyHomes s (emptyLine s x) := by
  unfold emptyLine
  split
  · exact onlyHomes_l3Drop ..
  · rw [hbmPut_eq]
    rfl

theorem onlyHomes_emptySlice (s : State) (sl : Nat) : OnlyHomes s (s.emptySlice sl) :=
  foldl_keeps (OnlyHomes s) emptyLine (fun t x ht => ht.trans (onlyHomes_emptyLine t x)) _ _ rfl

theorem emptySlice_blocks (s : State) (sl : Nat) : (s.emptySlice sl).blocks = s.blocks := (onlyHomes_emptySlice s sl).blocks
theorem emptySlice_mgmt (s : State) (sl : Nat) : (s.emptySlice sl).mgmt = s.mgmt := (onlyHomes_emptySlice s sl).mgmt
theorem emptySlice_time (s : State) (sl : Nat) : (s.emptySlice sl).time = s.time := (onlyHomes_emptySlice s sl).time

/-- A line that is dirty afterwards was there before, and is not the line that was written back. -/
theorem mem_l3_of_mem_emptyLine {s : State} {x z : L3Line} (hz : z ∈ (emptyLine s x).l3) (hdirty : z.dirty = true) :
    z ∈ s.l3 ∧ ¬ (z.line = x.line ∧ z.key = x.key) := by
  unfold emptyLine at hz
  split at hz
  · rw [l3_l3Drop] at hz
    exact (List.mem_filter.1 hz).imp_right of_decide_eq_true
  · obtain ⟨y, hy, hyz⟩ := List.mem_map.1 (show z ∈ (s.hbmPut x).l3.map _ from hz)
    rw [hbmPut_l3] at hy
    split at hyz
    · rw [← hyz] at hdirty
      exact absurd hdirty Bool.false_ne_true
    · next hne => exact hyz ▸ ⟨hy, hne⟩

theorem mem_l3_of_mem_emptyLines (xs : List L3Line) {s : State} {z : L3Line} (hz : z ∈ (xs.foldl emptyLine s).l3)
    (hdirty : z.dirty = true) : z ∈ s.l3 ∧ ∀ x ∈ xs, ¬ (z.line = x.line ∧ z.key = x.key) := by
  induction xs generalizing s with
  | nil => exact ⟨hz, by simp⟩
  | cons x xs ih =>
    obtain ⟨hx, hxs⟩ := ih hz
    obtain ⟨hs, hne⟩ := mem_l3_of_mem_emptyLine hx hdirty
    exact ⟨hs, List.forall_mem_cons.2 ⟨hne, hxs⟩⟩

/-- The failed slice holds no dirty line afterwards. -/
theorem emptySlice_clean (s : State) (sl : Nat) : ∀ x ∈ (s.emptySlice sl).l3, sliceOf x.line = sl → x.dirty = false := by
  intro x hx hsl
  by_contra hdirty
  rw [Bool.not_eq_false] at hdirty
  rw [emptySlice_eq] at hx
  obtain ⟨hs, hne⟩ := mem_l3_of_mem_emptyLines _ hx hdirty
  exact hne x (List.mem_filter.2 ⟨hs, decide_eq_true hsl⟩) ⟨rfl, rfl⟩

/-! ### The bytes of a line while the slice is emptied -/

/-- The memory is canonical, and the bytes of x are kept: what its slice holds of it are those bytes, and HBM4 has them where the
slice holds no dirty copy. -/
structure Stored (x : L3Line) (t : State) : Prop where
  mem : memOk t
  slice : ∀ z, t.l3Line? x.line x.key = some z → z.data = x.data
  behind : (∀ z, t.l3Line? x.line x.key = some z → z.dirty = false) → InHbm t x

theorem l3Line?_key {s : State} {line key : Nat} {z : L3Line} (h : s.l3Line? line key = some z) : z.line = line ∧ z.key = key := by
  simpa using List.find?_some h

/-- A dirty line of a slice that has its place in HBM4 to itself is the one that the slice finds. -/
theorem stored_of_mem {s : State} {x : L3Line} (hs : memOk s) (hx : x ∈ s.l3) (hdirty : x.dirty = true)
    (hown : ∀ y ∈ s.l3, offOf (y.line * 128) = offOf (x.line * 128) → y = x) : Stored x s := by
  have hfound : s.l3Line? x.line x.key = some x := by
    cases hz : s.l3Line? x.line x.key with
    | none => exact absurd (List.find?_eq_none.1 hz x hx) (by simp)
    | some z => rw [hown z (List.mem_of_find?_eq_some hz) (by rw [(l3Line?_key hz).1])]
  refine ⟨hs, fun z hz => ?_, fun hclean => ?_⟩
  · rw [Option.some.inj (hfound.symm.trans hz)]
  · exact absurd (hclean x hfound) (by simp [hdirty])

/-- A stored line reads as it is. -/
theorem Stored.byteAt {s : State} {x : L3Line} (h : Stored x s) {i : Nat} (hi : i < 128) :
    s.byteAt x.key (x.line * 128 + i) = lineByte x.data i := by
  unfold State.byteAt
  rw [lineOf_line_byte _ _ hi, show (x.line * 128 + i) % 128 = i by omega]
  split
  · next z hz => rw [h.slice z hz]
  · next hnone =>
    obtain ⟨hkey, hbytes⟩ := h.behind fun z hz => absurd (hnone.symm.trans hz) (by simp)
    unfold State.hbmByte
    dsimp only
    rw [lineOf_line_byte _ _ hi, if_pos hkey, offOf_line_byte _ _ hi]
    exact hbytes i hi

/-- A stored line that leaves its slice stands in HBM4. -/
theorem Stored.inHbm_l3Drop {s : State} {x : L3Line} (h : Stored x s) : InHbm (s.l3Drop x.line x.key) x := by
  cases hz : s.l3Line? x.line x.key with
  | none =>
    rw [l3Drop_of_none hz]
    exact h.behind fun z hz' => absurd (hz.symm.trans hz') (by simp)
  | some z =>
    obtain ⟨hline, hkey⟩ := l3Line?_key hz
    have hbehind : z.dirty = true ∨ InHbm s x := by
      by_cases hd : z.dirty = true
      · exact .inl hd
      · refine .inr (h.behind fun y hy => ?_)
        rw [← Option.some.inj (hz.symm.trans hy)]
        exact Bool.eq_false_of_not_eq_true hd
    rw [l3Drop_of_found hz]
    exact inHbm_hbmPut_of h.mem hline hkey (h.slice z hz) hbehind

/-- A line at another place of HBM4 that leaves its slice leaves this one there. -/
theorem InHbm.l3Drop_other {s : State} {x : L3Line} (h : InHbm s x) {line : Nat} (key : Nat)
    (hne : offOf (line * 128) ≠ offOf (x.line * 128)) : InHbm (s.l3Drop line key) x := by
  cases hz : s.l3Line? line key with
  | none => rwa [l3Drop_of_none hz]
  | some z =>
    rw [l3Drop_of_found hz]
    exact InHbm.hbmPut_other (by exact h.congr rfl rfl) z (by rwa [(l3Line?_key hz).1])

theorem l3Line?_emptyLine_of_kept (s : State) (x : L3Line) (line key : Nat) :
    ((s.hbmPut x).modL3 x.line x.key fun y => { y with dirty := false }).l3Line? line key =
      if x.line = line ∧ x.key = key then (s.l3Line? line key).map fun y => { y with dirty := false } else s.l3Line? line key := by
  have hput : (s.hbmPut x).l3Line? line key = s.l3Line? line key := by rw [State.l3Line?, hbmPut_l3, State.l3Line?]
  rw [← hput]
  exact l3Line?_modL3 (s.hbmPut x) x.line x.key line key _ (by exact fun _ => ⟨rfl, rfl⟩)

/-- A dirty line that is written back stays stored. -/
theorem Stored.emptyLine_self {s : State} {x : L3Line} (h : Stored x s) (hdirty : x.dirty = true) : Stored x (emptyLine s x) := by
  unfold emptyLine
  split
  · refine ⟨memOk_l3Drop _ _ h.mem, fun z hz => ?_, fun _ => h.inHbm_l3Drop⟩
    rw [l3Line?_l3Drop, if_pos ⟨rfl, rfl⟩] at hz
    exact absurd hz (by simp)
  · refine ⟨memOk_hbmPut x h.mem, fun z hz => ?_, fun _ => (inHbm_hbmPut h.mem hdirty).congr rfl rfl⟩
    rw [l3Line?_emptyLine_of_kept, if_pos ⟨rfl, rfl⟩] at hz
    obtain ⟨y, hy, rfl⟩ := Option.map_eq_some_iff.1 hz
    exact h.slice y hy

/-- So does one whose place in HBM4 is another. -/
theorem Stored.emptyLine_other {s : State} {x y : L3Line} (h : Stored x s) (hne : offOf (y.line * 128) ≠ offOf (x.line * 128)) :
    Stored x (emptyLine s y) := by
  have hline : ¬ (y.line = x.line ∧ y.key = x.key) := fun e => hne (by rw [e.1])
  unfold emptyLine
  split
  · have hsame := (l3Line?_l3Drop s y.line y.key x.line x.key).trans (if_neg hline)
    exact ⟨memOk_l3Drop _ _ h.mem, by rw [hsame]; exact h.slice, fun hz => (h.behind (by rwa [hsame] at hz)).l3Drop_other _ hne⟩
  · have hsame := (l3Line?_emptyLine_of_kept s y x.line x.key).trans (if_neg hline)
    exact ⟨memOk_hbmPut y h.mem, by rw [hsame]; exact h.slice,
      fun hz => ((h.behind (by rwa [hsame] at hz)).hbmPut_other y hne).congr rfl rfl⟩

/-- A dirty line that has its place in HBM4 to itself reads as before. -/
theorem byteAt_emptySlice {s : State} {x : L3Line} (sl : Nat) (hs : memOk s) (hx : x ∈ s.l3) (hdirty : x.dirty = true)
    (hown : ∀ y ∈ s.l3, offOf (y.line * 128) = offOf (x.line * 128) → y = x) {i : Nat} (hi : i < 128) :
    (s.emptySlice sl).byteAt x.key (x.line * 128 + i) = lineByte x.data i := by
  have hstep (t : State) (y : L3Line) (hy : y ∈ s.l3) (ht : Stored x t) : Stored x (emptyLine t y) := by
    by_cases hne : offOf (y.line * 128) = offOf (x.line * 128)
    · rw [hown y hy hne]
      exact ht.emptyLine_self hdirty
    · exact ht.emptyLine_other hne
  rw [emptySlice_eq]
  refine Stored.byteAt ?_ hi
  exact List.foldlRecOn _ _ (stored_of_mem hs hx hdirty hown) fun t ht y hy => hstep t y (List.mem_filter.1 hy).1 ht

end Sys2Proof.Proofs.Slices
end

section
/-! PROOFS. What fails is replaced, or served without it, and a service record says so (R13, R112, R414-R417, R420). -/

namespace Sys2Proof.Proofs.Repair
open Sys2Proof.Machine Sys2Proof.Safety Sys2Proof.Laws Sys2Proof.Proofs.Caches Sys2Proof.Proofs.Slices

section Events
variable {s t : State}

/-! ### Service records and blocks that move -/

/-- The management of t is m with one more service record, of this kind, result and unit, among those of s. -/
def Notes (s t : State) (unit kind result : Nat) (m : Mgmt) : Prop := ∃ r, t.mgmt =
  { m with records := (s.mgmt.records ++ [r]).drop (s.mgmt.records.length + 1 - 4096) } ∧
  r.time = s.time ∧ r.kind = kind ∧ r.result = result ∧ r.unit = unit

/-- The blocks on the cores named have been asked to stop, and no other block has changed. -/
def Stopped (s t : State) (core : Nat → Prop) : Prop := t.blocks.length = s.blocks.length ∧
  ∀ (i : Nat) (b : Block), s.blocks[i]? = some b → ∃ b', t.blocks[i]? = some b' ∧ (core b.core → b'.stop.isSome = true) ∧
    (¬ core b.core → b' = b)

/-- The record that a failure now leaves. -/
def recordNow (s : State) (kind result unit pa : Nat) : ServiceRec :=
  { time := s.time, kind := kind, result := result, unit := unit, pa := pa,
    count := (s.mgmt.records.filter fun r => decide (r.kind = kind ∧ r.unit = unit)).foldl (fun m r => max m r.count) 0 + 1 }

/-- The ring of 4,096 service records with one more (R416). -/
def recordRing (xs : List ServiceRec) (r : ServiceRec) : List ServiceRec := (xs ++ [r]).drop (xs.length + 1 - 4096)

/-- Only the records change. -/
theorem service_eq (s : State) (kind result unit pa : Nat) : s.service kind result unit pa =
    { s with mgmt := { s.mgmt with records := recordRing s.mgmt.records (recordNow s kind result unit pa) } } := by
  simp only [State.service, List.length_append, List.length_singleton]
  rfl

theorem service_blocks (s : State) (kind result unit pa : Nat) : (s.service kind result unit pa).blocks = s.blocks := by
  rw [service_eq]

theorem service_l3 (s : State) (kind result unit pa : Nat) : (s.service kind result unit pa).l3 = s.l3 := by rw [service_eq]

theorem byteAt_service (s : State) (kind result unit pa : Nat) : SameBytes s (s.service kind result unit pa) := by
  rw [service_eq]
  exact byteAt_congr rfl rfl rfl

/-- A service record written at the time of s, behind the records of s (R416). -/
theorem notes_service (htime : t.time = s.time) (hrecords : t.mgmt.records = s.mgmt.records) (kind result unit pa : Nat) :
    Notes s (t.service kind result unit pa) unit kind result t.mgmt :=
  ⟨recordNow t kind result unit pa, by rw [service_eq, hrecords, recordRing], htime, rfl, rfl, rfl⟩

/-- Blocks that are moved off some cores are asked to stop, unless they are already. -/
theorem stopped_of_migrate {cores : Nat → Bool} {core : Nat → Prop} (hblocks : t.blocks = (s.migrate cores).blocks)
    (hcores : ∀ c, cores c = true ↔ core c) : Stopped s t core := by
  rw [Stopped, hblocks]
  refine ⟨List.length_map .., fun i b hb => ⟨if cores b.core ∧ b.stop.isNone then { b with stop := some s.time } else b, ?_, ?_, ?_⟩⟩
  · simp only [State.migrate, List.getElem?_map, hb, Option.map_some]
  · intro hcore
    split
    · rfl
    · next h => simpa [(hcores _).2 hcore, Option.isSome_iff_ne_none] using h
  · intro hcore
    rw [if_neg fun h => hcore ((hcores _).1 h.1)]

/-! ### Cores (R13, R112, R415) -/

theorem losePosition_eq (hd : noDirty s) {cluster pos : Nat} (hpos : (cluster, pos) ∉ s.mgmt.l1Out) :
    s.losePosition cluster pos = { s with
      l1 := s.l1.filter fun x => !(s.sliceLines cluster pos).any fun y => decide (y.cluster = x.cluster ∧ y.line = x.line ∧ y.key = x.key)
      mgmt := { s.mgmt with l1Out := (cluster, pos) :: s.mgmt.l1Out } } := by
  have hwritten : (s.sliceLines cluster pos).foldl (fun s x => s.writeBack cluster x.line x.key) s = s :=
    foldl_keeps (· = s) _ (fun t x ht => by rw [ht, writeBack_eq_self hd]) _ _ rfl
  unfold State.losePosition
  rw [if_neg hpos]
  dsimp only
  rw [hwritten]

/-- A lost position keeps none of its lines. -/
theorem not_at_of_mem_losePosition (hd : noDirty s) {cluster pos : Nat} (hpos : (cluster, pos) ∉ s.mgmt.l1Out) :
    ∀ x ∈ (s.losePosition cluster pos).l1, ¬ (x.cluster = cluster ∧ s.slicePos cluster (x.line % 8) = pos) := by
  intro x hx hat
  rw [losePosition_eq hd hpos] at hx
  obtain ⟨hmem, hkept⟩ := List.mem_filter.1 hx
  have hlost : x ∈ s.sliceLines cluster pos := List.mem_filter.2 ⟨hmem, by simpa using hat⟩
  simp only [Bool.not_eq_true', List.any_eq_false] at hkept
  exact hkept x hlost (by simp)

/-- The state in which a failed core has lost its translations and its blocks are asked to stop. -/
def leaving (s : State) (k : Nat) : State :=
  State.migrate { s with tlb := s.tlb.filter fun t => decide (t.core ≠ k) } fun c => decide (c = k)

theorem stopped_of_leaving {k : Nat} (hblocks : t.blocks = (leaving s k).blocks) : Stopped s t (fun c => c = k) :=
  stopped_of_migrate (cores := fun c => decide (c = k)) hblocks fun _ => decide_eq_true_iff

/-- The spare of the cluster takes the place of a failed core. -/
theorem exec_coreFailure_spare {k : Nat} (hk : k < 256) (hcore : k ∉ s.mgmt.failedCores) (hspare : k / 8 ∉ s.mgmt.sparesUsed) :
    ∃ t, exec (.coreFailure k) s = .next t ∧ t = { s with tlb := t.tlb, blocks := t.blocks, mgmt := t.mgmt } ∧
      Stopped s t (fun c => c = k) ∧ Notes s t k 1 1 { s.mgmt with sparesUsed := k / 8 :: s.mgmt.sparesUsed } := by
  have hrun : ¬ (256 ≤ k ∨ k ∈ s.mgmt.failedCores) := by simp [hk, hcore]
  exact ⟨_, (if_neg hrun).trans (if_pos hspare), rfl, stopped_of_leaving rfl, notes_service rfl rfl ..⟩

/-- Without a spare the cluster goes on without the core, and its next working slice serves the lines of the position. -/
theorem exec_coreFailure_noSpare {k : Nat} (hk : k < 256) (hcore : k ∉ s.mgmt.failedCores) (hspare : k / 8 ∈ s.mgmt.sparesUsed)
    (hd : noDirty s) (hpos : (k / 8, k % 8) ∉ s.mgmt.l1Out) :
    ∃ t, exec (.coreFailure k) s = .next t ∧ SameBytes s t ∧ Stopped s t (fun c => c = k) ∧
      (∀ x ∈ t.l1, ¬ (x.cluster = k / 8 ∧ s.slicePos (k / 8) (x.line % 8) = k % 8)) ∧
      Notes s t k 1 2 { s.mgmt with failedCores := k :: s.mgmt.failedCores, l1Out := (k / 8, k % 8) :: s.mgmt.l1Out } := by
  have hrun : ¬ (256 ≤ k ∨ k ∈ s.mgmt.failedCores) := by simp [hk, hcore]
  have hexec : exec (.coreFailure k) s = .next (State.service (State.repositioned
      (let t := (leaving s k).losePosition (k / 8) (k % 8)
      { t with mgmt := { t.mgmt with failedCores := k :: t.mgmt.failedCores } })) 1 2 k 0) :=
    (if_neg hrun).trans (if_neg (not_not_intro hspare))
  have hgone := not_at_of_mem_losePosition (s := leaving s k) hd hpos
  rw [losePosition_eq (s := leaving s k) hd hpos] at hexec hgone
  exact ⟨_, hexec, fun _ _ => rfl, stopped_of_leaving rfl, hgone, notes_service rfl rfl ..⟩

/-! ### L3 slices, rows and channels (R415) -/

/-- The state in which a slice is out of service, and a service record says so. -/
def withoutSlice (s : State) (k : Nat) : State :=
  State.service { s with mgmt := { s.mgmt with slicesOut := k :: s.mgmt.slicesOut } } 2 2 k 0

theorem withoutSlice_blocks (s : State) (k : Nat) : (withoutSlice s k).blocks = s.blocks := service_blocks ..
theorem withoutSlice_l3 (s : State) (k : Nat) : (withoutSlice s k).l3 = s.l3 := service_l3 ..
theorem byteAt_withoutSlice (s : State) (k : Nat) : SameBytes s (withoutSlice s k) := byteAt_service _ 2 2 k 0

theorem notes_withoutSlice (htime : t.time = s.time) (hmgmt : t.mgmt = s.mgmt) (k : Nat) :
    Notes s (withoutSlice t k) k 2 2 { t.mgmt with slicesOut := k :: t.mgmt.slicesOut } :=
  notes_service (t := { t with mgmt := { t.mgmt with slicesOut := k :: t.mgmt.slicesOut } }) htime
    (show t.mgmt.records = s.mgmt.records by rw [hmgmt]) ..

/-- The partner of a failed slice serves its channel too; without a partner there is no repair. -/
theorem exec_sliceFailure {k : Nat} (hk : k < 256) (hslice : k ∉ s.mgmt.slicesOut) :
    ∃ t, exec (.sliceFailure k) s = .next t ∧ t.blocks = s.blocks ∧
    (k ^^^ 1 ∉ s.mgmt.slicesOut → Notes s t k 2 2 { s.mgmt with slicesOut := k :: s.mgmt.slicesOut } ∧
      (∀ x ∈ t.l3, sliceOf x.line = k → x.dirty = false) ∧
      (memOk s → ∀ x ∈ s.l3, sliceOf x.line = k → x.dirty = true → (∀ y ∈ s.l3, offOf (y.line * 128) = offOf (x.line * 128) → y = x) →
        ∀ i < 128, t.byteAt x.key (x.line * 128 + i) = lineByte x.data i)) ∧
    (k ^^^ 1 ∈ s.mgmt.slicesOut → Notes s t k 2 3 s.mgmt ∧ t = { s with mgmt := t.mgmt }) := by
  have hrun : ¬ (256 ≤ k ∨ k ∈ s.mgmt.slicesOut) := by simp [hk, hslice]
  by_cases hpartner : k ^^^ 1 ∈ s.mgmt.slicesOut
  · have hexec : exec (.sliceFailure k) s = .next (s.service 2 3 k 0) := (if_neg hrun).trans (if_pos hpartner)
    exact ⟨_, hexec, service_blocks .., fun h => absurd hpartner h, fun _ => ⟨notes_service rfl rfl .., rfl⟩⟩
  · have hexec : exec (.sliceFailure k) s = .next (withoutSlice (s.emptySlice k) k) := (if_neg hrun).trans (if_neg hpartner)
    refine ⟨_, hexec, (withoutSlice_blocks ..).trans (emptySlice_blocks s k), fun _ => ⟨?_, ?_, ?_⟩, fun h => absurd h hpartner⟩
    · rw [← emptySlice_mgmt s k]
      exact notes_withoutSlice (emptySlice_time s k) (emptySlice_mgmt s k) k
    · rw [withoutSlice_l3]
      exact emptySlice_clean s k
    · intro hs x hx _ hdirty hown i hi
      rw [byteAt_withoutSlice, byteAt_emptySlice k hs hx hdirty hown hi]

/-- A row is copied to a spare row of its channel while the channel has one. -/
theorem exec_rowErrors {k : Nat} (hk : k < 256) (row : Nat) : ∃ t, exec (.rowErrors k row) s = .next t ∧ t = { s with mgmt := t.mgmt } ∧
    ((s.mgmt.rows.filter fun x => decide (x.1 = k)).length < 64 → Notes s t k 3 1 { s.mgmt with rows := (k, row) :: s.mgmt.rows }) ∧
    (64 ≤ (s.mgmt.rows.filter fun x => decide (x.1 = k)).length → Notes s t k 3 3 s.mgmt) := by
  have hrun : ¬ 256 ≤ k := by omega
  by_cases hfull : 64 ≤ (s.mgmt.rows.filter fun x => decide (x.1 = k)).length
  · exact ⟨_, (if_neg hrun).trans (if_pos hfull), rfl, fun h => absurd hfull (Nat.not_le.2 h), fun _ => notes_service rfl rfl ..⟩
  · exact ⟨_, (if_neg hrun).trans (if_neg hfull), rfl, fun _ => notes_service rfl rfl .., fun h => absurd h hfull⟩

/-- A channel's frames move to unused frames of the pool on other channels, if those suffice. -/
theorem exec_channelFailure {k : Nat} (hk : k < 256) (hretired : ∀ x ∈ s.mgmt.retired, x.1 ≠ k) :
    ∃ t, exec (.channelFailure k) s = .next t ∧ t = { s with mgmt := t.mgmt } ∧
    ((s.mgmt.pool.filter fun x => !x.2 && decide (channelOfFrame x.1 ≠ k)).length < 49152 → Notes s t k 4 3 s.mgmt) ∧
    (49152 ≤ (s.mgmt.pool.filter fun x => !x.2 && decide (channelOfFrame x.1 ≠ k)).length → Notes s t k 4 1 { s.mgmt with
      retired := (k, (s.mgmt.pool.filter fun x => !x.2 && decide (channelOfFrame x.1 ≠ k)).map (·.1)) :: s.mgmt.retired
      pool := s.mgmt.pool.map fun x => if channelOfFrame x.1 = k then x else (x.1, true) }) := by
  have hrun : ¬ (256 ≤ k ∨ s.mgmt.retired.any (fun r => decide (r.1 = k)) = true) := by
    rintro (h | h)
    · omega
    · obtain ⟨x, hx, hxk⟩ := List.any_eq_true.1 h
      exact hretired x hx (of_decide_eq_true hxk)
  by_cases hfew : (s.mgmt.pool.filter fun x => !x.2 && decide (channelOfFrame x.1 ≠ k)).length < poolLimit
  · exact ⟨_, (if_neg hrun).trans (if_pos hfew), rfl, fun _ => notes_service rfl rfl .., fun h => absurd hfew (Nat.not_lt.2 h)⟩
  · refine ⟨_, (if_neg hrun).trans (if_neg hfew), rfl, fun h => absurd h hfew, fun _ => ?_⟩
    simpa only [ne_eq, ite_not] using notes_service (s := s) (t := { s with mgmt := { s.mgmt with
      retired := (k, (s.mgmt.pool.filter fun x => !x.2 && decide (channelOfFrame x.1 ≠ k)).map (·.1)) :: s.mgmt.retired
      pool := s.mgmt.pool.map fun x => if channelOfFrame x.1 ≠ k then (x.1, true) else x } }) rfl rfl 4 1 k 0

/-! ### Links (R415) -/

/-- Only links change when a message goes to another link. -/
theorem handOver_eq (s : State) (m : FabMsg) : s.handOver m = { s with links := (s.handOver m).links } := by
  unfold State.handOver
  split <;> rfl

theorem handOvers_eq (s : State) (ms : List FabMsg) :
    ms.foldl (fun s m => s.handOver m) s = { s with links := (ms.foldl (fun s m => s.handOver m) s).links } :=
  foldl_keeps (fun t : State => t = { s with links := t.links }) _ (fun t m ht => (handOver_eq t m).trans (by rw [ht])) _ _ rfl

theorem notes_linkDown (s : State) (l : Nat) : Notes s (s.linkDown l) l 5 2 s.mgmt := by
  unfold State.linkDown
  dsimp only
  rw [handOvers_eq]
  exact notes_service rfl rfl ..

/-- A link that nothing waits on is taken down as it is. -/
theorem links_linkDown_idle {l : Nat} {L : Link} (hl : s.links[l]? = some L) (hheld : L.held = []) (hwait : L.wait = []) :
    (s.linkDown l).links[l]? = some { L with up := false } := by
  have hget : vget s.links l Link.reset = L := by rw [vget, hl, Option.getD_some]
  obtain ⟨hlt, -⟩ := Vector.getElem?_eq_some_iff.1 hl
  simp [State.linkDown, hget, Link.pending, hheld, hwait, State.service, vset, hlt]

/-- A link with fewer working lanes runs on 4 or on 2 of them, or is taken down. -/
theorem exec_linkLaneFailure {k row : Nat} {L : Link} (hk : k < 18) (hl : s.links[k]? = some L) (hup : L.up = true)
    (hrow : row < L.lanes) : ∃ t, exec (.linkLaneFailure k row) s = .next t ∧ Notes s t k 5 2 s.mgmt ∧
    (2 ≤ row → t = { s with links := t.links, mgmt := t.mgmt } ∧ t.links[k]? = some { L with lanes := if 4 ≤ row then 4 else 2 }) ∧
    (row < 2 → L.held = [] → L.wait = [] → ∃ L', t.links[k]? = some L' ∧ L' = { L with up := false }) := by
  have hget : vget s.links k Link.reset = L := by rw [vget, hl, Option.getD_some]
  have hrun : ¬ (18 ≤ k ∨ ¬ (vget s.links k Link.reset).up = true ∨ (vget s.links k Link.reset).lanes ≤ row) := by
    rw [hget]
    simp [hk, hup, hrow]
  by_cases hdown : row < 2
  · exact ⟨_, (if_neg hrun).trans (if_pos hdown), notes_linkDown s k, fun h => absurd hdown (Nat.not_lt.2 h),
      fun _ hheld hwait => ⟨_, links_linkDown_idle hl hheld hwait, rfl⟩⟩
  · refine ⟨_, (if_neg hrun).trans (if_neg hdown), notes_service rfl rfl .., fun _ => ⟨rfl, ?_⟩, fun h => absurd h hdown⟩
    obtain ⟨hlt, -⟩ := Vector.getElem?_eq_some_iff.1 hl
    simp [State.service, vset, hget, hlt]

/-! ### Power and cooling (R420) -/

theorem exec_throttle (h : 50 < s.mgmt.clockMHz) :
    exec .throttle s = .next { s with mgmt := { s.mgmt with clockMHz := s.mgmt.clockMHz - 50 } } := by
  show execThrottle s = _
  rw [execThrottle, if_pos h]

/-- The state in which no block is placed until the device has cooled. -/
def hot (s : State) : State := { s with mgmt := { s.mgmt with thermal := true } }

theorem hot_setRecords (s : State) (xs : List ServiceRec) :
    hot { s with mgmt := { s.mgmt with records := xs } } = { hot s with mgmt := { (hot s).mgmt with records := xs } } := rfl

theorem hot_service (s : State) (kind result unit pa : Nat) :
    hot (s.service kind result unit pa) = (hot s).service kind result unit pa := by
  rw [service_eq, service_eq]
  exact hot_setRecords s _

/-- A device that is too hot has every block moved. -/
theorem exec_thermalStop (k : Nat) (h : s.mgmt.thermal = false) : ∃ t, exec (.thermalStop k) s = .next t ∧
    t = { s with blocks := t.blocks, mgmt := t.mgmt } ∧ Stopped s t (fun _ => True) ∧
    Notes s t k 8 2 { s.mgmt with thermal := true } := by
  have hexec : exec (.thermalStop k) s = .next (hot ((s.migrate fun _ => true).service 8 2 k 0)) := if_neg (by simp [h])
  rw [hot_service] at hexec
  exact ⟨_, hexec, by rw [service_eq]; rfl, stopped_of_migrate (cores := fun _ => true) (service_blocks ..) (by simp),
    notes_service rfl rfl ..⟩

/-- The state with the thermal stop lifted. -/
def cooled (s : State) : State := { s with mgmt := { s.mgmt with thermal := false } }

/-- Caches that have restarted leave service and blocks as they are. -/
theorem upkeep_cooled (h : Upkeep s t) : (cooled t).mgmt = { s.mgmt with thermal := false } ∧ (cooled t).blocks = s.blocks ∧
    (noDirty s → SameBytes s (cooled t)) :=
  ⟨by rw [cooled, h.mgmt], h.blocks, fun hd => (h.bytes hd).2⟩

theorem emptyDies_empty (s : State) : s.emptyDies.l1 = [] ∧ s.emptyDies.l2 = [] ∧ s.emptyDies.dir = [] ∧ s.emptyDies.tlb = [] ∧
    s.emptyDies.tables = [] := by
  unfold State.emptyDies
  exact ⟨rfl, rfl, rfl, rfl, rfl⟩

/-- A device that has cooled resumes; dies that were powered down restart with empty caches. -/
theorem exec_thermalResume (h : s.mgmt.thermal = true) : ∃ t, exec .thermalResume s = .next t ∧
    t.mgmt = { s.mgmt with thermal := false } ∧ t.blocks = s.blocks ∧ (noDirty s → SameBytes s t) ∧
    (s.blocks ≠ [] → t = { s with mgmt := t.mgmt }) ∧
    (s.blocks = [] → t.l1 = [] ∧ t.l2 = [] ∧ t.dir = [] ∧ t.tlb = [] ∧ t.tables = []) := by
  have hexec : exec .thermalResume s = .next (cooled (if s.blocks.isEmpty then s.emptyDies else s)) := if_pos h
  by_cases hblocks : s.blocks = []
  · obtain ⟨hmgmt, hkept, hbytes⟩ := upkeep_cooled (Upkeep.refl s).emptyDies
    rw [if_pos (List.isEmpty_iff.2 hblocks)] at hexec
    exact ⟨_, hexec, hmgmt, hkept, hbytes, fun hne => absurd hblocks hne, fun _ => emptyDies_empty s⟩
  · rw [if_neg (mt List.isEmpty_iff.1 hblocks)] at hexec
    exact ⟨_, hexec, rfl, rfl, fun _ _ _ => rfl, fun _ => rfl, fun hnil => absurd hnil hblocks⟩

/-! ### Bring-up and power failure (R414, R417) -/

theorem exec_powerOn_fails {fail : Nat} (bad : List Nat) (h : s.mgmt.step ≠ 4) (hlo : 1 ≤ fail) (hhi : fail ≤ 4) :
    ∃ t, exec (.powerOn fail bad) s = .next t ∧ t = { s with mgmt := t.mgmt } ∧ t.mgmt.step = fail - 1 ∧
      t.mgmt.failedStep = fail :=
  ⟨_, (if_neg h).trans (if_pos ⟨hlo, hhi⟩), rfl, rfl, rfl⟩

/-- What a failed core leaves of a cluster: its spare is used, or the core is out of service. -/
def Replaced (m : Mgmt) (c : Nat) : Prop := c / 8 ∈ m.sparesUsed ∨ c ∈ m.failedCores

/-- One failed core replaced as far as the spares reach. -/
theorem replace_cons (m : Mgmt) (c : Nat) (cs : List Nat) : m.replace (c :: cs) = (m.replace [c]).replace cs := rfl

/-- Replacing a core adds it to the cores out of service, or its cluster to those whose spare is used, or changes nothing. -/
theorem replace_singleton_cases (m : Mgmt) (c : Nat) :
    ((256 ≤ c ∨ c ∈ m.failedCores) ∧ m.replace [c] = m) ∨
    m.replace [c] = { m with failedCores := c :: m.failedCores, l1Out := (c / 8, c % 8) :: m.l1Out } ∨
    m.replace [c] = { m with sparesUsed := c / 8 :: m.sparesUsed } := by
  by_cases h : 256 ≤ c ∨ c ∈ m.failedCores
  · exact .inl ⟨h, if_pos h⟩
  · by_cases hspare : c / 8 ∈ m.sparesUsed
    · exact .inr (.inl ((if_neg h).trans (if_pos hspare)))
    · exact .inr (.inr ((if_neg h).trans (if_neg hspare)))

theorem replace_fwEngine (m : Mgmt) (cs : List Nat) : (m.replace cs).fwEngine = m.fwEngine := by
  induction cs generalizing m with
  | nil => rfl
  | cons c cs ih =>
    rw [replace_cons, ih]
    rcases replace_singleton_cases m c with ⟨-, heq⟩ | heq | heq <;> rw [heq]

theorem replaced_replace_singleton_self (m : Mgmt) {c : Nat} (hc : c < 256) : Replaced (m.replace [c]) c := by
  rcases replace_singleton_cases m c with ⟨h, heq⟩ | heq | heq <;> rw [heq]
  · exact .inr (h.resolve_left (by omega))
  · exact .inr (List.mem_cons_self ..)
  · exact .inl (List.mem_cons_self ..)

theorem Replaced.replace {m : Mgmt} {c : Nat} (h : Replaced m c) (cs : List Nat) : Replaced (m.replace cs) c := by
  induction cs generalizing m with
  | nil => exact h
  | cons d cs ih =>
    refine ih (m := m.replace [d]) ?_
    rcases replace_singleton_cases m d with ⟨-, heq⟩ | heq | heq <;> rw [heq]
    · exact h
    · exact h.imp_right (List.mem_cons_of_mem _)
    · exact h.imp_left (List.mem_cons_of_mem _)

theorem replaced_replace {cs : List Nat} (m : Mgmt) {c : Nat} (hmem : c ∈ cs) (hc : c < 256) : Replaced (m.replace cs) c := by
  induction cs generalizing m with
  | nil => exact absurd hmem List.not_mem_nil
  | cons d cs ih =>
    rw [replace_cons]
    rcases List.mem_cons.1 hmem with rfl | hmem
    · exact (replaced_replace_singleton_self m hc).replace cs
    · exact ih _ hmem

/-- Without a staged image the firmware stays. -/
theorem boot_of_unstaged {m : Mgmt} (h : m.fwStaged = none) : m.boot = m := by
  unfold Mgmt.boot
  rw [h]

theorem exec_powerOn_completes (bad : List Nat) (h : s.mgmt.step ≠ 4) : ∃ t, exec (.powerOn 0 bad) s = .next t ∧
    t = { s with time := 0, parts := t.parts, mgmt := t.mgmt } ∧
    t.mgmt.step = 4 ∧ t.mgmt.failedStep = 0 ∧ (∀ p < 4, t.part p = { s.part p with engine := t.mgmt.fwEngine }) ∧
    (∀ c ∈ bad, c < 256 → c / 8 ∈ t.mgmt.sparesUsed ∨ c ∈ t.mgmt.failedCores) ∧
    (s.mgmt.fwStaged = none → bad = [] → t.mgmt = { s.mgmt with step := 4, failedStep := 0 }) := by
  refine ⟨_, (if_neg h).trans (if_neg (by simp)), rfl, rfl, rfl, fun p hp => ?_, fun c hmem hc => replaced_replace _ hmem hc, ?_⟩
  · simp [State.part, vget, hp, replace_fwEngine]
  · rintro hstaged rfl
    rw [boot_of_unstaged hstaged]
    rfl

/-- Flash, fuses and the sequence number outlast a power failure. -/
theorem exec_powerFailure (s : State) :
    ∃ t, exec .powerFailure s = .next t ∧ t = { State.reset with tick := s.tick, freeCtr := s.freeCtr, mgmt := t.mgmt } ∧
    t.mgmt = { Mgmt.reset with
      step := 0
      fwVersion := s.mgmt.fwVersion
      fwEngine := s.mgmt.fwEngine
      fwImage := s.mgmt.fwImage
      fwStaged := s.mgmt.fwStaged
      fwFused := s.mgmt.fwFused
      lastSeq := s.mgmt.lastSeq } :=
  ⟨_, rfl, rfl, rfl⟩

end Events

/-- Settles O46, event by event. -/
theorem repairResults : Obligations.RepairResults := by
  unfold Obligations.RepairResults
  intro k row fail bad s
  exact ⟨exec_coreFailure_spare, exec_coreFailure_noSpare, exec_sliceFailure, fun hk => exec_rowErrors hk row, exec_channelFailure,
    fun _ => exec_linkLaneFailure, exec_throttle, exec_thermalStop k, exec_thermalResume, exec_powerOn_fails bad,
    exec_powerOn_completes bad, exec_powerFailure s⟩

end Sys2Proof.Proofs.Repair
end

section
/-! PROOFS. The machine after bring-up (R19, R196, R308, R345, R389, R391, R414). -/

namespace Sys2Proof.Proofs.Reset
open Sys2Proof.Machine Sys2Proof.Safety

/-- A vector of equal entries reads as that entry, and so does what lies outside it. -/
theorem vget_replicate {α : Type} (n i : Nat) (x : α) : vget (Vector.replicate n x) i x = x := by
  simp [vget, Vector.getElem?_replicate, apply_ite (Option.getD · x)]

@[simp] theorem part_reset (p : Nat) : State.reset.part p = Partition.reset := vget_replicate 4 p _

@[simp] theorem queue_reset (p q : Nat) : State.reset.queue p q = Queue.reset := by
  rw [State.queue, part_reset]
  exact vget_replicate 64 q _

/-- The registers of the windows read as zero where they have a reset value (R308, R345, R389, R391). -/
theorem readUnit_reset : ∀ off ∈ [0x1108, 0x1208, 0x1220, 0x1300, 0x1330], Partition.reset.readUnit off = 0 := by
  decide

theorem canonical_reset : canonical State.reset :=
  ⟨rfl, List.forall_mem_nil _, List.forall_mem_nil _⟩

theorem named_reset : named State.reset :=
  ⟨.nil, .nil, List.forall_mem_nil _, List.forall_mem_nil _, List.forall_mem_nil _⟩

/-- Settles O58: every list of the state is empty, and every partition and every queue slot is in its reset form. -/
theorem resetState : Obligations.ResetState := by
  unfold Obligations.ResetState
  refine ⟨rfl, rfl, rfl, rfl, rfl, rfl, rfl, rfl, rfl, rfl, rfl, rfl, rfl, rfl, rfl, rfl, rfl, ?_, ?_,
    canonical_reset, .nil, named_reset⟩
  · intro p _ q _
    rw [queue_reset]
    exact ⟨rfl, rfl, rfl, rfl⟩
  · intro p _ off hoff
    rw [part_reset]
    exact readUnit_reset off hoff

end Sys2Proof.Proofs.Reset
end

section
/-! PROOFS. The end of a run (R31, R42). -/

namespace Sys2Proof.Proofs.RunEnd
open Sys2Proof.Machine Sys2Proof.Safety Sys2Proof.Laws

variable {s : State} {u g : Nat} {b : Block} {L : Launch} {G : Gang}

/-! ### A gang with an eligible thread -/

/-- Some lane of a mask that is not zero. -/
theorem exists_lane_of_ne_zero {m : BitVec 32} (h : m ≠ 0) : ∃ l < 32, m.getLsbD l = true := by
  by_contra hnone
  push Not at hnone
  exact h (mask_none fun l hl => Bool.eq_false_iff.2 (hnone l hl))

theorem eligible_lane (G : Gang) {l : Nat} (hl : l < 32) : G.eligible.getLsbD l = (G.lane l).eligible := maskOf_lane _ l hl

theorem exists_eligible (h : G.eligible ≠ 0) : ∃ l < 32, (G.lane l).st = .eligible := by
  obtain ⟨l, hl, he⟩ := exists_lane_of_ne_zero h
  rw [eligible_lane G hl] at he
  exact ⟨l, hl, of_decide_eq_true he⟩

/-- A lane that is eligible is live. -/
theorem live_ne_zero {l : Nat} (hl : l < 32) (he : (G.lane l).st = .eligible) : G.live ≠ 0 := by
  intro h
  have hlive : G.live.getLsbD l = true := by rw [Gang.live, maskOf_lane _ l hl, Lane.live, he]; rfl
  simp [h] at hlive

/-- An eligible thread is no waiter, so its gang is not in deadlock (R54). -/
theorem not_deadlocked {l : Nat} (hl : l < 32) (he : (G.lane l).st = .eligible) : G.deadlocked = false := by
  have hlive : G.live.getLsbD l = true := by rw [Gang.live, maskOf_lane _ l hl, Lane.live, he]; rfl
  have hwait : (lanesOf G.live).all (fun l => (G.lane l).inJwait) = false :=
    List.all_eq_false.2 ⟨l, lanesOf_mem.2 ⟨hl, hlive⟩, by simp [Lane.inJwait, he]⟩
  simp [Gang.deadlocked, hwait]

/-- A change of lanes that keeps their thread states keeps the mask of eligible lanes. -/
theorem modLanes_eligible (G : Gang) (m : BitVec 32) (f : Nat → Lane → Lane) (h : ∀ l < 32, (f l (G.lane l)).st = (G.lane l).st) :
    (G.modLanes m f).eligible = G.eligible := by
  apply mask_ext
  intro l hl
  rw [eligible_lane _ hl, eligible_lane _ hl, modLanes_lane G m f l hl]
  split
  · rw [Lane.eligible, h l hl, Lane.eligible]
  · rfl

/-! ### What the end of a run leaves undone -/

theorem rejoinDeadlock_of_not (hG : s.gang? u g = some G) (h : G.deadlocked = false) : s.rejoinDeadlock u g = s := by
  unfold State.rejoinDeadlock
  split
  · next G' _ hG' =>
    obtain rfl := Option.some.inj (hG.symm.trans hG')
    rw [h]
    rfl
  · rfl

theorem abortLogged_of_not (h : s.loggedTrap u g ≠ some 0x40) : s.abortLogged u g = s := if_neg h

theorem retireGang_of_live (hG : s.gang? u g = some G) (h : G.live ≠ 0) : s.retireGang u g = s := by
  unfold State.retireGang
  rw [hG]
  exact if_pos (.inl h)

theorem passHolder_of_not_det (hL : s.launchOf u = some L) (h : L.r.det = false) (next : Bool) : s.passHolder u g next = s := by
  unfold State.passHolder
  split
  · next L' _ hL' =>
    obtain rfl := Option.some.inj (hL.symm.trans hL')
    rw [h]
    rfl
  · rfl

/-- A gang that has not drained keeps its block. -/
theorem checkBlock_of_not_drained (hG : s.gang? u g = some G) (h : G.drained = false) : s.checkBlock u = s := by
  unfold State.checkBlock
  split
  · rfl
  · next b hb =>
    rw [State.gang?, hb] at hG
    have hall : b.gangs.all (·.drained) = false :=
      List.all_eq_false.2 ⟨G, List.mem_of_getElem? hG, by simp [h]⟩
    rw [hall]
    rfl

/-! ### What the log of a replay puts next -/

theorem replayOf_modGang (s : State) (u g : Nat) (F : Gang → Gang) : (s.modGang u g F).replayOf u = s.replayOf u := by
  unfold State.replayOf
  rw [launchOf_modGang]
  rfl

theorem chunk_modGang (s : State) (u g : Nat) {F : Gang → Gang} (hF : ∀ G, (F G).chunk = G.chunk) :
    ((s.modGang u g F).gang? u g).bind (·.chunk) = (s.gang? u g).bind (·.chunk) := by
  rw [gang?_modGang]
  cases s.gang? u g with
  | none => rfl
  | some G => exact hF G

/-- The logged chunk of a gang depends on its own chunk and on its block's place in the grid. -/
theorem replayChunk_modGang (s : State) (u g : Nat) {F : Gang → Gang} (hF : ∀ G, (F G).chunk = G.chunk) :
    (s.modGang u g F).replayChunk u g = s.replayChunk u g := by
  unfold State.replayChunk
  rw [replayOf_modGang, launchOf_modGang, block?_modGang, chunk_modGang s u g hF]
  cases s.block? u with
  | none => rfl
  | some b => rcases s.replayOf u with _ | P <;> rcases s.launchOf u with _ | L <;> rcases (s.gang? u g).bind (·.chunk) with _ | c <;> rfl

theorem loggedTrap_modGang (s : State) (u g : Nat) {F : Gang → Gang} (hF : ∀ G, (F G).chunk = G.chunk) :
    (s.modGang u g F).loggedTrap u g = s.loggedTrap u g := by
  unfold State.loggedTrap
  rw [replayChunk_modGang s u g hF, chunk_modGang s u g hF]

/-! ### The run itself -/

/-- A gang after a run at whose end the next word stands at pc: the members that have not left it stand there (R31). -/
def leftRun (pc : Word) (G : Gang) : Gang :=
  { (G.modLanes G.running fun _ t => { t with pc := pc }) with sheaf := none, runs := G.runs + 1 }

theorem leftRun_lane (pc : Word) (G : Gang) {l : Nat} (hl : l < 32) :
    (leftRun pc G).lane l = if G.running.getLsbD l then { G.lane l with pc := pc } else G.lane l :=
  modLanes_lane G _ _ l hl

theorem leftRun_eligible (pc : Word) (G : Gang) : (leftRun pc G).eligible = G.eligible :=
  modLanes_eligible G _ _ fun _ _ => rfl

/-- What the end of a run does once its members' PCs stand: the end of an ended launch's threads (R327), Rejoin-Deadlock (R54), the
last exit (R73), the deterministic hold (R42). -/
def afterRun (s : State) (u g : Nat) (yielded : Bool) : State :=
  let ended := match s.launchOf u with | some L => decide (L.status ≠ 0) | none => false
  let s := if ended then s.modGang u g Gang.terminated else (s.rejoinDeadlock u g).abortLogged u g
  let s := s.retireGang u g
  let s := match s.gang? u g with
    | some G => if yielded then s.passHolder u g true else if G.eligible = 0 then s.passHolder u g false else s
    | none => s
  s.checkBlock u

/-- Without a pending FP exception that follows at once. -/
theorem endRun_eq_afterRun {S : Sheaf} (y : Bool) (hG : s.gang? u g = some G) (hS : G.sheaf = some S) (hfp : S.fp = none) :
    s.endRun u g y = afterRun { s.modGang u g (leftRun S.pc) with cur := none } u g y := by
  unfold State.endRun
  simp only [hG, hS, hfp]
  rfl

/-- A gang that goes on, in a launch that goes on, stays as it is. -/
theorem afterRun_of_goesOn (y : Bool) (hL : s.launchOf u = some L) (hG : s.gang? u g = some G) (hstatus : L.status = 0)
    (hdet : L.r.det = false) (hdrained : G.drained = false) (helig : G.eligible ≠ 0) (hlog : s.loggedTrap u g ≠ some 0x40) :
    afterRun s u g y = s := by
  obtain ⟨l, hl, he⟩ := exists_eligible helig
  have hgoes : (s.rejoinDeadlock u g).abortLogged u g = s := by
    rw [rejoinDeadlock_of_not hG (not_deadlocked hl he), abortLogged_of_not hlog]
  have hended : decide (L.status ≠ 0) = false := by simp [hstatus]
  simp only [afterRun, hL, hended, Bool.false_eq_true, if_false, hgoes, retireGang_of_live hG (live_ne_zero hl he), hG,
    passHolder_of_not_det hL hdet, ite_self]
  exact checkBlock_of_not_drained hG hdrained

/-- Settles O57: of what can follow a run, nothing applies to a gang that has an eligible thread in a launch that goes on. -/
theorem runEnds : Obligations.RunEnds := by
  unfold Obligations.RunEnds
  intro u g y s b L G S _ hL hG hS hfp hstatus hdet hdrained helig hlog
  refine ⟨leftRun S.pc, ?_, rfl, fun l hl => leftRun_lane S.pc G hl⟩
  rw [endRun_eq_afterRun y hG hS hfp]
  refine afterRun_of_goesOn (G := leftRun S.pc G) y ((launchOf_modGang s u g _).trans hL) ?_ hstatus hdet hdrained ?_ ?_
  · exact (gang?_modGang s u g _).trans (by rw [hG]; rfl)
  · rwa [leftRun_eligible]
  · exact (loggedTrap_modGang s u g (F := leftRun S.pc) fun _ => rfl).trans_ne hlog

end Sys2Proof.Proofs.RunEnd
end

section
/-! PROOFS. Sheaf formation, the quadrant's choice, and the end of a long hold (R27, R30, R43, R44). -/

namespace Sys2Proof.Proofs.Issue
open Sys2Proof.Machine Sys2Proof.Safety Sys2Proof.Laws

variable {s : State} {u g : Nat} {b : Block} {L : Launch} {G : Gang}

/-! ### The largest and the least of a list -/

theorem foldl_max_spec {xs : List Nat} (h : xs ≠ []) : xs.foldl max 0 ∈ xs ∧ ∀ x ∈ xs, x ≤ xs.foldl max 0 := by
  obtain ⟨m, hm⟩ : ∃ m, xs.max? = some m := Option.isSome_iff_exists.1 (by simpa using h)
  rw [List.foldl_max, hm, Option.getD_some, Nat.zero_max]
  exact List.max?_eq_some_iff.1 hm

theorem foldl_min_spec {xs : List Nat} {n : Nat} (h : xs ≠ []) (hn : ∀ x ∈ xs, x ≤ n) :
    xs.foldl min n ∈ xs ∧ ∀ x ∈ xs, xs.foldl min n ≤ x := by
  obtain ⟨m, hm⟩ : ∃ m, xs.min? = some m := Option.isSome_iff_exists.1 (by simpa using h)
  obtain ⟨hmem, hle⟩ := List.min?_eq_some_iff.1 hm
  rw [List.foldl_min, hm, Option.getD_some, Nat.min_eq_right (hn m hmem)]
  exact ⟨hmem, hle⟩

/-! ### The candidates of a sheaf (R27, R43) -/

/-- A lane whose thread a sheaf may gather: an eligible one, without those that have yielded unless the launch is deterministic or all
have. -/
def Candidate (G : Gang) (det : Bool) (l : Nat) : Prop := l < 32 ∧ (G.lane l).st = .eligible ∧
  (det = true ∨ (G.lane l).ymark = false ∨ ∀ m < 32, (G.lane m).st = .eligible → (G.lane m).ymark = true)

/-- The list of them, ascending. -/
def candidates (G : Gang) (det : Bool) : List Nat :=
  let e := lanesOf G.eligible
  let fresh := e.filter fun l => !(G.lane l).ymark
  if det || fresh.isEmpty then e else fresh

theorem mem_eligible {l : Nat} : l ∈ lanesOf G.eligible ↔ l < 32 ∧ (G.lane l).st = .eligible := by
  rw [lanesOf_mem]
  refine and_congr_right fun hl => ?_
  rw [Gang.eligible, maskOf_lane _ l hl, Lane.eligible, decide_eq_true_iff]

theorem mem_candidates {det : Bool} {l : Nat} : l ∈ candidates G det ↔ Candidate G det l := by
  have hnone : ((lanesOf G.eligible).filter fun l => !(G.lane l).ymark).isEmpty = true ↔
      ∀ m < 32, (G.lane m).st = .eligible → (G.lane m).ymark = true := by
    simp only [List.isEmpty_iff, List.filter_eq_nil_iff, mem_eligible, Bool.not_eq_true', Bool.not_eq_false, and_imp]
  unfold candidates Candidate
  dsimp only
  split
  · next hall =>
    rw [Bool.or_eq_true, hnone] at hall
    rw [mem_eligible]
    tauto
  · next hsome =>
    rw [Bool.or_eq_true, hnone] at hsome
    rw [List.mem_filter, mem_eligible, Bool.not_eq_true']
    tauto

theorem candidates_pairwise (G : Gang) (det : Bool) : (candidates G det).Pairwise (· < ·) := by
  have he : (lanesOf G.eligible).Pairwise (· < ·) := List.pairwise_lt_range.filter _
  unfold candidates
  dsimp only
  split
  · exact he
  · exact he.filter _

/-- An eligible thread makes a candidate: where every one has yielded, none is left out. -/
theorem candidates_ne_nil {det : Bool} (h : G.eligible ≠ 0) : candidates G det ≠ [] := by
  have he : lanesOf G.eligible ≠ [] := fun hnil => h (mask_none fun l hl => by
    rw [← Bool.not_eq_true]
    exact fun hbit => List.not_mem_nil (hnil ▸ lanesOf_mem.2 ⟨hl, hbit⟩))
  unfold candidates
  dsimp only
  split
  · exact he
  · next hsome =>
    intro hnil
    simp [hnil] at hsome

/-! ### The PC of a sheaf -/

/-- The longest wait among the candidates. -/
def longest (G : Gang) (det : Bool) : Nat := ((candidates G det).map fun l => (G.lane l).waitCount).foldl max 0

/-- The PC that R27 chooses. -/
def sheafPc (G : Gang) (det : Bool) : Nat :=
  if 32 ≤ longest G det then
    (((candidates G det).find? fun l => decide ((G.lane l).waitCount = longest G det)).map fun l => (G.lane l).pc.toNat).getD 0
  else ((candidates G det).map fun l => (G.lane l).pc.toNat).foldl min (2 ^ 32 - 1)

theorem pick_eq (G : Gang) (det : Bool) : G.pick det =
    (maskOf fun l => decide (l ∈ candidates G det) && decide ((G.lane l).pc.toNat = sheafPc G det), BitVec.ofNat 32 (sheafPc G det)) := rfl

/-- Lane k is the one whose PC R27 chooses: it has waited longest, the lowest such lane, from 32 rounds on, or else has the lowest
PC. -/
def Leads (G : Gang) (det : Bool) (k : Nat) : Prop := Candidate G det k ∧
  ((∃ l, Candidate G det l ∧ 32 ≤ (G.lane l).waitCount) → ∀ l, Candidate G det l →
    (G.lane l).waitCount ≤ (G.lane k).waitCount ∧ (l < k → (G.lane l).waitCount < (G.lane k).waitCount)) ∧
  ((∀ l, Candidate G det l → (G.lane l).waitCount < 32) → ∀ l, Candidate G det l → (G.lane k).pc.toNat ≤ (G.lane l).pc.toNat)

theorem longest_spec {det : Bool} (h : candidates G det ≠ []) :
    (∃ k ∈ candidates G det, (G.lane k).waitCount = longest G det) ∧ ∀ l, Candidate G det l → (G.lane l).waitCount ≤ longest G det := by
  obtain ⟨hmem, hle⟩ := foldl_max_spec (mt List.map_eq_nil_iff.1 h)
  exact ⟨List.mem_map.1 hmem, fun l hl => hle _ (List.mem_map_of_mem (mem_candidates.2 hl))⟩

/-- From 32 rounds on the longest wait decides, and the lowest lane among equal ones. -/
theorem leads_of_long {det : Bool} (h : candidates G det ≠ []) (hlong : 32 ≤ longest G det) :
    ∃ k, Leads G det k ∧ sheafPc G det = (G.lane k).pc.toNat := by
  obtain ⟨⟨j, hj, hjmost⟩, hle⟩ := longest_spec h
  obtain ⟨k, hfind⟩ : ∃ k, (candidates G det).find? (fun l => decide ((G.lane l).waitCount = longest G det)) = some k :=
    Option.isSome_iff_exists.1 (List.find?_isSome.2 ⟨j, hj, decide_eq_true hjmost⟩)
  obtain ⟨hk, before, behind, hsplit, hbefore⟩ := List.find?_eq_some_iff_append.1 hfind
  have hkmost : (G.lane k).waitCount = longest G det := of_decide_eq_true hk
  refine ⟨k, ⟨mem_candidates.1 (List.mem_of_find?_eq_some hfind), fun _ l hl => ⟨hkmost ▸ hle l hl, fun hlt => ?_⟩, fun hshort => ?_⟩, ?_⟩
  · have hmem := mem_candidates.2 hl
    have hsorted := candidates_pairwise G det
    rw [hsplit] at hmem hsorted
    have hl' : l ∈ before := (List.mem_append.1 hmem).resolve_right fun hbehind => by
      have hkl := (List.pairwise_cons.1 (List.pairwise_append.1 hsorted).2.1).1
      rcases List.mem_cons.1 hbehind with rfl | hin
      · exact lt_irrefl l hlt
      · exact lt_asymm hlt (hkl l hin)
    have hne : (G.lane l).waitCount ≠ longest G det := by simpa using hbefore l hl'
    exact hkmost ▸ lt_of_le_of_ne (hle l hl) hne
  · have := hshort j (mem_candidates.1 hj)
    omega
  · rw [sheafPc, if_pos hlong, hfind]
    rfl

/-- Below 32 rounds the lowest PC decides. -/
theorem leads_of_short {det : Bool} (h : candidates G det ≠ []) (hshort : ¬ 32 ≤ longest G det) :
    ∃ k, Leads G det k ∧ sheafPc G det = (G.lane k).pc.toNat := by
  obtain ⟨-, hle⟩ := longest_spec h
  have hpcs : ∀ x ∈ (candidates G det).map fun l => (G.lane l).pc.toNat, x ≤ 2 ^ 32 - 1 := by
    intro x hx
    obtain ⟨l, -, rfl⟩ := List.mem_map.1 hx
    have := (G.lane l).pc.isLt
    omega
  obtain ⟨hmem, hleast⟩ := foldl_min_spec (mt List.map_eq_nil_iff.1 h) hpcs
  obtain ⟨k, hk, hkpc⟩ := List.mem_map.1 hmem
  refine ⟨k, ⟨mem_candidates.1 hk, ?_, fun _ l hl => ?_⟩, ?_⟩
  · rintro ⟨l, hl, hwait⟩
    have := hle l hl
    omega
  · rw [hkpc]
    exact hleast _ (List.mem_map_of_mem (mem_candidates.2 hl))
  · rw [sheafPc, if_neg hshort, hkpc]

theorem exists_leads {det : Bool} (h : G.eligible ≠ 0) : ∃ k, Leads G det k ∧ sheafPc G det = (G.lane k).pc.toNat := by
  by_cases hlong : 32 ≤ longest G det
  · exact leads_of_long (candidates_ne_nil h) hlong
  · exact leads_of_short (candidates_ne_nil h) hlong

/-! ### The sheaf and the threads after an issue round -/

/-- The sheaf's PC is that of the lane that leads. -/
theorem pick_pc {det : Bool} {k : Nat} (hpc : sheafPc G det = (G.lane k).pc.toNat) : (G.pick det).2 = (G.lane k).pc := by
  rw [pick_eq, hpc]
  exact (BitVec.ofNat_toNat _ _).trans (BitVec.setWidth_eq _)

/-- Its members are the candidates at that PC. -/
theorem pick_members {det : Bool} {k l : Nat} (hpc : sheafPc G det = (G.lane k).pc.toNat) (hl : l < 32) :
    (G.pick det).1.getLsbD l = true ↔ Candidate G det l ∧ (G.lane l).pc = (G.lane k).pc := by
  rw [pick_eq, maskOf_lane _ l hl, Bool.and_eq_true, decide_eq_true_iff, decide_eq_true_iff, mem_candidates, hpc, BitVec.toNat_inj]

/-- The threads after the round: members start their wait count again, the other eligible threads count on, and their yield marks
end. -/
theorem form_lane (G : Gang) (det : Bool) {l : Nat} (hl : l < 32) : (G.form det).lane l =
    if (G.lane l).st = .eligible then { G.lane l with
        waitCount := if (G.pick det).1.getLsbD l then 0 else (G.lane l).waitCount + 1
        ymark := false
        ranSinceTret := (G.lane l).ranSinceTret || (G.pick det).1.getLsbD l }
      else G.lane l := by
  have helig : (G.eligible.getLsbD l = true) = ((G.lane l).st = .eligible) := by
    rw [Gang.eligible, maskOf_lane _ l hl, Lane.eligible, decide_eq_true_iff]
  refine (modLanes_lane G _ _ l hl).trans ?_
  simp only [helig]

/-- The gang with its next sheaf, where it has no open run (R26, R27). -/
def formedGang (det : Bool) (G : Gang) : Gang := if G.sheaf.isSome then G else G.form det

theorem formedGang_kept (det : Bool) (G : Gang) :
    formedGang det G = { G with lanes := (formedGang det G).lanes, sheaf := (formedGang det G).sheaf } := by
  unfold formedGang
  split <;> rfl

theorem formedGang_idx (det : Bool) (G : Gang) : (formedGang det G).idx = G.idx := by rw [formedGang_kept]

theorem formed_eq (hL : s.launchOf u = some L) : s.formed u g = s.modGang u g (formedGang L.r.det) := by
  unfold State.formed
  rw [hL]
  rfl

/-- A gang that may issue and has no open run has an eligible thread. -/
theorem eligible_of_canIssue (h : s.canIssue u g = true) (hG : s.gang? u g = some G) (hS : G.sheaf = none) : G.eligible ≠ 0 := by
  unfold State.canIssue at h
  split at h
  · next hG' =>
    obtain rfl := Option.some.inj (hG.symm.trans hG')
    simp only [hS, Bool.and_eq_true, decide_eq_true_iff] at h
    tauto
  · simp at h

/-! ### The quadrant issues -/

/-- The yield marks of the quadrant's other gangs clear (R43). -/
def clearYields (core u g : Nat) (b : Block) : Block :=
  if b.core = core then
    { b with gangs := b.gangs.map fun G => if G.idx % 4 = g % 4 ∧ ¬ (b.uid = u ∧ G.idx = g) then { G with ymark := false } else G }
  else b

theorem clearYields_uid (core u g : Nat) (b : Block) : (clearYields core u g b).uid = b.uid := by
  unfold clearYields
  split <;> rfl

theorem block?_map (s : State) (u : Nat) {f : Block → Block} (hf : ∀ b, (f b).uid = b.uid) :
    ({ s with blocks := s.blocks.map f } : State).block? u = (s.block? u).map f := by
  unfold State.block?
  rw [List.find?_map]
  simp only [Function.comp_def, hf]

/-- The gang that issues keeps its mark. -/
theorem gang?_clearYields (core : Nat) (hG : s.gang? u g = some G) (hidx : G.idx = g) :
    ({ s with blocks := s.blocks.map (clearYields core u g) } : State).gang? u g = some G := by
  obtain ⟨b, hb, hget⟩ := Option.bind_eq_some_iff.1 hG
  have huid : b.uid = u := by simpa using List.find?_some hb
  rw [State.gang?, block?_map s u (clearYields_uid core u g), hb, Option.map_some, Option.bind_some]
  unfold clearYields
  split
  · simp [hget, huid, hidx]
  · exact hget

theorem issueFrom_eq (s : State) (L : Launch) (core u g : Nat) : s.issueFrom L core u g =
    let t := if L.r.det then s.setHolder L.id core (g % 4) (some (u, g)) else s
    { ({ t with blocks := s.blocks.map (clearYields core u g) } : State).modGang u g
      (fun G => { G with lastIssue := s.tick }) with cur := some (u, g) } := by
  unfold State.issueFrom
  split <;> rfl

theorem issueFrom_frame (s : State) (L : Launch) (core u g : Nat) : s.issueFrom L core u g =
    { s with cur := some (u, g), blocks := (s.issueFrom L core u g).blocks, holders := (s.issueFrom L core u g).holders } := by
  rw [issueFrom_eq]
  split <;> rfl

theorem gang?_issueFrom (core : Nat) (hG : s.gang? u g = some G) (hidx : G.idx = g) :
    (s.issueFrom L core u g).gang? u g = some { G with lastIssue := s.tick } := by
  rw [issueFrom_eq]
  refine (gang?_modGang _ u g _).trans ?_
  exact congrArg (Option.map _) (gang?_clearYields core hG hidx)

/-- An issue round forms the sheaf, and the quadrant issues from the gang if that is the one it chooses. -/
theorem exec_issueRound (hb : s.block? u = some b) (hL : s.launchOf u = some L) (h : s.canIssue u g = true) :
    exec (.issueRound u g) s = .next (if (s.formed u g).chosen b.core (g % 4) = some (u, g) then (s.formed u g).issueFrom L b.core u g
      else s.formed u g) := by
  have hcan : ¬ (!s.canIssue u g) = true := by simp [h]
  change execIssueRound u g s = _
  rw [execIssueRound, if_neg hcan, hb, hL]

/-- The state and the gang after a round. -/
theorem issueRound_gang (hb : s.block? u = some b) (hL : s.launchOf u = some L) (hG : s.gang? u g = some G) (hidx : G.idx = g)
    (hcan : s.canIssue u g = true) : ∃ t H, exec (.issueRound u g) s = .next t ∧ t.gang? u g = some H ∧
      (if (s.formed u g).chosen b.core (g % 4) = some (u, g) then t.cur = some (u, g) ∧ H.lastIssue = s.tick ∧
          t = { s with cur := t.cur, blocks := t.blocks, holders := t.holders }
        else H.lastIssue = G.lastIssue ∧ t = { s with blocks := t.blocks }) ∧
      H = { G with lanes := H.lanes, sheaf := H.sheaf, lastIssue := H.lastIssue } ∧
      H.lanes = (formedGang L.r.det G).lanes ∧ H.sheaf = (formedGang L.r.det G).sheaf := by
  have hround := exec_issueRound hb hL hcan
  have hformed : (s.formed u g).gang? u g = some (formedGang L.r.det G) := by rw [formed_eq hL, gang?_modGang, hG]; rfl
  by_cases hchosen : (s.formed u g).chosen b.core (g % 4) = some (u, g)
  · rw [if_pos hchosen] at hround
    refine ⟨_, _, hround, gang?_issueFrom b.core hformed (by rw [formedGang_idx, hidx]), ?_, ?_, rfl, rfl⟩
    · rw [if_pos hchosen, issueFrom_frame, formed_eq hL]
      exact ⟨rfl, rfl, rfl⟩
    · rw [formedGang_kept]
  · rw [if_neg hchosen] at hround
    refine ⟨_, _, hround, hformed, ?_, by rw [formedGang_kept], rfl, rfl⟩
    rw [if_neg hchosen, formedGang_kept, formed_eq hL]
    exact ⟨rfl, rfl⟩

/-! ### The order in which gangs take their turns (R30, R43) -/

theorem insertSorted_eq_orderedInsert {α : Type} (x : Nat × α) (l : List (Nat × α)) :
    insertSorted x l = l.orderedInsert (fun x y => x.1 ≤ y.1) x := by
  induction l with
  | nil => rfl
  | cons y t ih => rw [insertSorted, List.orderedInsert, ih]

/-- A list sorted by its first parts is sorted by insertion. -/
theorem sortedBy_eq_insertionSort {α : Type} (l : List (Nat × α)) : sortedBy l = l.insertionSort fun x y => x.1 ≤ y.1 := by
  induction l with
  | nil => rfl
  | cons x t ih => rw [List.insertionSort_cons, ← ih, ← insertSorted_eq_orderedInsert, sortedBy, List.foldr_cons, sortedBy]

theorem mem_sortedBy {α : Type} {l : List (Nat × α)} {x : Nat × α} : x ∈ sortedBy l ↔ x ∈ l := by
  rw [sortedBy_eq_insertionSort]
  exact List.mem_insertionSort _

theorem sortedBy_pairwise {α : Type} (l : List (Nat × α)) : (sortedBy l).Pairwise fun x y => x.1 ≤ y.1 := by
  rw [sortedBy_eq_insertionSort]
  have : Std.Total fun x y : Nat × α => x.1 ≤ y.1 := ⟨fun x y => le_total x.1 y.1⟩
  have : IsTrans (Nat × α) fun x y => x.1 ≤ y.1 := ⟨fun _ _ _ => le_trans⟩
  exact List.pairwise_insertionSort _ l

/-- What orders the gangs of a quadrant: the time of the last issue, then the index, then the block's placement. -/
def turnKey (B : Block) (H : Gang) : Nat := (H.lastIssue * 2 ^ 8 + H.idx) * 2 ^ 64 + B.stamp

theorem lastIssue_le_of_turnKey {B C : Block} {H K : Gang} (hC : C.stamp < 2 ^ 64) (hK : K.idx < 2 ^ 8)
    (h : turnKey B H ≤ turnKey C K) : H.lastIssue ≤ K.lastIssue := by
  unfold turnKey at h
  omega

/-- The gangs of a quadrant with their keys. -/
def quadGangs (s : State) (core quad : Nat) : List (Nat × Nat × Gang) :=
  (s.blocks.filter fun b => decide (b.core = core)).flatMap fun b =>
    (b.gangs.filter fun G => decide (G.idx % 4 = quad)).map fun G => (turnKey b G, b.uid, G)

theorem mem_quadGangs {core quad : Nat} {x : Nat × Nat × Gang} : x ∈ quadGangs s core quad ↔
    ∃ B ∈ s.blocks, B.core = core ∧ ∃ H ∈ B.gangs, H.idx % 4 = quad ∧ (turnKey B H, B.uid, H) = x := by
  simp only [quadGangs, List.mem_flatMap, List.mem_map, List.mem_filter, decide_eq_true_eq, and_assoc]

/-- The same gangs in the order of their turns: those that have yielded come last. -/
def turnOrder (s : State) (core quad : Nat) : List (Nat × Nat × Gang) :=
  let xs := sortedBy (quadGangs s core quad)
  (xs.filter fun x => !x.2.2.ymark) ++ xs.filter fun x => x.2.2.ymark

/-- A gang stands before another: it alone has not yielded, or both have the same mark and its key is no larger. -/
def Before (x y : Nat × Nat × Gang) : Prop :=
  (x.2.2.ymark = false ∧ y.2.2.ymark = true) ∨ (x.2.2.ymark = y.2.2.ymark ∧ x.1 ≤ y.1)

theorem mem_turnOrder {core quad : Nat} {x : Nat × Nat × Gang} : x ∈ turnOrder s core quad ↔ x ∈ quadGangs s core quad := by
  simp only [turnOrder, List.mem_append, List.mem_filter, mem_sortedBy, Bool.not_eq_true']
  cases x.2.2.ymark <;> simp

theorem turnOrder_pairwise (s : State) (core quad : Nat) : (turnOrder s core quad).Pairwise Before := by
  have hsorted := sortedBy_pairwise (quadGangs s core quad)
  refine List.pairwise_append.2 ⟨?_, ?_, fun x hx y hy => ?_⟩
  · refine (hsorted.filter _).imp_of_mem fun hx hy hle => ?_
    exact .inr ⟨by simp_all, hle⟩
  · refine (hsorted.filter _).imp_of_mem fun hx hy hle => ?_
    exact .inr ⟨by simp_all, hle⟩
  · exact .inl ⟨by simpa using (List.mem_filter.1 hx).2, (List.mem_filter.1 hy).2⟩

theorem turns_eq (s : State) (core quad : Nat) : s.turns core quad = (turnOrder s core quad).map fun x => (x.2.1, x.2.2.idx) := rfl

/-- The chosen gang is ready, and stands before every other ready one. -/
theorem chosen_spec {core quad v h : Nat} (hchosen : s.chosen core quad = some (v, h)) :
    ∃ x ∈ quadGangs s core quad, (x.2.1, x.2.2.idx) = (v, h) ∧ s.gangReady v h = true ∧
      ∀ y ∈ quadGangs s core quad, s.gangReady y.2.1 y.2.2.idx = true → Before x y := by
  rw [State.chosen, turns_eq, List.find?_map] at hchosen
  obtain ⟨x, hfind, hx⟩ := Option.map_eq_some_iff.1 hchosen
  obtain ⟨hready, before, behind, hsplit, hbefore⟩ := List.find?_eq_some_iff_append.1 hfind
  refine ⟨x, mem_turnOrder.1 (List.mem_of_find?_eq_some hfind), hx, ?_, fun y hy hyready => ?_⟩
  · rw [← show x.2.1 = v from congrArg Prod.fst hx, ← show x.2.2.idx = h from congrArg Prod.snd hx]
    exact hready
  · have hmem := mem_turnOrder.2 hy
    have hpairs := turnOrder_pairwise s core quad
    rw [hsplit] at hmem hpairs
    rcases List.mem_append.1 hmem with hin | hin
    · exact absurd hyready (by simpa using hbefore y hin)
    · rcases List.mem_cons.1 hin with rfl | hin
      · exact .inr ⟨rfl, le_rfl⟩
      · exact (List.pairwise_cons.1 (List.pairwise_append.1 hpairs).2.1).1 y hin

/-! ### The end of a long hold (R44) -/

theorem holder_setHolder (s : State) (a core quad : Nat) (h : Option (Nat × Nat)) : (s.setHolder a core quad h).holder a core quad = h := by
  have hnone : (s.holders.filter fun h => decide (¬ (h.1 = a ∧ h.2.1 = core ∧ h.2.2.1 = quad))).find?
      (fun h => decide (h.1 = a ∧ h.2.1 = core ∧ h.2.2.1 = quad)) = none := by
    refine List.find?_eq_none.2 fun x hx => ?_
    exact fun hk => of_decide_eq_true (List.mem_filter.1 hx).2 (of_decide_eq_true hk)
  unfold State.setHolder State.holder
  cases h with
  | none => simp only [hnone, Option.map_none]
  | some x => simp

/-- The next runnable gang after one in an order, wrapping, or that one itself. -/
theorem find?_wrapping {all pre post : List (Nat × Nat)} {x : Nat × Nat} {p : Nat × Nat → Bool} (hall : all = pre ++ x :: post)
    (hpre : x ∉ pre) :
    (let i := (all.findIdx? fun y => decide (y = x)).getD 0
     ((all.drop (i + 1) ++ all.take i).find? fun y => decide (y ∈ all.filter p)).orElse fun _ => (all.filter p).head?)
      = (post ++ pre ++ [x]).find? p := by
  have hi : all.findIdx? (fun y => decide (y = x)) = some pre.length := by
    rw [List.findIdx?_eq_some_iff_getElem]
    refine ⟨by simp [hall], by simp [hall], fun j hj => ?_⟩
    simp only [hall, List.getElem_append_left hj, decide_eq_true_eq]
    exact fun h => hpre (h ▸ List.getElem_mem hj)
  have hdrop : all.drop (pre.length + 1) = post := by simp [hall]
  have htake : all.take pre.length = pre := by simp [hall]
  have hsub : ∀ y ∈ post ++ pre, decide (y ∈ all.filter p) = p y := by
    intro y hy
    have : y ∈ all := by
      simp only [hall, List.mem_append, List.mem_cons] at hy ⊢
      tauto
    simp [List.mem_filter, this]
  simp only [hi, Option.getD_some, hdrop, htake]
  rw [List.find?_congr hsub, List.find?_append (xs := post ++ pre) (ys := [x])]
  cases hfind : (post ++ pre).find? p with
  | some y => rfl
  | none =>
    have hskip : ∀ y ∈ post ++ pre, ¬ p y = true := List.find?_eq_none.1 hfind
    have hpost : post.filter p = [] := List.filter_eq_nil_iff.2 fun y hy => hskip y (List.mem_append_left _ hy)
    have hpre' : pre.filter p = [] := List.filter_eq_nil_iff.2 fun y hy => hskip y (List.mem_append_right _ hy)
    rw [hall, List.filter_append, hpre', List.nil_append, List.filter_cons, hpost]
    cases hx : p x <;> simp [hx]

/-- A quadrant that is held for a deterministic launch passes to the next runnable gang in the order, wrapping. -/
theorem passHolder_next {pre post : List (Nat × Nat)} (hb : s.block? u = some b) (hL : s.launchOf u = some L) (hdet : L.r.det = true)
    (horder : s.order L.id b.core (g % 4) = pre ++ (u, g) :: post) (hpre : (u, g) ∉ pre) : s.passHolder u g true =
      (s.setHolder L.id b.core (g % 4) ((post ++ pre ++ [(u, g)]).find? fun x => ((s.gang? x.1 x.2).map Gang.runnable).getD false)).modGang u g
        fun G => { G with runs := 0 } := by
  rw [← find?_wrapping horder hpre]
  unfold State.passHolder
  rw [hb, hL]
  simp only [hdet]
  rfl

/-- After 65,536 runs the hold ends as if the last had ended with yield. -/
theorem exec_forcedSwitch (hb : s.block? u = some b) (hL : s.launchOf u = some L) (hG : s.gang? u g = some G) (hdet : L.r.det = true)
    (hruns : 65536 ≤ G.runs) (hS : G.sheaf = none) (hheld : s.heldBy L.id b.core (g % 4) = some (u, g)) :
    exec (.forcedSwitch u g) s = .next (s.passHolder u g true) := by
  change execForcedSwitch u g s = _
  simp only [execForcedSwitch, hb, hL, hG]
  exact if_pos ⟨hdet, hruns, by rw [hS]; rfl, hheld⟩

/-! ### The statement -/

/-- The sheaf that a round forms, with the threads' counts and marks, in a gang with those lanes and that sheaf. -/
theorem formed_sheaf {det : Bool} {G' : Gang} (h : G.eligible ≠ 0) (hlanes : G'.lanes = (G.form det).lanes)
    (hsheaf : G'.sheaf = (G.form det).sheaf) : ∃ S k, G'.sheaf = some S ∧ S.out = 0 ∧ S.pos = 0 ∧ S.fp = none ∧ S.commit = none ∧
      Leads G det k ∧ S.pc = (G.lane k).pc ∧ ∀ l < 32, (S.members.getLsbD l = true ↔ Candidate G det l ∧ (G.lane l).pc = S.pc) ∧
        G'.lane l = if (G.lane l).st = .eligible then { G.lane l with
            waitCount := if S.members.getLsbD l then 0 else (G.lane l).waitCount + 1
            ymark := false
            ranSinceTret := (G.lane l).ranSinceTret || S.members.getLsbD l }
          else G.lane l := by
  obtain ⟨k, hleads, hpc⟩ := exists_leads (det := det) h
  refine ⟨_, k, hsheaf, rfl, rfl, rfl, rfl, hleads, pick_pc hpc, fun l hl => ⟨?_, ?_⟩⟩
  · exact (pick_pc hpc) ▸ pick_members hpc hl
  · rw [Gang.lane, hlanes]
    exact form_lane G det hl

/-- Settles O28: the round by the gang that it forms, the choice by the order of the quadrant's turns, the forced switch by the heir
of a hold. -/
theorem sheafFormation : Obligations.SheafFormation := by
  unfold Obligations.SheafFormation
  intro u g s b L G hb hL hG hidx
  refine ⟨fun hcan => ?_, fun core quad v h hbounds hchosen => ?_, fun pre post hdet hruns hS hheld horder hpre _ => ?_⟩
  · obtain ⟨t, H, ht, hH, hwhere, hkept, hlanes, hsheaf⟩ := issueRound_gang hb hL hG hidx hcan
    refine ⟨t, H, ht, hH, hwhere, hkept, fun hS => ?_, fun hS => ?_⟩
    · rw [hlanes, hsheaf, formedGang, if_pos hS]
      exact ⟨rfl, rfl⟩
    · rw [formedGang, if_neg (by simp [hS])] at hlanes hsheaf
      obtain ⟨S, k, hsome, hout, hpos, hfp, hcommit, ⟨hcand, hlong, hshort⟩, hpc, hall⟩ :=
        formed_sheaf (eligible_of_canIssue hcan hG hS) hlanes hsheaf
      exact ⟨S, k, hsome, hout, hpos, hfp, hcommit, hcand, hpc, hlong, hshort, hall⟩
  · obtain ⟨x, hx, hgang, hready, hfirst⟩ := chosen_spec hchosen
    obtain ⟨B, hB, hcore, H, hH, hquad, rfl⟩ := mem_quadGangs.1 hx
    obtain ⟨rfl, rfl⟩ := Prod.mk.inj hgang
    refine ⟨hready, B, hB, rfl, hcore, H, hH, rfl, hquad, fun C hC hCcore K hK hKquad hKready => ?_⟩
    obtain ⟨hstamp, hidxs⟩ := hbounds C hC
    exact (hfirst _ (mem_quadGangs.2 ⟨C, hC, hCcore, K, hK, hKquad, rfl⟩) hKready).imp_right fun ⟨hmark, hle⟩ =>
      ⟨hmark, lastIssue_le_of_turnKey hstamp (hidxs K hK) hle⟩
  · refine ⟨_, exec_forcedSwitch hb hL hG hdet hruns hS hheld, ?_⟩
    rw [passHolder_next hb hL hdet horder hpre]
    refine ⟨rfl, ?_, holder_setHolder _ _ _ _ _⟩
    rw [gang?_modGang]
    exact congrArg (Option.map _) hG

end Sys2Proof.Proofs.Issue
end

section
/-! PROOFS. A step reads the words at the PC of the gang in issue and runs the instruction that they decode to (R24, R31, R169, R196,
R346, R348). -/

namespace Sys2Proof.Proofs.Steps
open Sys2Proof.Machine Sys2Proof.Safety Sys2Proof.Laws

variable {s : State}

/-! ### The state at another time -/

/-- The state at another time, with the counters of the quadrants that belong to it. -/
def clocked (k n : Nat) (qs : List QuadStat) (s : State) : State := { s with tick := k, time := n, quads := qs }

/-- A step begins with time that passes. -/
theorem exists_tickOn (s : State) : ∃ n qs, s.time ≤ n ∧ s.tickOn = clocked (s.tick + 1) n qs s :=
  ⟨_, _, Nat.le_add_right s.time (if s.mgmt.step = 4 then 1 + Config.elapsed s.tick else 0), rfl⟩

section Clocked
variable (k n : Nat) (qs : List QuadStat)

theorem clocked_ite {c : Prop} [Decidable c] (t u : State) :
    clocked k n qs (if c then t else u) = if c then clocked k n qs t else clocked k n qs u := apply_ite _ _ _ _

theorem clocked_foldl {α : Type} {f : State → α → State} (h : ∀ t x, f (clocked k n qs t) x = clocked k n qs (f t x)) (l : List α)
    (t : State) : l.foldl f (clocked k n qs t) = clocked k n qs (l.foldl f t) := List.foldl_hom _ h

/-! Translation does not depend on the time. -/

theorem walkFrom_clocked (s : State) (va lvl t : Nat) : (clocked k n qs s).walkFrom va lvl t = s.walkFrom va lvl t := by
  induction lvl generalizing t with
  | zero => rw [State.walkFrom, State.walkFrom]; rfl
  | succ lvl ih => rw [State.walkFrom, State.walkFrom]; simp only [ih]; rfl

theorem translate_clocked (s : State) (w : TUnit) (p va : Nat) : (clocked k n qs s).translate w p va = s.translate w p va := by
  have hwalk : (clocked k n qs s).walk p va = s.walk p va := walkFrom_clocked ..
  have htables : (clocked k n qs s).tables = s.tables := rfl
  have hby : (clocked k n qs s).walkBy w p va = s.walkBy w p va := by
    simp only [State.walkBy, hwalk, walkFrom_clocked, htables]
  unfold State.translate
  rw [hby]
  rfl

theorem place_clocked (s : State) (w : TUnit) (p va : Nat) (need : Needs) : (clocked k n qs s).place w p va need = s.place w p va need := by
  unfold State.place
  rw [translate_clocked]
  rfl

/-! Nor does what a die's L1s give up. -/

theorem l3Fill_clocked (s : State) (line key : Nat) : (clocked k n qs s).l3Fill line key = clocked k n qs (s.l3Fill line key) := by
  have hline : (clocked k n qs s).l3Line? line key = s.l3Line? line key := rfl
  unfold State.l3Fill
  rw [hline]
  cases s.l3Line? line key <;> rfl

theorem raiseFloor_clocked (s : State) (line : Nat) (c : Vector Clocks 4) :
    (clocked k n qs s).raiseFloor line c = clocked k n qs (s.raiseFloor line c) := by
  refine clocked_foldl k n qs (fun t p => ?_) _ s
  have hfloor : (clocked k n qs t).floorOf p (sliceOf line) = t.floorOf p (sliceOf line) := rfl
  dsimp only
  rw [hfloor]
  split <;> rfl

theorem setRemote_clocked (s : State) (x : RemoteLine) : (clocked k n qs s).setRemote x = clocked k n qs (s.setRemote x) := by
  unfold State.setRemote
  rw [raiseFloor_clocked]
  split <;> rfl

theorem modLine_clocked (s : State) (line : Nat) (f : LineMeta → LineMeta) :
    (clocked k n qs s).modLine line f = clocked k n qs (s.modLine line f) := by
  have hlines : (clocked k n qs s).lines = s.lines := rfl
  unfold State.modLine
  rw [hlines]
  split <;> rfl

theorem writeMasked_clocked (s : State) (line key : Nat) (d : BitVec 1024) (m : BitVec 128) (whole : BitVec 16) :
    (clocked k n qs s).writeMasked line key d m whole = clocked k n qs (s.writeMasked line key d m whole) := by
  have hlocal : (clocked k n qs s).local (line * 128) = s.local (line * 128) := rfl
  have hline : (clocked k n qs s).line line = s.line line := rfl
  have hremote : (clocked k n qs s).remoteLine line key = s.remoteLine line key := rfl
  unfold State.writeMasked State.writeLine
  rw [l3Fill_clocked, modLine_clocked, hlocal, hline, hremote]
  split
  · rfl
  · split
    · rfl
    · rw [← clocked_ite, setRemote_clocked]

theorem collectL1_clocked (s : State) (cl line key : Nat) (allow : BitVec 128) :
    (clocked k n qs s).collectL1 cl line key allow = clocked k n qs (s.collectL1 cl line key allow) := by
  have hl1 : (clocked k n qs s).l1 = s.l1 := rfl
  unfold State.collectL1
  rw [hl1]
  split
  · rfl
  · dsimp only
    rw [writeMasked_clocked]
    split <;> rfl

theorem collectDie_clocked (s : State) (d line key : Nat) :
    (clocked k n qs s).collectDie d line key = clocked k n qs (s.collectDie d line key) := by
  have hline : (clocked k n qs s).l2line d line key = s.l2line d line key := rfl
  have hpending : (clocked k n qs s).pendingMask d line key = s.pendingMask d line key := rfl
  have hfold (allow : BitVec 128) : (List.range 8).foldl (fun t c => t.collectL1 (8 * d + c) line key allow) (clocked k n qs s) =
      clocked k n qs ((List.range 8).foldl (fun t c => t.collectL1 (8 * d + c) line key allow) s) :=
    clocked_foldl k n qs (fun t c => collectL1_clocked k n qs t _ _ _ _) _ s
  unfold State.collectDie
  rw [hline, hpending]
  dsimp only
  rw [hfold]
  generalize (List.range 8).foldl _ s = t
  split <;> rfl

/-! ### Room in the caches -/

/-- A line stays in an L2 that holds too many only where its dirty bytes are on their way to another device. -/
theorem shedL2_eq_none (s : State) (x : L2Line) : s.shedL2 x = none ↔
    let t := s.collectDie x.die x.line x.key
    s.local (x.line * 128) = false ∧ (t.remoteLine x.line x.key).dirty ≠ 0 ∧ t.outstanding 2 x.line x.key = true := by
  unfold State.shedL2
  dsimp only
  split
  · simp_all
  · split
    · simp_all
    · split <;> simp_all

theorem makeRoom_eq_none (s : State) : s.makeRoom = none ↔
    s.l1Victim = none ∧ (∀ x, s.l2Victim = some x → s.takeFree.shedL2 x = none) ∧ s.l3Victim = none := by
  unfold State.makeRoom
  cases s.l1Victim with
  | some x => simp
  | none =>
    cases s.l2Victim with
    | none => simp
    | some x => cases h : s.takeFree.shedL2 x <;> simp [h]

/-- Whether a cache must give a line up does not depend on the time. -/
theorem makeRoom_clocked (h : s.makeRoom = none) : (clocked k n qs s).makeRoom = none := by
  rw [makeRoom_eq_none] at h ⊢
  obtain ⟨hl1, hl2, hl3⟩ := h
  refine ⟨hl1, fun x hx => ?_, hl3⟩
  have hshed := (shedL2_eq_none _ x).1 (hl2 x hx)
  change (clocked k n qs s.takeFree).shedL2 x = none
  rw [shedL2_eq_none, collectDie_clocked]
  exact hshed

end Clocked

/-! ### What a step does first -/

/-- Neither room in the caches nor a drain is due. -/
theorem drains_eq_nil (h : ∀ L ∈ s.launches, s.drainDue L = false) : s.drains = [] := by
  rw [State.drains, List.filter_eq_nil_iff.2 fun L hL => by rw [h L hL]; exact Bool.false_ne_true]
  rfl

/-- The first event of the agenda is carried out; an encoded instruction there is no event. -/
theorem step_of_agenda {i : Instr} {rest : List Instr} (hroom : s.makeRoom = none) (h : s.agenda = i :: rest) :
    ∃ t, t = { s with agenda := rest, tick := s.tick + 1, time := t.time, quads := t.quads } ∧ s.time ≤ t.time ∧
      step s = if i.hdr.isSome then .next t else exec i t := by
  obtain ⟨n, qs, hn, htick⟩ := exists_tickOn s
  refine ⟨{ clocked (s.tick + 1) n qs s with agenda := rest }, rfl, hn, ?_⟩
  have hagenda : (clocked (s.tick + 1) n qs s).agenda = i :: rest := h
  unfold step
  simp only [htick, makeRoom_clocked _ _ _ hroom, hagenda]

/-- Without an agenda the gang in issue goes on. -/
theorem step_of_cur {x : Nat × Nat} (hroom : s.makeRoom = none) (hagenda : s.agenda = []) (hdrains : ∀ L ∈ s.launches, s.drainDue L = false)
    (hcur : s.cur = some x) : step s = runGroup s.tickOn.fetch := by
  obtain ⟨n, qs, -, htick⟩ := exists_tickOn s
  have ha : (clocked (s.tick + 1) n qs s).agenda = [] := hagenda
  have hd : (clocked (s.tick + 1) n qs s).drains = [] := drains_eq_nil (s := clocked (s.tick + 1) n qs s) hdrains
  have hc : (clocked (s.tick + 1) n qs s).cur = some x := hcur
  unfold step
  simp only [htick, makeRoom_clocked _ _ _ hroom, ha, hd, hc]

/-! ### The words of a group (R168, R169) -/

theorem add_seen_length (p : PfxState) (idx : Nat) (w : Word) : (p.add idx w).seen.length = p.seen.length + 1 := by
  unfold PfxState.add
  dsimp only
  repeat' split
  all_goals simp

/-- A group that decodes at a word has the prefixes before it and that word. -/
theorem length_of_decodeMain {p : PfxState} {all : List Word} {w : Word} {i : Instr} {n : Nat} (h : decodeMain p all w = .ok i n) :
    n = p.seen.length + 1 := by
  unfold decodeMain at h
  dsimp only at h
  repeat' split at h
  all_goals simp_all

/-- Words that decode are prefixes and one word that is none, with whatever follows. -/
theorem split_of_decodeFrom {all ws : List Word} {p : PfxState} {i : Instr} {n : Nat} (h : decodeFrom p all ws = .ok i n) :
    ∃ pre w post, ws = pre ++ w :: post ∧ (∀ x ∈ pre, isPfx x = true) ∧ n = p.seen.length + pre.length + 1 := by
  induction ws generalizing p with
  | nil =>
    rw [decodeFrom] at h
    repeat' split at h
    all_goals cases h
  | cons x t ih =>
    rw [decodeFrom] at h
    split at h
    · next hx =>
      obtain ⟨pre, w, post, rfl, hpre, hn⟩ := ih h
      refine ⟨x :: pre, w, post, rfl, List.forall_mem_cons.2 ⟨hx, hpre⟩, ?_⟩
      rw [hn, add_seen_length, List.length_cons]
      omega
    · exact ⟨[], x, t, rfl, List.forall_mem_nil _, length_of_decodeMain h⟩

/-- Fewer than 24 prefixes are no group yet. -/
theorem decodeFrom_prefixes {all ws : List Word} {p : PfxState} (hws : ∀ x ∈ ws, isPfx x = true)
    (hlen : p.seen.length + ws.length < 24) : decodeFrom p all ws = .more := by
  induction ws generalizing p with
  | nil =>
    rw [decodeFrom]
    split
    · rw [if_neg (by simpa using hlen)]
    · rfl
  | cons x t ih =>
    obtain ⟨hx, ht⟩ := List.forall_mem_cons.1 hws
    rw [decodeFrom, if_pos hx]
    refine ih ht ?_
    rw [add_seen_length]
    simp only [List.length_cons] at hlen
    omega

/-- The words of a group before its last one are no group. -/
theorem decodeWords_more {ws pre post : List Word} {i : Instr} (h : decodeWords ws = .ok i ws.length) (hlen : ws.length ≤ 24)
    (hws : ws = pre ++ post) (hpost : post ≠ []) : decodeWords pre = .more := by
  obtain ⟨pfx, w, tail, hsplit, hpfx, hn⟩ := split_of_decodeFrom h
  have htail : tail = [] := by
    have := congrArg List.length hsplit
    simp only [List.length_append, List.length_cons, PfxState.start, List.length_nil] at this hn
    exact List.length_eq_zero_iff.1 (by omega)
  have hpos := List.length_pos_iff.2 hpost
  have hshort : pre.length ≤ pfx.length := by
    have hall := congrArg List.length (hws.symm.trans hsplit)
    simp only [htail, List.length_append, List.length_cons, List.length_nil] at hall
    omega
  have hinit : pre <+: pfx := by
    have hpre : pre <+: pfx ++ [w] := ⟨post, by rw [← hws, hsplit, htail]⟩
    exact List.prefix_of_prefix_length_le hpre (List.prefix_append pfx [w]) hshort
  refine decodeFrom_prefixes (fun x hx => hpfx x (hinit.subset hx)) ?_
  rw [hws, List.length_append] at hlen
  simp only [PfxState.start, List.length_nil]
  omega

/-- Reading words that decode gives the instruction. -/
theorem readGroup_of_words {w : TUnit} {L : Launch} {pc : Word} {ws : List Word} {i : Instr} (hdec : decodeWords ws = .ok i ws.length)
    (hlen : ws.length ≤ 24) (hread : ∀ (k : Nat) (x : Word), ws[k]? = some x →
      s.readWord w L.part (L.codeVa (pc + BitVec.ofNat 32 (4 * k))) = .word x)
    (fuel : Nat) (rest done : List Word) (hws : ws = done ++ rest) (hrest : rest ≠ []) (hfuel : rest.length ≤ fuel) :
    s.readGroup w L pc fuel done = .ok (.ok i ws.length) := by
  induction fuel generalizing rest done with
  | zero => exact absurd (List.length_eq_zero_iff.1 (Nat.le_zero.1 hfuel)) hrest
  | succ fuel ih =>
    obtain ⟨x, tail, rfl⟩ := List.exists_cons_of_ne_nil hrest
    have hx : ws[done.length]? = some x := by simp [hws]
    have hws' : ws = done ++ [x] ++ tail := by simp [hws]
    rw [State.readGroup, hread _ x hx]
    dsimp only
    by_cases htail : tail = []
    · rw [htail, List.append_nil] at hws'
      rw [← hws', hdec]
    · rw [decodeWords_more hdec hlen hws' htail]
      exact ih tail (done ++ [x]) hws' htail (by simpa using hfuel)

/-! ### What a fetch leaves in the TLBs (R348) -/

/-- The state t differs from s by translations that its TLBs have taken: of a core, for a partition, at addresses of P. -/
structure Cached (core part : Nat) (P : Nat → Prop) (s t : State) : Prop where
  frame : t = { s with tlb := t.tlb, tables := t.tables, freeCtr := t.freeCtr }
  entries : ∀ x ∈ t.tlb, x ∈ s.tlb ∨ x.core = core ∧ x.part = part ∧ P x.va

section Cached
variable {core part : Nat} {P : Nat → Prop} {t : State}

theorem Cached.refl : Cached core part P s s := ⟨rfl, fun _ => .inl⟩

theorem Cached.trans {u : State} (h : Cached core part P s t) (h' : Cached core part P t u) : Cached core part P s u where
  frame := by
    rw [h'.frame, h.frame]
  entries x hx := (h'.entries x hx).elim (h.entries x) .inr

theorem Cached.keepTables (h : Cached core part P s t) (c p va : Nat) : Cached core part P s (t.keepTables c p va) :=
  h.trans ⟨rfl, fun _ => .inl⟩

theorem Cached.tlbInsert (h : Cached core part P s t) {e : TlbEntry} (hcore : e.core = core) (hpart : e.part = part) (hva : P e.va) :
    Cached core part P s (t.tlbInsert e) := by
  refine h.trans ?_
  have hnew {x : TlbEntry} (hx : x ∈ [e]) : x.core = core ∧ x.part = part ∧ P x.va := by
    rw [List.mem_singleton.1 hx]
    exact ⟨hcore, hpart, hva⟩
  unfold State.tlbInsert
  dsimp only
  split
  · exact .refl
  · split
    · exact ⟨rfl, fun x hx => (List.mem_append.1 hx).imp_right hnew⟩
    · refine ⟨rfl, fun x hx => (List.mem_append.1 hx).imp (fun hold => ?_) hnew⟩
      rcases List.mem_append.1 hold with hother | hkept
      · exact (List.mem_filter.1 hother).1
      · exact (List.mem_filter.1 (List.mem_of_mem_eraseIdx hkept)).1

theorem Cached.cacheTrans (h : Cached core part P s t) {w : TUnit} (hw : w.core? = some core) {va : Nat} (hva : P va) :
    Cached core part P s (t.cacheTrans w part va) := by
  unfold State.cacheTrans
  rw [hw]
  dsimp only
  split
  · exact h
  · split
    · split
      · split
        · exact h.tlbInsert rfl rfl hva
        · exact ((h.keepTables ..).tlbInsert rfl rfl hva).tlbInsert rfl rfl hva
      · split
        · exact h
        · exact (h.keepTables ..).tlbInsert rfl rfl hva
    · exact h

end Cached

/-! ### The fetch (R24, R169) -/

/-- A home that has nothing to do before an access stays as it is. -/
theorem touch_of_served {line key : Nat} (h : Served s line key) : s.touch line key = s := by
  obtain ⟨hgood, ⟨hreq, hheld⟩, hsharers, hholders⟩ := h
  have hread : s.readEntry line key = s := if_neg (by simp [hgood])
  have hdead : ((s.holdersOf line key).filter fun d => s.dieFailed.getLsbD d) = [] :=
    List.filter_eq_nil_iff.2 fun d hd => by simp [hholders d hd]
  have hsettle : s.settle line key = s := if_pos ⟨hsharers, hdead, by rw [hreq]; rfl⟩
  unfold State.touch
  rw [hread, hsettle, State.finishHeld, hreq, hheld]
  rfl

theorem touchCode_of_served {w : TUnit} {L : Launch} {pc : Word} (h : ∀ a ∈ [pc, pc + 92], ∀ pa key,
    s.place w L.part (L.codeVa a) ⟨false, false, true⟩ = .ok pa key → Served s (lineOf pa) key) : s.touchCode w L pc = s := by
  refine List.foldlRecOn (motive := fun t => t = s) _ _ rfl fun t ht a ha => ?_
  rw [ht]
  split
  · next hplace => exact touch_of_served (h a ha _ _ hplace)
  · rfl

/-- A word that stands at a place of this device without poison is read there. -/
theorem readWord_of_place {w : TUnit} {p va pa key : Nat} (hplace : s.place w p va ⟨false, false, true⟩ = .ok pa key)
    (hlocal : s.local pa = true) (hsound : s.poisoned key pa 4 = false) :
    s.readWord w p va = .word (BitVec.ofNat 32 (ofBytes (s.bytesAt key pa 4))) := by
  unfold State.readWord
  simp only [hplace, hlocal, hsound]
  rfl

/-- The gang in issue fetches the group whose words stand at its PC. -/
theorem fetch_of_words {u g : Nat} {S : Sheaf} {c : Ctx} {ws : List Word} {i : Instr} (hfocus : s.focus = some (u, g, S))
    (hctx : s.ctx u g (Hdr.plain false) 1 7 = some c) (hparked : c.G.isParked = false) (hheld : c.G.held = false)
    (horder : c.G.chunk = none ∨ c.G.mau = []) (hlen : ws.length ≤ 24) (hdec : decodeWords ws = .ok i ws.length)
    (hserved : ∀ a ∈ [S.pc, S.pc + 92], ∀ pa key, s.place c.unit c.L.part (c.L.codeVa a) ⟨false, false, true⟩ = .ok pa key →
      Served s (lineOf pa) key)
    (hread : ∀ (k : Nat) (x : Word), ws[k]? = some x →
      s.readWord c.unit c.L.part (c.L.codeVa (S.pc + BitVec.ofNat 32 (4 * k))) = .word x) :
    ∃ t, s.fetch = .ok (t, .ok i ws.length) ∧
      Cached c.B.core c.L.part (fun va => ∃ k < ws.length, va = c.L.codeVa (S.pc + BitVec.ofNat 32 (4 * k))) s t := by
  have hwaits : ¬ (c.G.isParked || c.G.held || (c.G.chunk.isSome && !c.G.mau.isEmpty)) = true := by
    rcases horder with h | h <;> simp [hparked, hheld, h]
  have hne : ws ≠ [] := fun h => by simp [h, decodeWords, decodeFrom, PfxState.start] at hdec
  have hgroup := readGroup_of_words hdec hlen hread 24 ws [] rfl hne hlen
  have hmax : max 1 (decLength (.ok i ws.length)) = ws.length := Nat.max_eq_right (List.length_pos_iff.2 hne)
  refine ⟨_, ?_, List.foldlRecOn (List.range ws.length) _ Cached.refl fun t ht k hk =>
    ht.cacheTrans (w := c.unit) rfl ⟨k, List.mem_range.1 hk, rfl⟩⟩
  unfold State.fetch
  simp only [hfocus, hctx, touchCode_of_served hserved, hgroup, hmax]
  exact if_neg hwaits

/-- Settles O56: the agenda first; else, with time gone on, the fetch of the words that stand there. -/
theorem stepRunsDecoded : Obligations.StepRunsDecoded := by
  unfold Obligations.StepRunsDecoded
  intro s i hroom
  refine ⟨fun rest hagenda => step_of_agenda hroom hagenda, ?_⟩
  intro u g S c ws hagenda hdrains hfocus hctx hparked hheld horder hlen hdec hserved hwords
  obtain ⟨n, qs, hn, htick⟩ := exists_tickOn s
  have hunit : c.unit = .thread c.B.core (g % 4) := by
    obtain ⟨-, hg, -⟩ := ctx_spec hctx
    rw [Ctx.unit, hg]
  obtain ⟨t, hfetch, hframe, hentries⟩ := fetch_of_words (s := clocked (s.tick + 1) n qs s) hfocus hctx hparked hheld horder hlen hdec
    (fun a ha pa key hplace => by
      rw [place_clocked] at hplace
      obtain ⟨hgood, hfree, halive⟩ := hserved a ha pa key hplace
      exact ⟨hgood, hfree, halive⟩)
    (fun k x hx => by
      obtain ⟨pa, key, hplace, hlocal, hsound, rfl⟩ := hwords k x hx
      rw [← hunit] at hplace
      exact readWord_of_place ((place_clocked ..).trans hplace) hlocal hsound)
  obtain ⟨x, hcur⟩ : ∃ x, s.cur = some x := by
    unfold State.focus at hfocus
    split at hfocus
    · cases hfocus
    · next h => exact ⟨_, h⟩
  refine ⟨t, by rw [hframe]; rfl, by rw [hframe]; exact hn, hentries, ?_⟩
  rw [step_of_cur hroom hagenda hdrains hcur, htick, hfetch]
  rfl

end Sys2Proof.Proofs.Steps
end

section
/-! PROOFS. What homes and caches do for accesses, releases and writes of other units changes the caches, the directory and the slices,
and nothing else of the state. -/

namespace Sys2Proof.Proofs.MemoryFrame
open Sys2Proof.Machine Sys2Proof.Safety Sys2Proof.Laws Sys2Proof.Proofs.Caches

/-- The state t differs from s in the lines of caches, slices and proxy copies, in their directory, and in what stands beside lines. -/
def MemoryWork (s t : State) : Prop := t = { s with
  l1 := t.l1
  l2 := t.l2
  l3 := t.l3
  writes := t.writes
  dir := t.dir
  lines := t.lines
  floor := t.floor
  remote := t.remote }

variable {s t : State}

theorem MemoryWork.refl (s : State) : MemoryWork s s := rfl

theorem MemoryWork.trans {u : State} (h : MemoryWork s t) (h' : MemoryWork t u) : MemoryWork s u := by
  rw [MemoryWork] at h'
  rw [h', h]
  rfl

theorem MemoryWork.ite {u : State} {c : Prop} [Decidable c] (ht : MemoryWork s t) (hu : MemoryWork s u) :
    MemoryWork s (if c then t else u) := by
  split
  · exact ht
  · exact hu

theorem MemoryWork.foldl {α : Type} {f : State → α → State} (hf : ∀ u x, MemoryWork u (f u x)) (l : List α) (t : State) :
    MemoryWork t (l.foldl f t) :=
  foldl_keeps (MemoryWork t) f (fun u x hu => hu.trans (hf u x)) l t (.refl t)

theorem MemoryWork.launches (h : MemoryWork s t) : t.launches = s.launches := by rw [h]
theorem MemoryWork.blocks (h : MemoryWork s t) : t.blocks = s.blocks := by rw [h]

/-! ### Entries and lines -/

theorem memoryWork_setL2 (s : State) (x : L2Line) : MemoryWork s (s.setL2 x) := rfl
theorem memoryWork_setL2st (s : State) (d line key : Nat) (st : L2State) : MemoryWork s (s.setL2st d line key st) := rfl
theorem memoryWork_freeEntry (s : State) (line key : Nat) : MemoryWork s (s.freeEntry line key) := rfl
theorem memoryWork_modL3 (s : State) (line key : Nat) (f : L3Line → L3Line) : MemoryWork s (s.modL3 line key f) := rfl

theorem memoryWork_setEntry (s : State) (e : DirEntry) : MemoryWork s (s.setEntry e) := by
  unfold State.setEntry
  exact .ite rfl rfl

theorem memoryWork_useL2 (s : State) (d line key : Nat) : MemoryWork s (s.useL2 d line key) := by
  unfold State.useL2
  split
  · exact memoryWork_setL2 ..
  · exact .refl s

theorem memoryWork_idleEntry (s : State) (line key : Nat) : MemoryWork s (s.idleEntry line key) := .ite (.refl s) (memoryWork_setEntry ..)

theorem memoryWork_restEntry (s : State) (line key : Nat) : MemoryWork s (s.restEntry line key) :=
  .ite (memoryWork_freeEntry ..) (memoryWork_setEntry ..)

theorem memoryWork_modLine (s : State) (n : Nat) (f : LineMeta → LineMeta) : MemoryWork s (s.modLine n f) := by
  rw [MemoryWork, modLine_eq]

theorem memoryWork_l3Fill (s : State) (line key : Nat) : MemoryWork s (s.l3Fill line key) := by
  rw [MemoryWork, l3Fill_eq]

theorem memoryWork_poison (s : State) (line key : Nat) (pieces : BitVec 16) (src : BitVec 2) :
    MemoryWork s (s.poison line key pieces src) :=
  .ite ((memoryWork_l3Fill ..).trans (memoryWork_modL3 ..)) (memoryWork_modLine ..)

theorem memoryWork_modHomeClocks (s : State) (line key : Nat) (f : Vector Clocks 4 → Vector Clocks 4) :
    MemoryWork s (s.modHomeClocks line key f) :=
  .ite ((memoryWork_l3Fill ..).trans (memoryWork_modL3 ..)) rfl

theorem memoryWork_homeData (s : State) (line key : Nat) : MemoryWork s (s.homeData line key) := .ite (memoryWork_l3Fill ..) (.refl s)

theorem memoryWork_writeLine (s : State) (line key : Nat) (put : BitVec 1024 → BitVec 1024) (whole : BitVec 16) :
    MemoryWork s (s.writeLine line key put whole) := (memoryWork_l3Fill ..).trans rfl

theorem memoryWork_physWrite (s : State) (key pa : Nat) (bs : List Byte) : MemoryWork s (s.physWrite key pa bs) :=
  .foldl (fun _ _ => memoryWork_writeLine ..) _ s

theorem memoryWork_writeMasked (s : State) (line key : Nat) (d : BitVec 1024) (m : BitVec 128) (whole : BitVec 16) :
    MemoryWork s (s.writeMasked line key d m whole) := by
  rw [MemoryWork, writeMasked_eq]

/-! ### The L1s give up bytes -/

theorem memoryWork_collectL1 (s : State) (cl line key : Nat) (allow : BitVec 128) : MemoryWork s (s.collectL1 cl line key allow) := by
  unfold State.collectL1
  split
  · exact .refl s
  · exact .ite (.refl s) ((memoryWork_writeMasked ..).trans rfl)

theorem memoryWork_collectDie (s : State) (d line key : Nat) : MemoryWork s (s.collectDie d line key) := by
  unfold State.collectDie
  extract_lets x some_ u
  have hu : MemoryWork s u := .foldl (fun _ _ => memoryWork_collectL1 ..) _ s
  exact .ite (hu.trans (memoryWork_setL2 ..)) hu

theorem memoryWork_dropForRecord (s : State) (d line key : Nat) : MemoryWork s (s.dropForRecord d line key) := .ite rfl (.refl s)

theorem memoryWork_downgrade (s : State) (line key d : Nat) (st : L2State) : MemoryWork s (s.downgrade line key d st) :=
  (memoryWork_setL2st ..).trans (memoryWork_dropForRecord ..)

theorem memoryWork_giveUp (s : State) (line key d : Nat) : MemoryWork s (s.giveUp line key d) :=
  have hcollected := memoryWork_collectDie s d line key
  ((MemoryWork.ite (hcollected.trans (memoryWork_modHomeClocks ..)) hcollected).trans (memoryWork_setL2st ..)).trans
    (memoryWork_dropForRecord ..)

/-! ### What a home does -/

theorem memoryWork_recallCopies (s : State) (line key : Nat) : MemoryWork s (s.recallCopies line key) :=
  .foldl (fun _ _ => memoryWork_giveUp ..) _ s

theorem memoryWork_settle (s : State) (line key : Nat) : MemoryWork s (s.settle line key) := by
  have hcleared (ds : List Nat) (u : State) : MemoryWork u (ds.foldl (fun s d => s.setL2st d line key .i) u) :=
    .foldl (fun _ _ => memoryWork_setL2st ..) _ u
  unfold State.settle
  extract_lets e dead lost owned priv cleared merged poisoned gone late
  have hmerged : MemoryWork s merged := (hcleared dead s).trans (.ite (hcleared _ _) (.ite (memoryWork_recallCopies ..) (.refl _)))
  have hpoisoned : MemoryWork s poisoned :=
    hmerged.trans (.ite (memoryWork_poison ..) (.ite (memoryWork_poison ..) (.refl _)))
  refine .ite (.refl s) ?_
  split
  · exact hpoisoned.trans (.ite (memoryWork_setEntry ..) (memoryWork_setEntry ..))
  · exact hpoisoned.trans (.ite (memoryWork_idleEntry ..) (memoryWork_setEntry ..))

theorem memoryWork_directoryError (s : State) (line key : Nat) : MemoryWork s (s.directoryError line key) :=
  have hrecalled := (memoryWork_settle s line key).trans (memoryWork_recallCopies _ line key)
  (MemoryWork.ite hrecalled (hrecalled.trans (memoryWork_poison ..))).trans (memoryWork_setEntry ..)

theorem memoryWork_readEntry (s : State) (line key : Nat) : MemoryWork s (s.readEntry line key) :=
  .ite (memoryWork_directoryError ..) (.refl s)

theorem memoryWork_privatise (s : State) (line key : Nat) (ms : List (Nat × BitVec 128)) : MemoryWork s (s.privatise line key ms) :=
  (MemoryWork.foldl (fun _ _ => memoryWork_setL2 ..) _ s).trans (memoryWork_setEntry ..)

theorem memoryWork_grantS (s : State) (line key d : Nat) : MemoryWork s (s.grantS line key d) := by
  unfold State.grantS
  extract_lets merged e bit
  have hmerged : MemoryWork s merged := .ite ((memoryWork_recallCopies ..).trans (memoryWork_idleEntry ..)) (.refl s)
  have hentered (u : State) (st : L2State) (x : DirEntry) : MemoryWork u ((u.setL2st d line key st).setEntry x) :=
    (memoryWork_setL2st ..).trans (memoryWork_setEntry ..)
  refine hmerged.trans ?_
  split
  · next o _ =>
    have hcollected := memoryWork_collectDie merged o line key
    refine .ite (.refl _) (hcollected.trans ?_)
    dsimp only
    split
    · exact (memoryWork_downgrade ..).trans (hentered ..)
    · exact (memoryWork_downgrade ..).trans (hentered ..)
    · exact hentered ..
  · exact (memoryWork_homeData ..).trans (.ite (hentered ..) (hentered ..))

theorem memoryWork_grantM (s : State) (line key d : Nat) (mask : BitVec 128) : MemoryWork s (s.grantM line key d mask) := by
  unfold State.grantM
  extract_lets e from_ moves given filled alone ms
  have hfilled : MemoryWork s filled := (MemoryWork.foldl (fun _ _ => memoryWork_giveUp ..) _ s).trans (memoryWork_homeData ..)
  have halone : MemoryWork s alone := (hfilled.trans (memoryWork_setL2st ..)).trans (memoryWork_setEntry ..)
  exact .ite (.ite (((hfilled.trans (memoryWork_recallCopies ..)).trans (memoryWork_setEntry ..)).trans (memoryWork_privatise ..)) halone) halone

theorem memoryWork_grant (s : State) (line key : Nat) (r : Nat × Bool) : MemoryWork s (s.grant line key r) :=
  .ite (.refl s) (.ite (.ite (.refl s) (memoryWork_grantM ..)) (.ite (memoryWork_grantS ..) (.refl s)))

theorem memoryWork_finishHeld (s : State) (line key : Nat) : MemoryWork s (s.finishHeld line key) := by
  unfold State.finishHeld
  dsimp only
  split
  · exact .refl s
  · exact (memoryWork_restEntry ..).trans (.foldl (fun _ _ => memoryWork_grant ..) _ _)

theorem memoryWork_touch (s : State) (line key : Nat) : MemoryWork s (s.touch line key) :=
  ((memoryWork_readEntry ..).trans (memoryWork_settle ..)).trans (memoryWork_finishHeld ..)

theorem memoryWork_recallLine (s : State) (line key : Nat) : MemoryWork s (s.recallLine line key) :=
  ((memoryWork_touch ..).trans (memoryWork_recallCopies ..)).trans (memoryWork_idleEntry ..)

theorem memoryWork_allocEntry (s : State) (line key : Nat) : MemoryWork s (s.allocEntry line key) := by
  unfold State.allocEntry
  dsimp only
  refine .ite (.refl s) (.ite (.refl s) ?_)
  split
  · exact (memoryWork_recallLine ..).trans (memoryWork_freeEntry ..)
  · exact (memoryWork_recallLine ..).trans (memoryWork_freeEntry ..)
  · exact .refl s

/-! ### Releases and writes -/

theorem memoryWork_maskRequest (s : State) (line key d : Nat) (mask : BitVec 128) : MemoryWork s (s.maskRequest line key d mask) :=
  (memoryWork_touch s line key).trans
    (.ite ((MemoryWork.foldl (fun _ _ => memoryWork_setL2 ..) _ _).trans (memoryWork_setL2 ..)) (memoryWork_grantM ..))

theorem memoryWork_getModified (s : State) (line key d : Nat) (mask : BitVec 128) : MemoryWork s (s.getModified line key d mask) := by
  unfold State.getModified
  dsimp only
  split
  · exact memoryWork_useL2 ..
  · exact memoryWork_setL2 ..
  · exact .ite (memoryWork_useL2 ..) (memoryWork_maskRequest ..)
  · exact ((memoryWork_touch ..).trans (memoryWork_allocEntry ..)).trans (memoryWork_grantM ..)

theorem memoryWork_writeBack (s : State) (cl line key : Nat) : MemoryWork s (s.writeBack cl line key) := by
  unfold State.writeBack
  split
  · exact .refl s
  · exact .ite (.refl s) ((memoryWork_getModified ..).trans (memoryWork_collectL1 ..))

theorem memoryWork_releaseCluster (s : State) (cl : Nat) : MemoryWork s (s.releaseCluster cl) :=
  .foldl (fun _ _ => memoryWork_writeBack ..) _ s

theorem memoryWork_virtWrite (s : State) (p va : Nat) (bs : List Byte) : MemoryWork s (s.virtWrite p va bs) := by
  refine .foldl (fun u x => ?_) _ s
  split
  · exact (memoryWork_recallLine ..).trans (.ite (memoryWork_physWrite ..) (memoryWork_writeMasked ..))
  · exact .refl u

end Sys2Proof.Proofs.MemoryFrame
end

section
/-! PROOFS. What ends chunks, gangs and blocks keeps every launch, but for the counts of those that a block of it completes: so a
launch that is ended early keeps its status, and has no saved block left (R294, R327, R382). -/

namespace Sys2Proof.Proofs.LaunchEnd
open Sys2Proof.Machine Sys2Proof.Safety Sys2Proof.Laws Sys2Proof.Proofs.MemoryFrame

/-! ### The recorder and the replay keep the launches -/

theorem ringPut_launches (s : State) (p : Nat) (bs : List Byte) : (s.ringPut p bs).launches = s.launches :=
  (memoryWork_physWrite s 0 _ bs).launches

theorem ringRoll_launches (s : State) (p n fuel : Nat) : (s.ringRoll p n fuel).launches = s.launches := by
  induction fuel generalizing s with
  | zero => rfl
  | succ fuel ih =>
    rw [State.ringRoll]
    dsimp only
    split
    · rfl
    · exact (ih _).trans rfl

theorem ite_launches {c : Prop} [Decidable c] {s t u : State} (ht : t.launches = s.launches) (hu : u.launches = s.launches) :
    (if c then t else u).launches = s.launches := by
  split
  · exact ht
  · exact hu

theorem modPart_launches (s : State) (p : Nat) (f : Partition → Partition) : (s.modPart p f).launches = s.launches := rfl

theorem putFrame_launches {s t : State} {p src : Nat} {body : List Byte} (h : s.putFrame p src body = some t) :
    t.launches = s.launches := by
  unfold State.putFrame at h
  extract_lets P f n at_ pad rolled P' put seq at h
  have hrolled : rolled.launches = s.launches := ite_launches (ringRoll_launches s p (pad + n) 65536) (Eq.refl s.launches)
  have hput : put.launches = s.launches := ite_launches hrolled ((ringPut_launches ..).trans hrolled)
  split at h
  · cases h
  · rw [← Option.some.inj h, modPart_launches, ringPut_launches, hput]

/-- `State.flushKept` for any way to put a frame: the induction below needs none of a frame's layout. -/
def flushWith (put : State → Nat → Nat → List Byte → Option State) (s : State) (p src : Nat) : List (List Byte) → State
  | [] => s
  | body :: t => match put s p src body with
    | some s => flushWith put (s.modPart p fun P => P.setFrame { P.frame src with src := src, kept := t }) p src t
    | none => s

theorem flushWith_launches {put : State → Nat → Nat → List Byte → Option State}
    (hput : ∀ {s : State} {p src : Nat} {body : List Byte} {t : State}, put s p src body = some t → t.launches = s.launches) (s : State) (p src : Nat)
    (bodies : List (List Byte)) : (flushWith put s p src bodies).launches = s.launches := by
  induction bodies generalizing s with
  | nil => rfl
  | cons body rest ih =>
    rw [flushWith]
    split
    · next t ht =>
      have ht' : t.launches = s.launches := hput ht
      exact (ih _).trans ht'
    · rfl

theorem flushKept_eq_flushWith (s : State) (p src : Nat) (bodies : List (List Byte)) :
    s.flushKept p src bodies = flushWith State.putFrame s p src bodies := by
  delta State.flushKept flushWith
  rfl

theorem flushKept_launches (s : State) (p src : Nat) (bodies : List (List Byte)) :
    (s.flushKept p src bodies).launches = s.launches := by
  rw [flushKept_eq_flushWith]
  exact flushWith_launches putFrame_launches s p src bodies

theorem closeFrame_launches (s : State) (p src : Nat) : (s.closeFrame p src).launches = s.launches := by
  unfold State.closeFrame
  extract_lets f f'
  exact ite_launches rfl (flushKept_launches ..)

theorem logRecord_launches (s : State) (p src : Nat) (bs : List Byte) : (s.logRecord p src bs).launches = s.launches := by
  unfold State.logRecord
  extract_lets opened filled
  have hopened : opened.launches = s.launches := ite_launches (closeFrame_launches ..) rfl
  exact ite_launches rfl (ite_launches hopened ((closeFrame_launches ..).trans hopened))

theorem diverge_launches (s : State) (p kind lin gang cseq offset logged found : Nat) :
    (s.diverge p kind lin gang cseq offset logged found).launches = s.launches := by
  unfold State.diverge
  split <;> rfl

theorem divergeGang_launches (s : State) (u g kind logged found : Nat) :
    (s.divergeGang u g kind logged found).launches = s.launches := by
  unfold State.divergeGang
  split
  · exact diverge_launches ..
  · rfl

theorem checkChunk_launches (s : State) (u g : Nat) (c : ChunkState) (x : LogChunk) : (s.checkChunk u g c x).launches = s.launches := by
  unfold State.checkChunk
  refine ite_launches (divergeGang_launches ..) (ite_launches (divergeGang_launches ..)
    (ite_launches (divergeGang_launches ..) ?_))
  split
  · exact ite_launches (divergeGang_launches ..) rfl
  · rfl

theorem endReplayed_launches (s : State) (u g : Nat) : (s.endReplayed u g).launches = s.launches := by
  have hchecked (c : ChunkState) (x : LogChunk) (p : Nat) (i : Nat × Bool) :
      ((s.checkChunk u g c x).logDone p i).launches = s.launches := checkChunk_launches ..
  unfold State.endReplayed
  split
  · dsimp only
    split
    · rfl
    · split
      · exact ite_launches ((divergeGang_launches ..).trans (hchecked ..)) (hchecked ..)
      · exact ite_launches ((divergeGang_launches ..).trans (hchecked ..)) (hchecked ..)
  · rfl

theorem logChunk_launches (s : State) (L : Launch) (b : Block) (g : Nat) (c : ChunkState) (reason : Nat) :
    (s.logChunk L b g c reason).launches = s.launches := logRecord_launches ..

theorem writeChunk_launches (s : State) (u g reason : Nat) : (s.writeChunk u g reason).launches = s.launches := by
  unfold State.writeChunk
  split
  · exact logChunk_launches ..
  · rfl

/-- The last chunk of a gang ends. -/
theorem endChunk_launches (s : State) (u g reason : Nat) (deps : List (BitVec 32 × Nat)) :
    (s.endChunk u g reason none deps).launches = s.launches := by
  unfold State.endChunk
  split
  · split
    · exact endReplayed_launches ..
    · exact writeChunk_launches ..
  · rfl

theorem retireGang_launches (s : State) (u g : Nat) : (s.retireGang u g).launches = s.launches := by
  unfold State.retireGang
  split
  · rfl
  · split
    · rfl
    · exact endChunk_launches ..

/-! ### One launch -/

theorem launch?_of_launches {s t : State} (h : t.launches = s.launches) (a : Nat) : t.launch? a = s.launch? a := by
  unfold State.launch?
  rw [h]

theorem launch_id {s : State} {a : Nat} {L : Launch} (h : s.launch? a = some L) : L.id = a := by
  simpa using List.find?_some h

/-- A launch after a change of launches. -/
theorem launch?_modLaunch (s : State) (a x : Nat) {f : Launch → Launch} (hf : ∀ L, (f L).id = L.id) :
    (s.modLaunch x f).launch? a = (s.launch? a).map fun L => if L.id = x then f L else L := by
  have hid (L : Launch) : (if L.id = x then f L else L).id = L.id := by
    split
    · exact hf L
    · rfl
  unfold State.launch? State.modLaunch
  rw [List.find?_map]
  simp only [Function.comp_def, hid]

theorem launch?_modLaunch_same {s : State} {a : Nat} {f : Launch → Launch} {L : Launch} (hf : ∀ L, (f L).id = L.id)
    (h : s.launch? a = some L) : (s.modLaunch a f).launch? a = some (f L) := by
  rw [launch?_modLaunch s a a hf, h, Option.map_some, if_pos (launch_id h)]

theorem noteFaults_kept (L : Launch) (b : Block) :
    L.noteFaults b = { L with spcount := (L.noteFaults b).spcount, spfaults := (L.noteFaults b).spfaults } := by
  unfold Launch.noteFaults
  dsimp only
  split <;> rfl

/-- The launch has a status, and no saved block. -/
def Over (a status : Nat) (s : State) : Prop := ∃ L, s.launch? a = some L ∧ L.status = status ∧ L.saved = []

section Over
variable {s t : State} {a status : Nat}

theorem Over.congr (h : Over a status s) (hl : t.launches = s.launches) : Over a status t := by
  rwa [Over, launch?_of_launches hl]

theorem Over.modLaunch (h : Over a status s) (x : Nat) {f : Launch → Launch} (hid : ∀ L, (f L).id = L.id)
    (hstatus : ∀ L, (f L).status = L.status) (hsaved : ∀ L, L.saved = [] → (f L).saved = []) : Over a status (s.modLaunch x f) := by
  obtain ⟨L, hL, hst, hsv⟩ := h
  refine ⟨_, (launch?_modLaunch s a x hid).trans (congrArg _ hL), ?_⟩
  dsimp only
  split
  · exact ⟨(hstatus L).trans hst, hsaved L hsv⟩
  · exact ⟨hst, hsv⟩

theorem Over.checkBlock (h : Over a status s) (u : Nat) : Over a status (s.checkBlock u) := by
  unfold State.checkBlock
  split
  · exact h
  · split
    · next b _ _ =>
      refine Over.congr (h.modLaunch b.launch (fun L => ?_) (fun L => ?_) fun L hL => ?_) rfl
      · dsimp only
        rw [noteFaults_kept]
      · dsimp only
        rw [noteFaults_kept]
      · dsimp only
        rw [noteFaults_kept, hL]
    · exact h

end Over

/-- The saved blocks of a launch give up their chunks. -/
theorem launch?_writeSaved {s : State} {a : Nat} {L : Launch} (h : s.launch? a = some L) (reason : Nat) :
    ∃ saved, (s.writeSaved L reason).launch? a = some { L with saved := saved } := by
  have hgangs (x : Block × Nat × Nat) (u : State) : (x.1.gangs.foldl (fun s G => match G.chunk with
      | some c => if (s.part L.part).replaying then s else s.logChunk L x.1 G.idx c reason
      | none => s) u).launches = u.launches := by
    refine foldl_keeps (fun t : State => t.launches = u.launches) _ (fun t G ht => ?_) _ u rfl
    split
    · split
      · exact ht
      · exact (logChunk_launches ..).trans ht
    · exact ht
  have hlogged : (L.saved.foldl (fun s x => x.1.gangs.foldl (fun s G => match G.chunk with
      | some c => if (s.part L.part).replaying then s else s.logChunk L x.1 G.idx c reason
      | none => s) s) s).launches = s.launches :=
    foldl_keeps (fun t : State => t.launches = s.launches) _ (fun t x ht => (hgangs x t).trans ht) _ s rfl
  obtain rfl := launch_id h
  exact ⟨_, launch?_modLaunch_same (fun _ => rfl) ((launch?_of_launches hlogged _).trans h)⟩

/-- A launch that ends early takes its status, unless it has one, and has no saved block left. -/
theorem endLaunch_over {s : State} {a : Nat} {L : Launch} (h : s.launch? a = some L) (status : Nat) :
    Over a (if L.status = 0 then status else L.status) (s.endLaunch a status) := by
  obtain ⟨saved, hsaved⟩ := launch?_writeSaved h 2
  have hnoted (xs : List (Block × Nat × Nat)) (M : Launch) :
      (xs.foldl (fun M x => M.noteFaults x.1) M).id = M.id :=
    foldl_keeps (fun N : Launch => N.id = M.id) _ (fun N x hN => by rw [noteFaults_kept]; exact hN) _ M rfl
  generalize hst : (if L.status = 0 then status else L.status) = st
  unfold State.endLaunch
  rw [h]
  dsimp only
  refine foldl_keeps (Over a st) _ (fun t b ht => ?_) _ _
    ⟨_, launch?_modLaunch_same (fun M => hnoted M.saved M) hsaved, hst, rfl⟩
  refine Over.checkBlock (foldl_keeps (Over a st) _ (fun v G hv => ?_) _ (t.modBlock b.uid _) (ht.congr rfl)) b.uid
  split
  · exact hv.congr rfl
  · exact hv.congr (retireGang_launches (v.modGang b.uid G.idx Gang.terminated) ..)

end Sys2Proof.Proofs.LaunchEnd
end

section
/-! PROOFS. What the events of blocks do: a block comes to a core, stalls, is saved, and its long runs are cut (R20, R24, R39,
R69, R294, R335, R336, R341). -/

namespace Sys2Proof.Proofs.Blocks
open Sys2Proof.Machine Sys2Proof.Safety Sys2Proof.Laws Sys2Proof.Proofs.Reset Sys2Proof.Proofs.Issue Sys2Proof.Proofs.MemoryFrame
  Sys2Proof.Proofs.LaunchEnd

section Lists
variable {s : State} {u : Nat} {b : Block}

theorem block_uid (h : s.block? u = some b) : b.uid = u := by simpa using List.find?_some h

theorem block?_of_blocks {t : State} (h : t.blocks = s.blocks) (u : Nat) : t.block? u = s.block? u := by
  unfold State.block?
  rw [h]

/-- A block that is appended, with a number that none before it has. -/
theorem block?_append_same {t : State} (ht : t.blocks = s.blocks ++ [b]) (hnew : ∀ x ∈ s.blocks, x.uid ≠ b.uid) :
    t.block? b.uid = some b := by
  have hnone : s.blocks.find? (fun x => decide (x.uid = b.uid)) = none := by
    simpa using hnew
  rw [State.block?, ht, List.find?_append, hnone]
  simp

theorem block?_append_other {t : State} (ht : t.blocks = s.blocks ++ [b]) (hu : u ≠ b.uid) : t.block? u = s.block? u := by
  rw [State.block?, ht, List.find?_append]
  simp [hu.symm, State.block?]

end Lists

/-! ### The quadrants of a launch that is traced (R323) -/

/-- The quadrants' counters and the quadrants that trace a launch alone differ. -/
def Traced (a : Nat) (s t : State) : Prop := t = { s with quads := t.quads, launches := t.launches } ∧
  ∀ L, s.launch? a = some L → ∃ qs, t.launch? a = some { L with traceQuads := qs }

theorem Traced.modLaunch {a : Nat} {s t : State} (h : Traced a s t) {f : Launch → Launch}
    (hf : ∀ L, ∃ qs, f L = { L with traceQuads := qs }) : Traced a s (t.modLaunch a f) := by
  obtain ⟨heq, hlaunch⟩ := h
  refine ⟨by rw [heq]; rfl, fun L hL => ?_⟩
  obtain ⟨qs, hqs⟩ := hlaunch L hL
  obtain ⟨qs', hqs'⟩ := hf { L with traceQuads := qs }
  have hid (M : Launch) : (f M).id = M.id := by
    obtain ⟨_, hM⟩ := hf M
    rw [hM]
  exact ⟨qs', (launch?_modLaunch_same hid hqs).trans (congrArg some hqs')⟩

theorem traced_noteQuads (s : State) (a core : Nat) : Traced a s (s.noteQuads a core) := by
  have hs : Traced a s s := ⟨rfl, fun L hL => ⟨L.traceQuads, hL⟩⟩
  unfold State.noteQuads
  split
  · exact hs
  · refine foldl_keeps (Traced a s) _ (fun t q ht => ?_) _ s hs
    refine Traced.modLaunch ?_ fun L => ?_
    · split
      · exact ht
      · exact ⟨by rw [ht.1], ht.2⟩
    · dsimp only
      split
      · exact ⟨L.traceQuads, rfl⟩
      · exact ⟨_, rfl⟩

/-! ### A block comes to a core -/

section Place
variable {s : State} {a core : Nat} {L : Launch}

theorem exec_placeBlock (hL : s.launch? a = some L) (hplace : s.nextPlacement L.part = some (a, core)) :
    exec (.placeBlock a core) s = match L.nextBlock with
      | some (.fresh lin) => .next ((s.startBlock L lin core).noteQuads a core)
      | some (.saved x) => .next ((s.resumeBlock L x core).noteQuads a core)
      | none => .next s := by
  change execPlaceBlock a core s = _
  rw [execPlaceBlock, hL]
  exact if_neg (not_not.2 hplace)

theorem startBlock_eq (hnumber : L.number = none) (lin : Nat) : s.startBlock L lin core =
    (({ s with
        blocks := s.blocks ++ [Block.start L s.nextId lin (s.freeRecNo L.part % 2 ^ 20) core s.nextId none]
        nextId := s.nextId + 1 } : State).modPart L.part fun P => { P with recNext := (s.freeRecNo L.part + 1) % 2 ^ 20 }).modLaunch
      L.id fun L => { L with next := lin + 1, vcBusy := if L.r.det then vcoreOf lin :: L.vcBusy else L.vcBusy } := by
  rw [State.startBlock, State.firstChunks, hnumber]
  rfl

theorem start_sreg (lin i k : Nat) : (Gang.start L lin i none).sreg k =
    if k = 1 then L.r.stackBase + BitVec.ofNat 72 ((lin * L.r.gangs + i) * 32 * L.r.stackStride) else 0 := by
  unfold Gang.sreg Gang.start
  rw [vget_vset, vget_replicate]
  simp [eq_comm]

theorem start_lane (lin i : Nat) {l : Nat} (hl : l < 32) : ∃ seq, (Gang.start L lin i none).lane l = Lane.start L l seq := by
  exact ⟨_, by simp [Gang.lane, Gang.start, vget, hl]; rfl⟩

theorem start_reg (l seq r : Nat) : (Lane.start L l seq).reg r = if r = 104 then BitVec.ofNat 32 ((l + 1) * L.r.stackStride) else 0 := by
  unfold Lane.reg Lane.start
  rw [vget_vset, vget_replicate]
  simp [eq_comm]

theorem placeBlock_fresh (hL : s.launch? a = some L) (hnumber : L.number = none) (hplace : s.nextPlacement L.part = some (a, core))
    {lin : Nat} (hnext : L.nextBlock = some (.fresh lin)) (hids : ∀ x ∈ s.blocks, x.uid < s.nextId) :
    ∃ t, exec (.placeBlock a core) s = .next t ∧
      t.block? s.nextId = some (Block.start L s.nextId lin (s.freeRecNo L.part % 2 ^ 20) core s.nextId none) ∧ t.mem = s.mem ∧
      (∀ v ≠ s.nextId, t.block? v = s.block? v) ∧ ∃ L', t.launch? a = some L' ∧ L'.next = lin + 1 := by
  obtain ⟨hframe, hlaunch⟩ := traced_noteQuads (s.startBlock L lin core) a core
  have hblocks : ((s.startBlock L lin core).noteQuads a core).blocks =
      s.blocks ++ [Block.start L s.nextId lin (s.freeRecNo L.part % 2 ^ 20) core s.nextId none] := by
    rw [hframe, startBlock_eq hnumber]
    rfl
  obtain rfl := launch_id hL
  have hstarted := launch?_modLaunch_same
    (f := fun L => { L with next := lin + 1, vcBusy := if L.r.det then vcoreOf lin :: L.vcBusy else L.vcBusy }) (fun _ => rfl) hL
  obtain ⟨qs, hqs⟩ := hlaunch _ ((congrArg (State.launch? · L.id) (startBlock_eq hnumber lin)).trans hstarted)
  refine ⟨_, (exec_placeBlock hL hplace).trans (by rw [hnext]), ?_, ?_, ?_, _, hqs, rfl⟩
  · exact block?_append_same hblocks fun x hx => (hids x hx).ne
  · rw [hframe, startBlock_eq hnumber]
    rfl
  · exact fun v hv => block?_append_other hblocks hv

theorem resumeBlock_of_match {x : Block × Nat × Nat} {bs : List Byte}
    (hread : s.virtRead L.part (s.savedAt L x.2.1) x.2.2 ⟨true, false, false⟩ = (s, .ok bs))
    (h : recordMismatch (s.part L.part).engine bs = false) :
    (s.resumeBlock L x core).blocks = s.blocks ++ [x.1.restore bs core s.nextId] ∧ (s.resumeBlock L x core).mem = s.mem := by
  unfold State.resumeBlock
  rw [hread]
  dsimp only
  rw [h, if_neg Bool.false_ne_true]
  split
  · exact ⟨rfl, rfl⟩
  · exact ⟨rfl, rfl⟩

theorem resumeBlock_of_mismatch {x : Block × Nat × Nat} {bs : List Byte}
    (hread : s.virtRead L.part (s.savedAt L x.2.1) x.2.2 ⟨true, false, false⟩ = (s, .ok bs))
    (h : recordMismatch (s.part L.part).engine bs = true) : s.resumeBlock L x core = s.endLaunch L.id 6 := by
  unfold State.resumeBlock
  rw [hread]
  exact if_pos h

theorem placeBlock_saved (hL : s.launch? a = some L) (hplace : s.nextPlacement L.part = some (a, core)) {x : Block × Nat × Nat}
    {bs : List Byte} (hnext : L.nextBlock = some (.saved x))
    (hread : s.virtRead L.part (s.savedAt L x.2.1) x.2.2 ⟨true, false, false⟩ = (s, .ok bs)) :
    ∃ t, exec (.placeBlock a core) s = .next t ∧
      if recordMismatch (s.part L.part).engine bs then Over a (if L.status = 0 then 6 else L.status) t
      else t.blocks = s.blocks ++ [x.1.restore bs core s.nextId] ∧ t.mem = s.mem := by
  obtain ⟨hframe, hlaunch⟩ := traced_noteQuads (s.resumeBlock L x core) a core
  refine ⟨_, (exec_placeBlock hL hplace).trans (by rw [hnext]), ?_⟩
  cases hmatch : recordMismatch (s.part L.part).engine bs with
  | true =>
    rw [if_pos rfl]
    have hended := resumeBlock_of_mismatch (core := core) hread hmatch
    rw [launch_id hL] at hended
    obtain ⟨L', hL', hstatus, hsaved⟩ := endLaunch_over hL 6
    obtain ⟨qs, hqs⟩ := hlaunch L' (hended ▸ hL')
    exact ⟨_, hqs, hstatus, hsaved⟩
  | false =>
    rw [if_neg Bool.false_ne_true]
    obtain ⟨hblocks, hmem⟩ := resumeBlock_of_match (core := core) hread hmatch
    rw [hframe]
    exact ⟨hblocks, hmem⟩

end Place

/-! ### A block stalls (R39) -/

section Stall
variable {s t : State} {u : Nat} {b : Block}

/-- A gang of a stalled block ends and drains. -/
def stallGang (u : Nat) (s : State) (g : Nat) : State :=
  ((s.modGang u g Gang.terminated).retireGang u g).modGang u g fun G => { G with drained := true }

theorem endChunk_of_none {g : Nat} {G : Gang} (hG : s.gang? u g = some G) (hchunk : G.chunk = none) (reason : Nat) (next : Option Nat)
    (deps : List (BitVec 32 × Nat)) : s.endChunk u g reason next deps = s := by
  unfold State.endChunk
  rw [hG, Option.bind_some, hchunk]
  cases s.block? u <;> cases s.launchOf u <;> rfl

theorem retireGang_eq_modGang {g : Nat} {G : Gang} (hG : s.gang? u g = some G) (hchunk : G.chunk = none) :
    ∃ F : Gang → Gang, s.retireGang u g = s.modGang u g F ∧ ∀ G, (F G).chunk = G.chunk := by
  unfold State.retireGang
  rw [hG]
  dsimp only
  split
  · exact ⟨id, (modGang_id s u g id fun _ => rfl).symm, fun _ => rfl⟩
  · rw [endChunk_of_none hG hchunk]
    exact ⟨_, rfl, fun _ => rfl⟩

theorem stallGang_eq_modGang {g : Nat} {G : Gang} (hG : s.gang? u g = some G) (hchunk : G.chunk = none) :
    ∃ F : Gang → Gang, stallGang u s g = s.modGang u g F ∧ ∀ G, (F G).chunk = G.chunk ∧ (F G).drained = true := by
  have hG' : (s.modGang u g Gang.terminated).gang? u g = some G.terminated := by rw [gang?_modGang, hG, Option.map_some]
  obtain ⟨F, hF, hkeep⟩ := retireGang_eq_modGang hG' hchunk
  refine ⟨fun G => { F G.terminated with drained := true }, ?_, fun G => ⟨hkeep G.terminated, rfl⟩⟩
  rw [stallGang, hF, modGang_modGang, modGang_modGang]

/-- The first gangs of a block have drained, and nothing but the block's gangs has changed. -/
def Drained (b : Block) (n : Nat) (s t : State) : Prop := t = { s with blocks := t.blocks } ∧
  ∃ gs : List Gang, t.block? b.uid = some { b with gangs := gs } ∧ gs.length = b.gangs.length ∧
    ∀ i G, gs[i]? = some G → G.chunk = none ∧ (i < n → G.drained = true)

theorem Drained.step {n : Nat} (h : Drained b n s t) (hn : n < b.gangs.length) : Drained b (n + 1) s (stallGang b.uid t n) := by
  obtain ⟨hframe, gs, hb, hlen, hgs⟩ := h
  obtain ⟨G, hG⟩ : ∃ G, gs[n]? = some G := ⟨_, List.getElem?_eq_getElem (hlen.symm ▸ hn)⟩
  have hgang : t.gang? b.uid n = some G := by rw [State.gang?, hb]; exact hG
  obtain ⟨F, hF, hkeep⟩ := stallGang_eq_modGang hgang (hgs n G hG).1
  rw [hF]
  refine ⟨by rw [hframe]; rfl, gs.modify n F, ?_, ?_, fun i G' hG' => ?_⟩
  · rw [block?_modGang, hb]
    rfl
  · rw [List.length_modify, hlen]
  · rw [List.getElem?_modify] at hG'
    obtain ⟨H, hH, rfl⟩ := Option.map_eq_some_iff.1 hG'
    obtain ⟨hchunk, hdrained⟩ := hgs i H hH
    split
    · exact ⟨(hkeep H).1.trans hchunk, fun _ => (hkeep H).2⟩
    · exact ⟨hchunk, fun hi => hdrained (by omega)⟩

theorem drained_gangs (hb : s.block? b.uid = some b) (hgangs : ∀ (i : Nat) (G : Gang), b.gangs[i]? = some G → G.chunk = none) :
    ∀ n ≤ b.gangs.length, Drained b n s ((List.range n).foldl (stallGang b.uid) s)
  | 0, _ => ⟨rfl, b.gangs, hb, rfl, fun i (G : Gang) hG => ⟨hgangs i G hG, (absurd · (Nat.not_lt_zero i))⟩⟩
  | n + 1, hn => by
    rw [List.range_succ, List.foldl_concat]
    exact (drained_gangs hb hgangs n (by omega)).step hn

theorem map_idx_eq_range {gs : List Gang} (h : ∀ i (G : Gang), gs[i]? = some G → G.idx = i) : gs.map (·.idx) = List.range gs.length := by
  refine List.ext_getElem (by simp) fun i hi _ => ?_
  rw [List.getElem_map, List.getElem_range]
  exact h i _ (List.getElem?_eq_getElem (by simpa using hi))

theorem exec_blockStall (hb : s.block? b.uid = some b) (hstalled : b.stalled = true)
    (hidx : ∀ i (G : Gang), b.gangs[i]? = some G → G.idx = i) : exec (.blockStall b.uid) s =
      .next (((List.range b.gangs.length).foldl (stallGang b.uid) (s.modLaunch b.launch fun L => { L with
        stalls := L.stalls + 1
        stall := L.stall.orElse fun _ => some b.stallRec
        fault := L.fault.orElse fun _ => some b.stallFault })).checkBlock b.uid) := by
  change execBlockStall b.uid s = _
  rw [execBlockStall, hb, ← map_idx_eq_range hidx, List.foldl_map]
  dsimp only
  rw [hstalled]
  rfl

theorem checkBlock_of_drained (h : Drained b b.gangs.length s t) (hjobs : b.jobs = []) :
    ∃ gs, t.checkBlock b.uid = t.completeBlock { b with gangs := gs } := by
  obtain ⟨-, gs, hb, hlen, hgs⟩ := h
  have hall : gs.all (·.drained) = true := List.all_eq_true.2 fun G hG => by
    obtain ⟨i, hi⟩ := List.getElem?_of_mem hG
    exact (hgs i G hi).2 (hlen ▸ (List.getElem?_eq_some_iff.1 hi).1)
  refine ⟨gs, ?_⟩
  rw [State.checkBlock, hb]
  exact if_pos (by simp [hall, hjobs])

theorem launch?_completeBlock {L : Launch} (h : s.launch? b.launch = some L) : ∃ L', (s.completeBlock b).launch? b.launch = some L' ∧
    L'.done = L.done + 1 ∧ L'.stalls = L.stalls ∧ L'.stall = L.stall ∧ L'.fault = L.fault := by
  have hid (M : Launch) : (M.noteFaults b).id = M.id := by rw [noteFaults_kept]
  refine ⟨_, launch?_modLaunch_same hid h, rfl, ?_, ?_, ?_⟩ <;> dsimp only <;> rw [noteFaults_kept]

theorem orElse_eq_getD {α : Type} (o : Option α) (x : α) : (o.orElse fun _ => some x) = some (o.getD x) := by
  cases o <;> rfl

theorem blockStall {L : Launch} (hb : s.block? b.uid = some b) (hstalled : b.stalled = true) (hL : s.launch? b.launch = some L)
    (hgangs : ∀ i (G : Gang), b.gangs[i]? = some G → G.idx = i ∧ G.chunk = none) :
    ∃ t L', exec (.blockStall b.uid) s = .next t ∧ (∀ x ∈ t.blocks, x.uid ≠ b.uid) ∧ t.mem = s.mem ∧
      t.launch? b.launch = some L' ∧ L'.stalls = L.stalls + 1 ∧ L'.done = L.done + 1 ∧ L'.stall = some (L.stall.getD b.stallRec) ∧
      L'.fault = some (L.fault.getD b.stallFault) := by
  have hjobs : b.jobs = [] := by
    unfold Block.stalled at hstalled
    simp only [Bool.and_eq_true, List.isEmpty_iff] at hstalled
    exact hstalled.1.1
  have hexec := exec_blockStall hb hstalled fun i G hG => (hgangs i G hG).1
  have hreported := launch?_modLaunch_same (f := fun L => { L with
    stalls := L.stalls + 1
    stall := L.stall.orElse fun _ => some b.stallRec
    fault := L.fault.orElse fun _ => some b.stallFault }) (fun _ => rfl) hL
  generalize hs : State.modLaunch s b.launch _ = s₁ at hexec hreported
  have hmem : s₁.mem = s.mem := by rw [← hs]; rfl
  have hdrained : Drained b b.gangs.length s₁ _ :=
    drained_gangs (by rw [← hs]; exact hb) (fun i G hG => (hgangs i G hG).2) _ le_rfl
  generalize List.foldl _ s₁ _ = t at hexec hdrained
  obtain ⟨gs, hdone⟩ := checkBlock_of_drained hdrained hjobs
  have hframe := hdrained.1
  obtain ⟨L', hL', hcount, hstalls, hstall, hfault⟩ := launch?_completeBlock (s := t) (b := { b with gangs := gs })
    ((launch?_of_launches (by rw [hframe]) _).trans hreported)
  refine ⟨_, L', hexec.trans (by rw [hdone]), fun x hx => ?_, ?_, hL', hstalls, hcount, ?_, ?_⟩
  · simpa using (List.mem_filter.1 hx).2
  · exact (congrArg State.mem hframe).trans hmem
  · exact hstall.trans (orElse_eq_getD ..)
  · exact hfault.trans (orElse_eq_getD ..)

end Stall

/-! ### A block is saved (R335) -/

section Save
variable {s : State} {u : Nat} {b : Block}

/-- Blocks that are asked to stop. -/
def asked (us : List Nat) (s : State) : State :=
  { s with blocks := s.blocks.map fun b => if b.uid ∈ us ∧ b.stop = none then { b with stop := some s.time } else b }

theorem exec_preemptionRequest (us : List Nat) (s : State) : exec (.preemptionRequest us) s =
    .next (us.foldl (fun s u => match s.block? u with
      | some b => if s.quiet b then s.saveBlock u (s.leavesForPriority b) else s
      | none => s) (asked us s)) := by
  have hasked : asked us s = { s with
      blocks := s.blocks.map fun b => if b.uid ∈ us ∧ b.stop.isNone then { b with stop := some s.time } else b } := by
    simp only [asked, Option.isNone_iff_eq_none]
  rw [hasked]
  rfl

theorem preemptionRequest_of_not_quiet {us : List Nat}
    (h : ∀ v ∈ us, ∀ x, (asked us s).block? v = some x → s.quiet x = false) : exec (.preemptionRequest us) s = .next (asked us s) := by
  rw [exec_preemptionRequest]
  refine congrArg _ (List.foldlRecOn (motive := fun t => t = asked us s) us _ rfl fun t ht v hv => ?_)
  rw [ht]
  split
  · next x hx => exact if_neg (by rw [show (asked us s).quiet x = s.quiet x from rfl, h v hv x hx]; exact Bool.false_ne_true)
  · rfl

theorem modify_eq_self {α : Type} {l : List α} {i : Nat} {x : α} {f : α → α} (hx : l[i]? = some x) (hf : f x = x) : l.modify i f = l := by
  refine List.ext_getElem? fun j => ?_
  rw [List.getElem?_modify]
  by_cases hj : i = j
  · subst hj
    simp [hx, hf]
  · simp [hj]

/-- A gang between runs, with no open region, needs nothing before it is saved. -/
theorem settleGang_keeps {g : Nat} {G : Gang} (hb : s.block? u = some b) (hG : b.gangs[g]? = some G) (hsheaf : G.sheaf = none)
    (hregion : G.inRegion = 0) : (s.settleGang u g).block? u = some b ∧ (s.settleGang u g).launches = s.launches := by
  have hgang : s.gang? u g = some G := by rw [State.gang?, hb]; exact hG
  have hnone : G.live &&& G.inRegion = 0 := by rw [hregion]; exact BitVec.and_zero
  unfold State.settleGang
  simp only [hgang, hnone, hsheaf, abortRegions_none]
  refine ⟨?_, rfl⟩
  rw [block?_modGang, hb, Option.map_some, Block.modGang, modify_eq_self hG (by rw [hsheaf])]

theorem mem_insertSorted {α : Type} (x : Nat × α) (l : List (Nat × α)) : x ∈ insertSorted x l := by
  rw [insertSorted_eq_orderedInsert, List.mem_orderedInsert]
  exact .inl rfl

theorem saveBlock_saved {L : Launch} {priority : Bool} {off : Nat} (hb : s.block? u = some b) (hparked : b.parked = false)
    (hL : s.launch? b.launch = some L)
    (hgangs : ∀ i (G : Gang), b.gangs[i]? = some G → G.idx = i ∧ G.sheaf = none ∧ G.inRegion = 0)
    (hplace : s.poolPlace L.part (b.layout L).size ((s.part L.part).poolSize - if priority then s.poolReserve L.part else 0) = some off)
    (hcheck : s.virtCheck L.part (((s.part L.part).poolBase + off) % 2 ^ 72) (b.layout L).size ⟨false, true, false⟩ = none) :
    (∀ x ∈ (s.saveBlock u priority).blocks, x.uid ≠ u) ∧ ∃ L', (s.saveBlock u priority).launch? b.launch = some L' ∧
      (b, off, (b.layout L).size) ∈ L'.saved := by
  have hsettled := List.foldlRecOn (motive := fun t : State => t.block? u = some b ∧ t.launches = s.launches) b.gangs
    (fun s G => s.settleGang u G.idx) ⟨hb, rfl⟩ fun t ht G hG => by
      obtain ⟨i, hi⟩ := List.getElem?_of_mem hG
      obtain ⟨hidx, hsheaf, hregion⟩ := hgangs i G hi
      obtain ⟨hblock, hlaunches⟩ := settleGang_keeps ht.1 (hidx ▸ hi) hsheaf hregion
      exact ⟨hblock, hlaunches.trans ht.2⟩
  have hLof : s.launchOf u = some L := by rw [State.launchOf, hb]; exact hL
  unfold State.saveBlock
  rw [hb, hLof]
  dsimp only
  rw [hparked, if_neg Bool.false_ne_true, hplace]
  dsimp only
  rw [hcheck]
  dsimp only
  generalize List.foldl _ s b.gangs = s₁ at hsettled ⊢
  obtain ⟨hb₁, hlaunches₁⟩ := hsettled
  have hreleased := memoryWork_releaseCluster s₁ (clusterOf b.core)
  generalize s₁.releaseCluster _ = s₂ at hreleased ⊢
  rw [block?_of_blocks hreleased.blocks, hb₁]
  dsimp only
  have hwritten := memoryWork_virtWrite s₂ L.part (((s.part L.part).poolBase + off) % 2 ^ 72)
    (b.record L (2 * s₂.tick) (s.part L.part).engine)
  generalize s₂.virtWrite _ _ _ = s₃ at hwritten ⊢
  refine ⟨fun x hx => by simpa using (List.mem_filter.1 hx).2, ?_⟩
  have hL₃ : s₃.launch? b.launch = some L :=
    (launch?_of_launches (hwritten.launches.trans (hreleased.launches.trans hlaunches₁)) _).trans hL
  rw [launch_id hL]
  exact ⟨_, launch?_modLaunch_same (fun _ => rfl) hL₃, List.mem_map.2 ⟨_, mem_insertSorted .., rfl⟩⟩

theorem preemptionRequest_saves {L : Launch} {off : Nat} (hb : (asked [u] s).block? u = some b) (hquiet : s.quiet b = true)
    (hparked : b.parked = false) (hL : s.launch? b.launch = some L)
    (hgangs : ∀ i (G : Gang), b.gangs[i]? = some G → G.idx = i ∧ G.sheaf = none ∧ G.inRegion = 0)
    (hplace : (asked [u] s).poolPlace L.part (b.layout L).size ((s.part L.part).poolSize -
      if (asked [u] s).leavesForPriority b then (asked [u] s).poolReserve L.part else 0) = some off)
    (hcheck : (asked [u] s).virtCheck L.part (((s.part L.part).poolBase + off) % 2 ^ 72) (b.layout L).size ⟨false, true, false⟩ =
      none) :
    ∃ t L', exec (.preemptionRequest [u]) s = .next t ∧ (∀ x ∈ t.blocks, x.uid ≠ u) ∧ t.launch? b.launch = some L' ∧
      (b, off, (b.layout L).size) ∈ L'.saved := by
  have hexec : exec (.preemptionRequest [u]) s = .next ((asked [u] s).saveBlock u ((asked [u] s).leavesForPriority b)) := by
    rw [exec_preemptionRequest, List.foldl_cons, List.foldl_nil, hb]
    exact congrArg _ (if_pos hquiet)
  obtain ⟨hgone, L', hL', hsaved⟩ := saveBlock_saved hb hparked hL hgangs hplace hcheck
  exact ⟨_, L', hexec, hgone, hL', hsaved⟩

end Save

/-! ### A run that goes on is cut (R336) -/

theorem openRunTimeout {s : State} {u g : Nat} {b : Block} {G : Gang} {r : Nat} (hb : s.block? u = some b)
    (hG : s.gang? u g = some G) (hstop : b.stop = some r) (hlong : r + 560 ≤ s.time) (hsheaf : G.sheaf.isSome = true) :
    ∃ t, exec (.openRunTimeout u g) s = .next t ∧ t.gang? u g = some { G with cut := true } ∧ t.cur ≠ some (u, g) ∧
      t = { s with blocks := t.blocks, cur := t.cur } := by
  have hexec : exec (.openRunTimeout u g) s =
      .next { s.modGang u g fun G => { G with cut := true } with cur := if s.cur = some (u, g) then none else s.cur } := by
    change execOpenRunTimeout u g s = _
    rw [execOpenRunTimeout, hb, hG]
    dsimp only
    rw [hstop]
    exact if_pos ⟨hlong, hsheaf⟩
  refine ⟨_, hexec, ?_, ?_, rfl⟩
  · exact (gang?_modGang s u g _).trans (by rw [hG]; rfl)
  · dsimp only
    split
    · exact (Option.some_ne_none _).symm
    · assumption

/-- Settles O30: each event is its own theorem above; a new block's registers are read from the way in which it starts. -/
theorem blockEvents : Obligations.BlockEvents := by
  unfold Obligations.BlockEvents
  intro a core u g s L b
  refine ⟨fun hL hnumber hplace => ⟨fun lin hnext hids => ?_, fun x bs hnext hread => placeBlock_saved hL hplace hnext hread⟩,
    fun hb hstalled hL hgangs => ?_, fun us => ⟨preemptionRequest_of_not_quiet, ?_⟩,
    fun G r hb hG hstop hlong hsheaf => openRunTimeout hb hG hstop hlong hsheaf⟩
  · obtain ⟨t, hexec, hblock, hmem, hothers, hlaunch⟩ := placeBlock_fresh hL hnumber hplace hnext hids
    refine ⟨t, _, hexec, hblock, rfl, rfl, rfl, rfl, rfl, rfl, fun i _ => vget_replicate .., ?_, hmem, hothers, hlaunch,
      fun i G hG => ?_⟩
    · simp [Block.start]
    · obtain rfl : Gang.start L lin i none = G := by
        obtain ⟨hi, hget⟩ := List.getElem?_eq_some_iff.1 hG
        simpa [Block.start] using hget
      refine ⟨rfl, rfl, fun k _ => start_sreg lin i k, fun l hl => ?_⟩
      obtain ⟨seq, hseq⟩ := start_lane (L := L) lin i hl
      rw [hseq]
      exact ⟨rfl, rfl, rfl, rfl, rfl, fun r _ => start_reg l seq r⟩
  · obtain rfl := block_uid hb
    exact blockStall hb hstalled hL hgangs
  · rintro rfl hb hquiet hparked hL hgangs off n P hplace hcheck
    exact preemptionRequest_saves hb hquiet hparked hL hgangs hplace hcheck

end Sys2Proof.Proofs.Blocks
end


section
/-! PROOFS. What the proofs of traps and of the rejoin instructions share: a trap of every member with an open TINFO (log 5), and an
effect that changes the thread state of some lanes. -/

namespace Sys2Proof.Proofs.GangEffects
open Sys2Proof.Machine Sys2Proof.Safety Sys2Proof.Laws Sys2Proof.Proofs.RunEnd

variable {i : Instr} {h : Hdr} {g : BitVec 3} {s : State} {c : Ctx} {body : Ctx → State → Eff}

/-! ### A trap whose TINFO is open (log 5) -/

/-- What makes an instruction ready does not look at the counter of open values. -/
theorem ready_takeFree (hr : Ready i h g s c) : Ready i h g s.takeFree c :=
  { hr with issues := hr.issues, context := hr.context, chunkOpen := hr.chunkOpen, unlogged := hr.unlogged }

/-- A cause that no pending FP exception withholds is delivered (R33, R88). -/
theorem settleEff_trap {s0 t : State} {x : Trap} (hp : i.withheld = true → ∀ S, c.G.sheaf = some S → S.fp = none) :
    s0.settleEff i c (.trap x t) = t.faultRun c x := by
  unfold State.settleEff
  cases hw : i.withheld
  · simp
  · cases hS : c.G.sheaf with
    | none => simp
    | some S => simp [hp hw S hS]

/-- A ready instruction that raises a cause on every member, with a TINFO that the spec leaves open. -/
theorem openTrap_ready (hr : Ready i h g s c) {cause : Nat} {addr : Dword}
    (hb : body (countedCtx c) (s.modGang c.u c.g (counted c)) =
      trapAll cause addr s.freeVal (s.takeFree.modGang c.u c.g (counted c))) (ht : TrapsTo c c.members) :
    TakesTrap (issue i h g body s) s.takeFree c c.members cause addr s.freeVal c.after := by
  have hr' := ready_takeFree hr
  have hissue : issue i h g body s = issue i h g (fun _ => trapAll cause addr s.freeVal) s.takeFree := by
    have hp : i.withheld = true → ∀ S, (countedCtx c).G.sheaf = some S → S.fp = none := hr.notWithheld
    simp only [issue_ready hr, issue_ready hr', hb, trapAll, settleEff_trap hp]
  rw [hissue]
  exact trap_ready (t := ⟨cause, addr, s.freeVal, none, false, cause⟩) hr' rfl rfl ht

/-! ### Thread states -/

/-- A thread in another state, with its wait count changed. -/
def restated (st : ThreadState) (w : Nat → Nat) (t : Lane) : Lane := { t with st := st, waitCount := w t.waitCount }

theorem counted_restated (c : Ctx) (st : ThreadState) (w : Nat → Nat) {l : Nat} (hl : l < 32) :
    ∃ r, restated st w ((counted c c.G).lane l) = { restated st w (c.G.lane l) with region := r } ∧
      r.isSome = (c.G.lane l).region.isSome := by
  obtain ⟨r, hlane, hr⟩ := counted_is c l hl
  exact ⟨r, congrArg (restated st w) hlane, hr⟩

theorem members_lane {G : Gang} {S : Sheaf} (hS : G.sheaf = some S) {l : Nat} (hl : l < 32) :
    G.members.getLsbD l = (S.members.getLsbD l && (G.lane l).live) := by
  rw [Gang.members, hS, BitVec.getLsbD_and, Gang.live, maskOf_lane _ l hl]

/-- A sheaf whose live members stay live keeps a member. -/
theorem members_ne_zero {G G' : Gang} (hsheaf : G'.sheaf = G.sheaf)
    (hlive : ∀ l < 32, (G.lane l).live = true → (G'.lane l).live = true) (hm : G.members ≠ 0) : G'.members ≠ 0 := by
  obtain ⟨l, hl, hmem⟩ := exists_lane_of_ne_zero hm
  cases hS : G.sheaf with
  | none => exact absurd (by rw [Gang.members, hS]) hm
  | some S =>
    rw [members_lane hS hl, Bool.and_eq_true] at hmem
    intro hzero
    have hmem' := members_lane (hsheaf.trans hS) hl
    simp [hzero, hmem.1, hlive l hl hmem.2] at hmem'

/-- A run that no member leaves. -/
theorem map_out_zero (o : Option Sheaf) : (o.map fun S => { S with out := S.out ||| 0 }) = o := by
  cases o <;> simp

/-- An instruction that changes its gang by a function F, and of its threads only the states of those of m, to one of a live
thread: its run goes on with every member. -/
theorem restates_ready (hr : Ready i h g s c) {F : Gang → Gang} {m : BitVec 32} {st : ThreadState} {w : Nat → Nat} {P : Gang → Prop}
    (hb : body (countedCtx c) (s.modGang c.u c.g (counted c)) = .done ((s.modGang c.u c.g (counted c)).modGang c.u c.g F))
    (hsheaf : (F (counted c c.G)).sheaf = c.G.sheaf) (hchunk : (F (counted c c.G)).chunk = c.G.chunk)
    (hlane : ∀ l < 32, (F (counted c c.G)).lane l =
      if m.getLsbD l then restated st w ((counted c c.G).lane l) else (counted c c.G).lane l)
    (hst : st ≠ .exited) (hy : isYield i = false)
    (hP : ∀ G' : Gang, G' = { F (counted c c.G) with lanes := G'.lanes, sheaf := G'.sheaf, chunk := G'.chunk } →
      (∀ l < 32, LaneIs c G' l (if m.getLsbD l then restated st w (c.G.lane l) else c.G.lane l)) → P G') :
    GangGoesOn (issue i h g body s) s c 0 P := by
  have hmembers : (F (counted c c.G)).members ≠ 0 := by
    refine members_ne_zero (G := counted c c.G) hsheaf (fun l hl hlive => ?_) (by rw [counted_members]; exact ready_members hr)
    rw [hlane l hl]
    split
    · exact decide_eq_true hst
    · exact hlive
  refine goesOn_ready hr hb (hsheaf.trans (map_out_zero _).symm) hchunk (fun l hl => ?_) (not_yield hy c) (.inr hmembers) hP
  rw [hlane l hl]
  split
  · exact ⟨counted_restated c st w hl, rfl, rfl⟩
  · exact ⟨counted_is c l hl, rfl, rfl⟩

end Sys2Proof.Proofs.GangEffects
end

section
/-! PROOFS. The traps that control and division instructions raise, and the return from a handler (R52, R186-R188, R252, R331). -/

namespace Sys2Proof.Proofs.Traps
open Sys2Proof.Machine Sys2Proof.Safety Sys2Proof.Laws Sys2Proof.Proofs.RunEnd Sys2Proof.Proofs.Issue
  Sys2Proof.Proofs.GangEffects

variable {h : Hdr} {g : BitVec 3} {s : State} {c : Ctx}

/-! ### bkpt and trap (R186) -/

theorem codeTrap_ready {i : Instr} (hr : Ready i h g s c) (cause : Nat) (k : BitVec 9) (ht : TrapsTo c c.act) :
    TakesTrap (issue i h g (codeTrap cause k) s) s c c.act cause (k.setWidth 64) 0 c.after :=
  trap_ready (t := ⟨cause, k.setWidth 64, 0, some c.act, false, cause⟩) hr (if_neg ht.some) rfl ht

/-! ### Integer-Divide (R252) -/

/-- The lowest lane of a mask. -/
theorem lowest_eq {m : BitVec 32} {l : Nat} (hl : l < 32) (hm : m.getLsbD l = true) (hbelow : ∀ k < l, m.getLsbD k = false) :
    lowest m = l := by
  have hfind : (List.range 32).find? (fun k => m.getLsbD k) = some l := by
    rw [List.find?_range_eq_some]
    exact ⟨hm, List.mem_range.2 hl, fun k hk => by simp [hbelow k hk]⟩
  rw [lowest, lanesOf, List.headD_eq_head?_getD, List.head?_filter, hfind, Option.getD_some]

theorem zeroDivisors_counted (c : Ctx) (b : BitVec 7) :
    zeroDivisors (countedCtx c) b = maskOf fun m => c.act.getLsbD m && decide (laneSrc c b m = 0) := by
  refine mask_ext _ _ fun l hl => ?_
  rw [zeroDivisors, maskOf_lane _ l hl, maskOf_lane _ l hl, countedCtx_G, counted_src c c.G b l hl]
  rfl

/-- A division by zero in some active lane, of which l is the lowest one. -/
theorem vdiv_ready {i : Instr} (hr : Ready i h g s c) (ht : TrapsTo c c.members) {d a b : BitVec 7} {f : Word → Word → Word} {l : Nat}
    (hl : l < 32) (hact : c.act.getLsbD l = true) (hzero : laneSrc c b l = 0)
    (hbelow : ∀ m < l, c.act.getLsbD m = true → laneSrc c b m ≠ 0) :
    TakesTrap (issue i h g (vdiv d a b f) s) s c c.members 0x09
      ((maskOf fun m => c.act.getLsbD m && decide (laneSrc c b m = 0) : BitVec 32).setWidth 64) (BitVec.ofNat 64 l) c.after := by
  have hlane (m : Nat) (hm : m < 32) : (zeroDivisors (countedCtx c) b).getLsbD m = (c.act.getLsbD m && decide (laneSrc c b m = 0)) := by
    rw [zeroDivisors_counted, maskOf_lane _ m hm]
  have hmem : (zeroDivisors (countedCtx c) b).getLsbD l = true := by rw [hlane l hl, hact, hzero]; rfl
  have hlow : lowest (zeroDivisors (countedCtx c) b) = l := lowest_eq hl hmem fun m hm => by
    rw [hlane m (hm.trans hl)]
    cases hm' : c.act.getLsbD m
    · rfl
    · exact decide_eq_false (hbelow m hm hm')
  have hne : zeroDivisors (countedCtx c) b ≠ 0 := fun hz => by simp [hz] at hmem
  have htrap := trap_ready (t := ⟨0x09, (zeroDivisors (countedCtx c) b).setWidth 64,
    BitVec.ofNat 64 (lowest (zeroDivisors (countedCtx c) b)), none, false, 0x09⟩) (body := vdiv d a b f) hr (if_pos hne) rfl ht
  rwa [hlow, zeroDivisors_counted] at htrap

/-! ### Orphaned-Set (R52) -/

theorem foldl_or_lane (f : Nat → BitVec 32) (js : List Nat) (m : BitVec 32) (l : Nat) :
    (js.foldl (fun m j => m ||| f j) m).getLsbD l = (m.getLsbD l || js.any fun j => (f j).getLsbD l) := by
  induction js generalizing m with
  | nil => simp
  | cons j js ih => rw [List.foldl_cons, ih, BitVec.getLsbD_or, List.any_cons, Bool.or_assoc]

/-- The number with the bits of p is the mask of p. -/
theorem ofNat_foldl_two_pow (p : Nat → Prop) [DecidablePred p] {n : Nat} (hn : n ≤ 32) :
    BitVec.ofNat 32 ((List.range n).foldl (fun x j => if p j then x + 2 ^ j else x) 0) = maskOf fun j => decide (j < n ∧ p j) := by
  have hfold : BitVec.ofNat 32 ((List.range n).foldl (fun x j => if p j then x + 2 ^ j else x) 0) =
      (List.range n).foldl (fun (m : BitVec 32) j => if decide (p j) then m ||| BitVec.twoPow 32 j else m) 0 := by
    induction n with
    | zero => rfl
    | succ n ih =>
      have hclear := foldl_mask (fun j => decide (p j)) n n hn (by omega)
      rw [List.range_succ, List.foldl_append, List.foldl_append, ← ih (by omega)]
      rw [← ih (by omega)] at hclear
      have hpow : BitVec.ofNat 32 (2 ^ n) = BitVec.twoPow 32 n := BitVec.eq_of_toNat_eq (by simp [BitVec.toNat_twoPow])
      by_cases hp : p n
      · simp only [List.foldl_cons, List.foldl_nil, hp, if_true, decide_true]
        rw [BitVec.ofNat_add, hpow, BitVec.add_eq_or_of_and_eq_zero]
        rw [BitVec.and_twoPow, hclear]
        simp
      · simp only [List.foldl_cons, List.foldl_nil, hp, decide_false, if_false, Bool.false_eq_true]
  refine mask_ext _ _ fun l hl => ?_
  rw [hfold, foldl_mask _ n l hl hn, maskOf_lane _ l hl, Bool.decide_and]

/-- The active members of sets, and their sets, as the trap names them. -/
theorem orphans_eq (c : Ctx) : (orphans c).1 = (maskOf fun l => c.act.getLsbD l && (List.range 16).any fun j => (c.G.m j).getLsbD l) ∧
    BitVec.ofNat 32 (orphans c).2 = maskOf fun j => decide (j < 16 ∧ c.G.m j &&& c.act ≠ 0) := by
  refine ⟨mask_ext _ _ fun l hl => ?_, ofNat_foldl_two_pow (fun j => c.G.m j &&& c.act ≠ 0) (by decide)⟩
  rw [maskOf_lane _ l hl]
  refine (foldl_or_lane ..).trans ?_
  cases hact : c.act.getLsbD l <;> simp [hact]

theorem orphans_ne_zero {j : Nat} (hj : j < 16) (hset : c.G.m j &&& c.act ≠ 0) : (orphans c).1 ≠ 0 := by
  obtain ⟨l, hl, hmem⟩ := exists_lane_of_ne_zero hset
  rw [BitVec.getLsbD_and, Bool.and_eq_true] at hmem
  intro hz
  have hlane := maskOf_lane (fun l => c.act.getLsbD l && (List.range 16).any fun j => (c.G.m j).getLsbD l) l hl
  rw [← (orphans_eq c).1, hz, hmem.2, Bool.true_and] at hlane
  exact absurd hlane.symm (by simpa using ⟨j, hj, hmem.1⟩)

theorem exit_orphans (hr : Ready (.exit h g) h g s c) (ht : TrapsTo c c.members) (hset : ∃ j < 16, c.G.m j &&& c.act ≠ 0) :
    TakesTrap (exec (.exit h g) s) s.takeFree c c.members 0x0B
      ((maskOf fun l => c.act.getLsbD l && (List.range 16).any fun j => (c.G.m j).getLsbD l : BitVec 32) ++
        (maskOf fun j => decide (j < 16 ∧ c.G.m j &&& c.act ≠ 0) : BitVec 32)) s.freeVal c.after := by
  obtain ⟨j, hj, hset⟩ := hset
  rw [← (orphans_eq c).1, ← (orphans_eq c).2]
  exact openTrap_ready hr (if_pos (orphans_ne_zero hj hset)) ht

/-! ### What tret does to the state (R187, R334) -/

/-- A change of one block that keeps its number concerns no other block. -/
theorem blockOnly_modBlock (s : State) (u : Nat) {f : Block → Block} (hf : ∀ b, (f b).uid = b.uid) :
    BlockOnly u s (s.modBlock u f) := by
  refine ⟨rfl, fun v hv => ?_⟩
  show ({ s with blocks := s.blocks.map fun b => if b.uid = u then f b else b } : State).block? v = s.block? v
  rw [block?_map s v fun b => by split <;> simp [hf]]
  cases hb : s.block? v with
  | none => rfl
  | some b =>
    have hid : b.uid = v := by simpa using List.find?_some hb
    rw [Option.map_some, if_neg (hid ▸ hv)]

theorem blockOnly_modGang (s : State) (u g : Nat) (F : Gang → Gang) : BlockOnly u s (s.modGang u g F) :=
  blockOnly_modBlock s u fun _ => rfl

theorem blockOnly_trans {u : Nat} {s t t' : State} (h : BlockOnly u s t) (h' : BlockOnly u t t') : BlockOnly u s t' := by
  refine ⟨?_, fun v hv => (h'.2 v hv).trans (h.2 v hv)⟩
  rw [h'.1, h.1]

/-- The jobs of a gang that were frozen for a Watchpoint of the threads of m go on (R334). -/
def thawed (g : Nat) (m : BitVec 32) (G : Gang) (b : Block) : Block :=
  { b with jobs := b.jobs.map fun j =>
      if j.gang = g ∧ m.getLsbD j.lane ∧ j.frozen ∧ !(G.events.any fun e => decide (e.job = some j.id)) then
        { j with frozen := false, watchPos := some j.pos } else j }

theorem releaseFrozen_eq {u g : Nat} {m : BitVec 32} {G : Gang} (hG : s.gang? u g = some G) :
    s.releaseFrozen u g m = s.modBlock u (thawed g m G) := by
  rw [State.releaseFrozen, hG]
  rfl

theorem gang?_thawed (s : State) (u g k : Nat) (m : BitVec 32) (G : Gang) : (s.modBlock u (thawed g m G)).gang? u k = s.gang? u k := by
  rw [State.gang?, block?_modBlock s u (thawed g m G) fun _ => rfl, State.gang?]
  cases s.block? u <;> rfl

/-- A gang whose threads of m have returned from their handlers. -/
def returned (b : Block) (m : BitVec 32) (G : Gang) : Gang := (G.modLanes m fun _ t => t.tret b G.chunk.isSome).settle m

theorem tret_eq {u g : Nat} {b : Block} {G : Gang} (hb : s.block? u = some b) (hG : s.gang? u g = some G) (m : BitVec 32) :
    s.tret u g m = (s.modGang u g (returned b m)).modBlock u (thawed g m (returned b m G)) := by
  rw [State.tret, hb]
  exact releaseFrozen_eq (by rw [gang?_modGang, hG]; rfl)

theorem blockOnly_tret {u g : Nat} {b : Block} {G : Gang} (hb : s.block? u = some b) (hG : s.gang? u g = some G) (m : BitVec 32) :
    BlockOnly u s (s.tret u g m) := by
  rw [tret_eq hb hG]
  exact blockOnly_trans (blockOnly_modGang ..) (blockOnly_modBlock _ _ fun _ => rfl)

theorem returned_none (b : Block) (G : Gang) : returned b 0 G = G := by
  rw [returned, modLanes_none, Gang.settle, map_out_zero]

theorem thawed_none (g : Nat) (G : Gang) (b : Block) : thawed g 0 G b = b := by simp [thawed]

/-- Without a thread to return nothing changes. -/
theorem tret_none {u g : Nat} {b : Block} {G : Gang} (hb : s.block? u = some b) (hG : s.gang? u g = some G) : s.tret u g 0 = s := by
  have hid : thawed g 0 (returned b 0 G) = id := funext (thawed_none g _)
  rw [tret_eq hb hG, modGang_id _ _ _ _ (returned_none b), hid]
  simp [State.modBlock]

/-! ### A thread that returns (R187, R331) -/

theorem readLE_lt (m : List Host.Cell) (a n : Nat) : readLE m a n < 256 ^ n := by
  induction n generalizing a with
  | zero => exact Nat.one_pos
  | succ n ih =>
    have hbyte := (sread m a).isLt
    have hrest := ih (a + 1)
    rw [readLE, Nat.pow_succ]
    omega

theorem phase_eq_iff (b : Block) (off : Nat) (ph : BitVec 32) : b.phase off = ph ↔ readLE b.spad (off + 12) 4 = ph.toNat := by
  have hlt : readLE b.spad (off + 12) 4 < 2 ^ 32 := readLE_lt b.spad (off + 12) 4
  rw [← BitVec.toNat_inj, Block.phase, BitVec.toNat_ofNat, Nat.mod_eq_of_lt hlt]

theorem laneTret_eq (t : Lane) (b : Block) (recorded : Bool) : t.tret b recorded = { t with
    pc := t.resume
    handler := false
    tcause := 0
    tpc := 0
    taddr := 0
    tinfo := 0
    watchPass := true
    ranSinceTret := false
    restored := none
    woken := match t.restored with
      | some (off, ph, _) => if recorded ∧ readLE b.spad (off + 12) 4 ≠ ph.toNat then some off else t.woken
      | none => t.woken
    st := match t.restored with
      | some (off, ph, pc) => if readLE b.spad (off + 12) 4 = ph.toNat then .blocked (.bar off ph pc true) else .eligible
      | none => t.st } := by
  unfold Lane.tret Lane.passed
  cases t.restored with
  | none => cases recorded <;> rfl
  | some x =>
    obtain ⟨off, ph, pc⟩ := x
    by_cases hphase : readLE b.spad (off + 12) 4 = ph.toNat
    · cases recorded <;> simp [phase_eq_iff, hphase]
    · cases recorded <;> simp [phase_eq_iff, hphase]

/-! ### The threads that tret returns, and those that it traps (R187, R188) -/

theorem handlers_lane (c : Ctx) {l : Nat} (hl : l < 32) :
    (countedCtx c).handlers.getLsbD l = (c.act.getLsbD l && (c.G.lane l).handler) := by
  rw [Ctx.handlers, maskOf_lane _ l hl, countedCtx_G, counted_field (·.handler) (fun _ _ => rfl) c c.G l hl]
  rfl

theorem handlers_eq_act (hall : ∀ l < 32, c.act.getLsbD l = true → (c.G.lane l).handler = true) : (countedCtx c).handlers = c.act := by
  refine mask_ext _ _ fun l hl => ?_
  rw [handlers_lane c hl]
  cases hact : c.act.getLsbD l
  · rfl
  · exact hall l hl hact

theorem handlers_eq_zero (ht : TrapsTo c c.act) : (countedCtx c).handlers = 0 := by
  refine mask_none fun l hl => ?_
  rw [handlers_lane c hl]
  cases hact : c.act.getLsbD l
  · rfl
  · exact (ht.outside l hl hact).1

theorem counted_block {i : Instr} (hr : Ready i h g s c) :
    (s.modGang c.u c.g (counted c)).block? c.u = some (c.B.modGang c.g (counted c)) := by
  obtain ⟨hu, -, -, -, hB, -⟩ := ctx_spec hr.context
  rw [block?_modGang, hu, hB]
  rfl

theorem counted_gang {i : Instr} (hr : Ready i h g s c) : (s.modGang c.u c.g (counted c)).gang? c.u c.g = some (counted c c.G) := by
  rw [gang?_modGang, (ready_sheaf hr).1]
  rfl

theorem tret_traps (hr : Ready (.tret h g) h g s c) (ht : TrapsTo c c.act) :
    TakesTrap (exec (.tret h g) s) s c c.act 0x15 0 1 c.after := by
  refine trap_ready (t := ⟨0x15, 0, 1, some c.act, false, 0x15⟩) hr ?_ rfl ht
  have hrest : c.act &&& ~~~(0 : BitVec 32) = c.act := by
    rw [show ~~~(0 : BitVec 32) = BitVec.allOnes 32 from rfl, BitVec.and_allOnes]
  simp only [handlers_eq_zero ht, countedCtx_u, countedCtx_g, countedCtx_act, tret_none (counted_block hr) (counted_gang hr), hrest,
    if_neg ht.some]

/-- tret is illegal in a region: an active thread of a ready tret has none open (R140). -/
theorem tret_outside (hr : Ready (.tret h g) h g s c) : c.act &&& c.G.inRegion = 0 := by
  by_contra hne
  exact Bool.false_ne_true (hr.legal hne)

/-- The gang at the end of a tret of threads that are all in handler state. -/
def afterTret (h : Hdr) (g : BitVec 3) (c : Ctx) : Gang :=
  moved c (tagged (.tret h g) c (returned (c.B.modGang c.g (counted c)) c.act (counted c c.G)))

theorem returned_lane (c : Ctx) {l : Nat} (hl : l < 32) :
    (returned (c.B.modGang c.g (counted c)) c.act (counted c c.G)).lane l =
      if c.act.getLsbD l then ((counted c c.G).lane l).tret c.B c.G.chunk.isSome else (counted c c.G).lane l := modLanes_lane _ _ _ l hl

theorem afterTret_lane_active (hr : Ready (.tret h g) h g s c) {l : Nat} (hl : l < 32) (hact : c.act.getLsbD l = true)
    (hhandler : (c.G.lane l).handler = true) : (afterTret h g c).lane l = (c.G.lane l).tret c.B c.G.chunk.isSome := by
  have hout : c.G.inRegion.getLsbD l = false := by
    have hlane := congrArg (·.getLsbD l) (tret_outside hr)
    simpa [hact] using hlane
  have hcounted : (counted c c.G).lane l = c.G.lane l := by
    rw [counted_lane c l hl, BitVec.getLsbD_and, hout, Bool.and_false, if_neg Bool.false_ne_true]
  have htagged (G : Gang) : (tagged (.tret h g) c G).lane l = G.lane l := by
    rw [tagged, modLanes_lane _ _ _ l hl, counted_inRegion, tret_outside hr]
    simp
  have hmoved (G : Gang) : (moved c G).lane l =
      { G.lane l with watchPass := (G.lane l).watchPass && ((counted c c.G).lane l).handler && !(G.lane l).handler } :=
    (modLanes_lane _ _ _ l hl).trans (if_pos (act_le_run hr l hact))
  rw [afterTret, hmoved, htagged, returned_lane c hl, if_pos hact, hcounted, hhandler]
  rfl

theorem afterTret_lane_other (h : Hdr) (g : BitVec 3) (c : Ctx) {l : Nat} (hl : l < 32) (hact : ¬ c.act.getLsbD l = true) :
    LaneIs c (afterTret h g c) l (c.G.lane l) := by
  obtain ⟨r, hlane, hr⟩ := counted_is c l hl
  exact moved_laneIs hl ⟨r, ((returned_lane c hl).trans (if_neg hact)).trans hlane, hr⟩ rfl rfl

theorem afterTret_kept (h : Hdr) (g : BitVec 3) (c : Ctx) : GangKept c (afterTret h g c) := by
  obtain ⟨v, hv⟩ := moved_tagged (.tret h g) c (returned (c.B.modGang c.g (counted c)) c.act (counted c c.G))
  rw [GangKept, afterTret, hv]
  rfl

theorem afterTret_sheaf (h : Hdr) (g : BitVec 3) (c : Ctx) :
    (afterTret h g c).sheaf = c.G.sheaf.map fun S => { S with pc := c.after, pos := S.pos + c.n, out := S.out ||| c.act } := by
  show (c.G.sheaf.map _).map _ = _
  rw [Option.map_map]
  rfl

/-- A tret of active threads that are all in handler state. -/
theorem tret_returns (hr : Ready (.tret h g) h g s c) (hall : ∀ l < 32, c.act.getLsbD l = true → (c.G.lane l).handler = true) :
    ∃ t, exec (.tret h g) s = .next (after c t) ∧ BlockOnly c.u s t ∧ t.gang? c.u c.g = some (afterTret h g c) := by
  have hb := counted_block hr
  have hG := counted_gang hr
  have hG' : ((s.modGang c.u c.g (counted c)).tret c.u c.g c.act).gang? c.u c.g =
      some (returned (c.B.modGang c.g (counted c)) c.act (counted c c.G)) := by
    rw [tret_eq hb hG, gang?_thawed, gang?_modGang, hG]
    rfl
  have hcommit : ∀ S, (returned (c.B.modGang c.g (counted c)) c.act (counted c c.G)).sheaf = some S → S.commit = none := by
    intro S hS
    obtain ⟨S₀, hS₀, rfl⟩ := Option.map_eq_some_iff.1 hS
    exact (ready_sheaf hr).2 S₀ hS₀
  have hend : c.h.e = true := (ctx_spec hr.context).2.2.1 ▸ hr.ends rfl
  refine ⟨_, done_ready (s' := (s.modGang c.u c.g (counted c)).tret c.u c.g c.act) hr ?_ hG' hcommit (not_yield rfl c) (.inl hend),
    ?_, ?_⟩
  · have hrest : c.act &&& ~~~c.act = 0 := BitVec.and_not_self _
    simp only [handlers_eq_act hall, countedCtx_u, countedCtx_g, countedCtx_act, hrest, if_true]
  · exact blockOnly_trans (blockOnly_modGang ..) (blockOnly_trans (blockOnly_tret hb hG c.act) (blockOnly_modGang ..))
  · rw [gang?_modGang, hG']
    rfl

/-- Settles O8: each trap and each case of tret has its own theorem above. -/
theorem trapAndReturnResults : Obligations.TrapAndReturnResults := by
  unfold Obligations.TrapAndReturnResults
  refine ⟨fun h g k d a b s c => ⟨fun hr ht => codeTrap_ready hr 0x14 k ht, fun hr ht => codeTrap_ready hr 0x15 k ht,
    fun ht l hl hact hzero hbelow i hi hr => ?_, exit_orphans⟩, fun h g s c hr => ⟨fun hall => ?_, tret_traps hr⟩⟩
  · simp only [List.mem_cons, List.not_mem_nil, or_false] at hi
    rcases hi with rfl | rfl | rfl | rfl
    all_goals exact vdiv_ready hr ht hl hact hzero hbelow
  · obtain ⟨t, hexec, hblock, hgang⟩ := tret_returns hr hall
    refine ⟨t, _, hexec, hblock, hgang, afterTret_kept h g c, afterTret_sheaf h g c, fun l hl => ?_⟩
    split
    · next hact => exact (afterTret_lane_active hr hl hact (hall l hl hact)).trans (laneTret_eq ..)
    · next hact => exact afterTret_lane_other h g c hl hact

end Sys2Proof.Proofs.Traps
end

section
/-! PROOFS. The rejoin instructions (R46-R51) and reggrow (R70, R193). -/

namespace Sys2Proof.Proofs.Rejoin
open Sys2Proof.Machine Sys2Proof.Safety Sys2Proof.Laws Sys2Proof.Proofs.RunEnd Sys2Proof.Proofs.GangEffects

variable {h : Hdr} {j : BitVec 4} {r : BitVec 6} {s : State} {c : Ctx}

/-! ### The masks of a set (R46) -/

theorem setM_m (G : Gang) (j k : Nat) (x : Word) : (G.setM j x).m k = if j = k ∧ j < 16 then x else G.m k := vget_vset ..
theorem setA_a (G : Gang) (j k : Nat) (x : Word) : (G.setA j x).a k = if j = k ∧ j < 16 then x else G.a k := vget_vset ..

/-- Set j of the gang G' has the masks M and A, and its other sets are those of G. -/
def SetIs (G : Gang) (j : Nat) (M A : Word) (G' : Gang) : Prop :=
  (∀ k < 16, k ≠ j → G'.m k = G.m k ∧ G'.a k = G.a k) ∧ G'.m j = M ∧ G'.a j = A

theorem setIs_refl (G : Gang) (j : Nat) : SetIs G j (G.m j) (G.a j) G := ⟨fun _ _ _ => ⟨rfl, rfl⟩, rfl, rfl⟩

theorem SetIs.setM {G G' : Gang} {j : Nat} {M A : Word} (hset : SetIs G j M A G') (hj : j < 16) (x : Word) :
    SetIs G j x A (G'.setM j x) := by
  obtain ⟨hothers, -, ha⟩ := hset
  refine ⟨fun k hk hne => ?_, by rw [setM_m, if_pos ⟨rfl, hj⟩], ha⟩
  rw [setM_m, if_neg fun hjk => hne hjk.1.symm]
  exact hothers k hk hne

theorem SetIs.setA {G G' : Gang} {j : Nat} {M A : Word} (hset : SetIs G j M A G') (hj : j < 16) (x : Word) :
    SetIs G j M x (G'.setA j x) := by
  obtain ⟨hothers, hm, -⟩ := hset
  refine ⟨fun k hk hne => ?_, hm, by rw [setA_a, if_pos ⟨rfl, hj⟩]⟩
  rw [setA_a, if_neg fun hjk => hne hjk.1.symm]
  exact hothers k hk hne

/-! ### What a rejoin instruction makes of its gang (R49) -/

/-- Besides its threads and its run the gang is as before but for set j, which has the masks M and A; its threads are T. -/
def Rejoined (c : Ctx) (j : Nat) (M A : Word) (T : Nat → Lane) (G' : Gang) : Prop :=
  (G' = { c.G with lanes := G'.lanes, sheaf := G'.sheaf, chunk := G'.chunk, jm := G'.jm, ja := G'.ja } ∧
    ∀ k < 16, k ≠ j → G'.m k = c.G.m k ∧ G'.a k = c.G.a k) ∧
  G'.m j = M ∧ G'.a j = A ∧ ∀ l < 32, LaneIs c G' l (T l)

/-- A rejoin instruction that makes G₁ of its gang: set j has the masks M and A there, and the threads of m are in another state. -/
theorem rejoin_ready {i : Instr} (hr : Ready i h 7 s c) {body : Ctx → State → Eff} {F : Gang → Gang} {G₁ : Gang} {m M A : Word}
    {st : ThreadState} {w : Nat → Nat} {T : Nat → Lane}
    (hb : body (countedCtx c) (s.modGang c.u c.g (counted c)) = .done ((s.modGang c.u c.g (counted c)).modGang c.u c.g F))
    (hF : F (counted c c.G) = G₁) (hkept : G₁ = { counted c c.G with lanes := G₁.lanes, jm := G₁.jm, ja := G₁.ja })
    (hset : SetIs c.G j.toNat M A G₁)
    (hlane : ∀ l < 32, G₁.lane l = if m.getLsbD l then restated st w ((counted c c.G).lane l) else (counted c c.G).lane l)
    (hT : ∀ l, T l = if m.getLsbD l then restated st w (c.G.lane l) else c.G.lane l)
    (hst : st ≠ .exited) (hy : isYield i = false) :
    GangGoesOn (issue i h 7 body s) s c 0 (Rejoined c j.toNat M A T) := by
  subst hF
  refine restates_ready hr hb (by rw [hkept]; rfl) (by rw [hkept]; rfl) hlane hst hy fun G' hG' hlanes => ?_
  obtain ⟨hothers, hm, ha⟩ : SetIs c.G j.toNat M A G' := by rw [hG']; exact hset
  refine ⟨⟨?_, hothers⟩, hm, ha, fun l hl => hT l ▸ hlanes l hl⟩
  rw [hG', hkept]
  rfl

/-- A rejoin instruction that changes no thread. -/
theorem rejoin_masks_ready {i : Instr} (hr : Ready i h 7 s c) {body : Ctx → State → Eff} {F : Gang → Gang} {G₁ : Gang} {M A : Word}
    (hb : body (countedCtx c) (s.modGang c.u c.g (counted c)) = .done ((s.modGang c.u c.g (counted c)).modGang c.u c.g F))
    (hF : F (counted c c.G) = G₁) (hkept : G₁ = { counted c c.G with jm := G₁.jm, ja := G₁.ja })
    (hset : SetIs c.G j.toNat M A G₁) (hy : isYield i = false) :
    GangGoesOn (issue i h 7 body s) s c 0 (Rejoined c j.toNat M A c.G.lane) := by
  refine rejoin_ready (m := 0) (st := .eligible) (w := id) hr hb hF (by rw [hkept]) hset (fun l _ => ?_) (fun l => by simp)
    (by decide) hy
  rw [hkept]
  simp [Gang.lane]

theorem jenter_rejoined (hr : Ready (.jenter h j) h 7 s c) : GangGoesOn (exec (.jenter h j) s) s c 0
    (Rejoined c j.toNat (c.G.m j.toNat ||| c.run) (c.G.a j.toNat) c.G.lane) :=
  rejoin_masks_ready hr rfl rfl rfl ((setIs_refl ..).setM j.isLt _) rfl

theorem jclr_rejoined (hr : Ready (.jclr h j) h 7 s c) (harr : c.G.a j.toNat = 0) : GangGoesOn (exec (.jclr h j) s) s c 0
    (Rejoined c j.toNat 0 0 c.G.lane) :=
  rejoin_masks_ready hr (if_neg (not_not_intro harr)) rfl rfl (harr ▸ (setIs_refl ..).setM j.isLt _) rfl

theorem jload_rejoined (hr : Ready (.jload h j r) h 7 s c) (harr : c.G.a j.toNat = 0) : GangGoesOn (exec (.jload h j r) s) s c 0
    (Rejoined c j.toNat ((c.G.sreg r.toNat).extractLsb' 0 32 &&& c.G.live) 0 c.G.lane) :=
  rejoin_masks_ready (G₁ := (counted c c.G).setM j.toNat ((c.G.sreg r.toNat).extractLsb' 0 32 &&& c.G.live)) hr
    (if_neg (not_not_intro harr)) (congrArg (fun m => (counted c c.G).setM j.toNat (_ &&& m)) (counted_live c)) rfl
    (harr ▸ (setIs_refl ..).setM j.isLt _) rfl

/-! ### Waits and releases -/

/-- jquit releases the arrived members when they are all that is left; none of them is left when the set is empty. -/
theorem jquit_eq (G : Gang) (j : Nat) (b : Word) : G.jquit j b =
    if G.a j &&& ~~~b = G.m j &&& ~~~b then ((G.setM j (G.m j &&& ~~~b)).setA j 0).wake (G.a j &&& ~~~b)
    else (G.setM j (G.m j &&& ~~~b)).setA j (G.a j &&& ~~~b) := by
  by_cases hall : G.a j &&& ~~~b = G.m j &&& ~~~b
  · rw [if_pos hall]
    by_cases hzero : G.a j &&& ~~~b = 0
    · refine (if_neg fun hboth => hboth.2 hzero).trans ?_
      rw [hzero, Gang.wake, modLanes_none]
    · exact if_pos ⟨hall, hzero⟩
  · rw [if_neg hall]
    exact if_neg fun hboth => hall hboth.1

/-- What remains of set j when the threads of b leave it. -/
theorem setIs_quit (G : Gang) (j : BitVec 4) (b a : Word) :
    SetIs G j.toNat (G.m j.toNat &&& ~~~b) a ((G.setM j.toNat (G.m j.toNat &&& ~~~b)).setA j.toNat a) :=
  ((setIs_refl ..).setM j.isLt _).setA j.isLt _

theorem jquit_rejoined (hr : Ready (.jquit h j) h 7 s c) :
    let m := c.G.m j.toNat &&& ~~~c.run
    let a := c.G.a j.toNat &&& ~~~c.run
    GangGoesOn (exec (.jquit h j) s) s c 0 (Rejoined c j.toNat m (if a = m then 0 else a)
      fun l => if a = m ∧ a.getLsbD l then { c.G.lane l with st := .eligible } else c.G.lane l) := by
  intro m a
  have hquit := jquit_eq (counted c c.G) j.toNat c.run
  by_cases hall : a = m
  · simp only [hall, true_and, if_true]
    exact rejoin_ready (m := m) (st := .eligible) (w := id) hr rfl (hquit.trans (if_pos hall)) rfl (setIs_quit c.G j c.run 0)
      (fun l hl => hall ▸ modLanes_lane _ _ _ l hl) (fun _ => rfl) (by decide) rfl
  · simp only [hall, false_and, if_false]
    exact rejoin_masks_ready hr rfl (hquit.trans (if_neg hall)) rfl (setIs_quit c.G j c.run a) rfl

theorem jwait_rejoined (hr : Ready (.jwait h j) h 7 s c) (hmem : c.run &&& ~~~c.G.m j.toNat = 0) :
    let a := c.G.a j.toNat ||| c.run
    GangGoesOn (exec (.jwait h j) s) s c 0 (Rejoined c j.toNat (c.G.m j.toNat) (if a = c.G.m j.toNat then 0 else a)
      fun l => if a = c.G.m j.toNat then (if a.getLsbD l then { c.G.lane l with st := .eligible } else c.G.lane l)
        else if c.run.getLsbD l then { c.G.lane l with st := .blocked (.jwait j.toNat c.wpc), waitCount := 0 }
        else c.G.lane l) := by
  intro a
  have hset (x : Word) := (setIs_refl c.G j.toNat).setA j.isLt x
  by_cases hall : a = c.G.m j.toNat
  · simp only [hall, if_true]
    exact rejoin_ready (m := c.G.m j.toNat) (st := .eligible) (w := id) hr (if_neg (not_not_intro hmem)) (if_pos hall) rfl (hset 0)
      (fun l hl => hall ▸ modLanes_lane _ _ _ l hl) (fun _ => rfl) (by decide) rfl
  · simp only [hall, if_false]
    exact rejoin_ready (m := c.run) (w := fun _ => 0) hr (if_neg (not_not_intro hmem)) (if_neg hall) rfl (hset a)
      (fun l hl => modLanes_lane _ _ _ l hl) (fun _ => rfl) (by simp) rfl

/-! ### Rejoin-Membership (R50) -/

theorem jwait_membership (hr : Ready (.jwait h j) h 7 s c) (ht : TrapsTo c c.members) (hout : c.run &&& ~~~c.G.m j.toNat ≠ 0) :
    TakesTrap (exec (.jwait h j) s) s.takeFree c c.members 0x0A ((c.run &&& ~~~c.G.m j.toNat) ++ j.setWidth 32) s.freeVal c.after :=
  openTrap_ready hr (if_pos hout) ht

theorem jclr_membership (hr : Ready (.jclr h j) h 7 s c) (ht : TrapsTo c c.members) (harr : c.G.a j.toNat ≠ 0) :
    TakesTrap (exec (.jclr h j) s) s.takeFree c c.members 0x0A (c.run ++ j.setWidth 32) s.freeVal c.after :=
  openTrap_ready hr (if_pos harr) ht

theorem jload_membership (hr : Ready (.jload h j r) h 7 s c) (ht : TrapsTo c c.members) (harr : c.G.a j.toNat ≠ 0) :
    TakesTrap (exec (.jload h j r) s) s.takeFree c c.members 0x0A (c.run ++ j.setWidth 32) s.freeVal c.after :=
  openTrap_ready hr (if_pos harr) ht

/-! ### Register growth (R70, R193) -/

theorem budgetOk_of {n : Nat} (hdiv : n % 8 = 0) (hlow : 16 ≤ n) (hhigh : n ≤ 112) : budgetOk n = true := by
  simp [budgetOk, hdiv, hlow, hhigh]

theorem counted_eligible (c : Ctx) : (counted c c.G).eligible = c.G.eligible := modLanes_eligible _ _ _ fun _ _ => rfl

/-- An instruction without an effect changes nothing but its run. -/
theorem noEffect_ready {i : Instr} {g : BitVec 3} (hr : Ready i h g s c) {body : Ctx → State → Eff}
    (hb : body (countedCtx c) (s.modGang c.u c.g (counted c)) = .done (s.modGang c.u c.g (counted c))) (hy : isYield i = false) :
    GangOnly (issue i h g body s) s c fun G' => GangKept c G' ∧ VectorsKept c G' ∧ PredsKept c G' := by
  obtain ⟨F, hnext, hmoved, hlanes, hkept, hregs⟩ := lanes_ready (m := 0) (f := fun _ _ t => t) hr
    (hb.trans (congrArg _ (modGang_id _ _ _ _ fun G => modLanes_none G _).symm)) (fun _ _ => ⟨rfl, rfl⟩) hy
  have hsame (l : Nat) (hl : l < 32) : laneAfter c 0 (fun _ _ t => t) l = (counted c c.G).lane l := by simp [laneAfter]
  refine ⟨F, hnext, hmoved, hlanes, hkept, fun l hl => ?_, fun l hl => ?_⟩
  · rw [(hregs l hl).1, hsame l hl, (counted_same c l hl).1]
  · rw [(hregs l hl).2, hsame l hl, (counted_same c l hl).1]

theorem reggrow_keeps {n : BitVec 9} (hr : Ready (.reggrow h n) h 7 s c) (hok : budgetOk n.toNat = true) (hle : n.toNat ≤ c.G.vb) :
    GangOnly (exec (.reggrow h n) s) s c fun G' => GangKept c G' ∧ VectorsKept c G' ∧ PredsKept c G' :=
  noEffect_ready hr ((if_neg (by simp [hok])).trans (if_pos hle)) rfl

theorem reggrow_blocks {n : BitVec 9} (hr : Ready (.reggrow h n) h 7 s c) (hok : budgetOk n.toNat = true) (hlt : c.G.vb < n.toNat) :
    GangGoesOn (exec (.reggrow h n) s) s c 0 fun G' =>
      G' = { c.G with lanes := G'.lanes, sheaf := G'.sheaf, chunk := G'.chunk, grow := some (n.toNat, s.time) } ∧
      ∀ l < 32, LaneIs c G' l (if (c.G.lane l).eligible then { c.G.lane l with st := .blocked .reggrow, waitCount := 0 }
        else c.G.lane l) := by
  refine restates_ready (m := c.G.eligible) (st := .blocked .reggrow) (w := fun _ => 0) hr
    ((if_neg (by simp [hok])).trans (if_neg (Nat.not_le.2 hlt))) rfl rfl (fun l hl => ?_) (by simp) rfl
    fun G' hG' hlanes => ⟨hG', fun l hl => eligible_lane c.G hl ▸ hlanes l hl⟩
  rw [← counted_eligible]
  exact modLanes_lane _ _ _ l hl

/-! ### Reading the masks (R49, R51) -/

theorem jmask_result (h : Hdr) (j : BitVec 4) (r : BitVec 6) :
    ScalarResult (.jmask h j r) h 7 r fun c => (c.G.m j.toNat).setWidth 72 :=
  fun _ _ hr => writesScalar_ready (w := fun G => (G.m j.toNat).setWidth 72) hr rfl rfl rfl

theorem jarr_result (h : Hdr) (j : BitVec 4) (r : BitVec 6) :
    ScalarResult (.jarr h j r) h 7 r fun c => (c.G.a j.toNat).setWidth 72 :=
  fun _ _ hr => writesScalar_ready (w := fun G => (G.a j.toNat).setWidth 72) hr rfl rfl rfl

/-! ### The statement -/

/-- Settles O9: each instruction has its own theorem above. -/
theorem rejoinAndGrowthResults : Obligations.RejoinAndGrowthResults := by
  unfold Obligations.RejoinAndGrowthResults
  refine ⟨fun h j r s c => ?_, fun h n s c hr hdiv hlow hhigh => ?_⟩
  · exact ⟨jenter_rejoined, jquit_rejoined, jwait_rejoined, jclr_rejoined, jload_rejoined, jmask_result h j r, jarr_result h j r,
      fun ht => ⟨fun hout hr => jwait_membership hr ht hout,
        fun harr => ⟨fun hr => jclr_membership hr ht harr, fun hr => jload_membership hr ht harr⟩⟩⟩
  · have hok := budgetOk_of hdiv hlow hhigh
    exact ⟨reggrow_keeps hr hok, reggrow_blocks hr hok⟩

end Sys2Proof.Proofs.Rejoin
end

section
/-! PROOFS. Special registers, FPSTAT and clk (R67, R68, R195, R196). -/

namespace Sys2Proof.Proofs.SpecialRegisters
open Sys2Proof.Machine Sys2Proof.Safety Sys2Proof.Laws Sys2Proof.Proofs.GangEffects Sys2Proof.Proofs.Traps

variable {i : Instr} {h : Hdr} {g : BitVec 3} {s : State} {c : Ctx} {body : Ctx → State → Eff}

/-! ### What the special registers read (R67) -/

/-- The words counted towards regions are in no special register of the gang. -/
theorem gangSpecial_counted (c : Ctx) (n : Nat) : (countedCtx c).gangSpecial n = c.gangSpecial n := by
  unfold Ctx.gangSpecial
  rw [countedCtx_G, counted_live]
  rfl

/-- Nor in one of a thread. -/
theorem threadSpecial_counted (c : Ctx) (n : Nat) {l : Nat} (hl : l < 32) :
    (countedCtx c).threadSpecial n l ((counted c c.G).lane l) = c.threadSpecial n l (c.G.lane l) :=
  counted_field (c.threadSpecial n l) (fun _ _ => rfl) c c.G l hl

theorem sget_result (h : Hdr) (d n : BitVec 6) : ScalarResult (.sget h d n) h 7 d fun c => (c.gangSpecial n.toNat).setWidth 72 :=
  fun _ c hr => writesScalar_ready (w := fun _ => ((countedCtx c).gangSpecial n.toNat).setWidth 72) hr rfl
    (congrArg (BitVec.setWidth 72) (gangSpecial_counted c n.toNat)) rfl

theorem vgetGang_result (h : Hdr) (v : BitVec 7) (n : BitVec 6) :
    VectorResult (.vgetGang h v n) h 7 v fun c _ => c.gangSpecial n.toNat := by
  intro s c hr
  have hwrite : GangOnly (exec (.vgetGang h v n) s) s c _ := lanesWriteVector (m := c.run) (d := v)
    (w := fun c _ _ => c.gangSpecial n.toNat) hr rfl (fun _ _ _ => gangSpecial_counted c n.toNat) rfl
  rwa [← act_always hr] at hwrite

theorem vgetThread_result (h : Hdr) (g : BitVec 3) (v : BitVec 7) (n : BitVec 6) :
    VectorResult (.vgetThread h g v n) h g v fun c l => c.threadSpecial n.toNat l (c.G.lane l) :=
  fun _ c hr => lanesWriteVector (w := fun c l t => c.threadSpecial n.toNat l t) hr rfl
    (fun _ hl _ => threadSpecial_counted c n.toNat hl) rfl

/-! ### An effect on the gang that leaves its threads all but their vector registers -/

/-- An instruction that changes its gang by a function F, and of its threads only the vector registers, to those that v says. -/
theorem vectors_ready (hr : Ready i h g s c) {F : Gang → Gang} {v : Nat → Vector Word 112} {P : Gang → Prop}
    (hb : body (countedCtx c) (s.modGang c.u c.g (counted c)) = .done ((s.modGang c.u c.g (counted c)).modGang c.u c.g F))
    (hsheaf : (F (counted c c.G)).sheaf = c.G.sheaf) (hchunk : (F (counted c c.G)).chunk = c.G.chunk)
    (hlane : ∀ l < 32, (F (counted c c.G)).lane l = { (counted c c.G).lane l with v := v l }) (hy : isYield i = false)
    (hP : ∀ G' : Gang, G' = { F (counted c c.G) with lanes := G'.lanes, sheaf := G'.sheaf, chunk := G'.chunk } →
      (∀ l < 32, (G'.lane l).v = v l) → PredsKept c G' → P G') :
    GangOnly (issue i h g body s) s c P := by
  have hmembers : (F (counted c c.G)).members ≠ 0 := by
    refine members_ne_zero (G := counted c c.G) hsheaf (fun l hl hlive => ?_) (by rw [counted_members]; exact ready_members hr)
    rw [hlane l hl]
    exact hlive
  have hcounted (l : Nat) (hl : l < 32) : ∃ r, (F (counted c c.G)).lane l = { { c.G.lane l with v := v l } with region := r } ∧
      r.isSome = (c.G.lane l).region.isSome := by
    obtain ⟨r, hregion, hsome⟩ := counted_is c l hl
    exact ⟨r, by rw [hlane l hl, hregion], hsome⟩
  obtain ⟨F', hnext, hrun, hwords, hgang, hlanes⟩ := goesOn_ready (m := 0) (T := fun l => { c.G.lane l with v := v l })
    (P := fun G' => G' = { F (counted c c.G) with lanes := G'.lanes, sheaf := G'.sheaf, chunk := G'.chunk } ∧
      ∀ l < 32, LaneIs c G' l { c.G.lane l with v := v l })
    hr hb (hsheaf.trans (map_out_zero _).symm) hchunk (fun l hl => ⟨hcounted l hl, rfl, rfl⟩) (not_yield hy c) (.inr hmembers)
    fun G' hG' hlanes => ⟨hG', hlanes⟩
  have hsheaf' : (F' c.G).sheaf = c.G.sheaf.map fun S => { S with pc := c.after, pos := S.pos + c.n } := by
    rw [hrun]
    simp
  refine ⟨F', hnext, ⟨hsheaf', hwords⟩, fun l hl => ?_, hP _ hgang (fun l hl => ?_) fun l hl => ?_⟩
  all_goals obtain ⟨hl', hregion⟩ := hlanes l hl
  · refine ⟨?_, hregion, ?_⟩
    · rw [hl']
    · rw [hl']
  · rw [hl']
  · rw [hl']

theorem counted_v (c : Ctx) {l : Nat} (hl : l < 32) : ((counted c c.G).lane l).v = (c.G.lane l).v :=
  counted_field (·.v) (fun _ _ => rfl) c c.G l hl

/-! ### FPSTAT (R68) -/

theorem sset_writes (d n : BitVec 6) (hr : Ready (.sset h d n) h 7 s c) :
    GangOnly (exec (.sset h d n) s) s c fun G' => GangKeptButFlags c G' ∧ VectorsKept c G' ∧ PredsKept c G' ∧
      G'.fpstat = (c.G.sreg d.toNat).extractLsb' 0 5 := by
  refine vectors_ready (F := fun G => { G with fpstat := (G.sreg d.toNat).extractLsb' 0 5 }) (v := fun l => (c.G.lane l).v)
    hr rfl rfl rfl (fun l hl => ?_) rfl fun G' hG' hv hp => ⟨?_, hv, hp, ?_⟩
  · rw [← counted_v c hl]
    rfl
  · rw [GangKeptButFlags, hG']
    rfl
  · rw [hG']
    rfl

/-! ### clk (R196) -/

/-- What clk logs, in a gang whose chunk a recorder or a replay follows. -/
def clkLogged (x : Dword) (G : Gang) : Gang := { G with chunk := G.chunk.map fun k => { k with clks := k.clks ++ [x] } }

theorem clkLogged_none (x : Dword) {G : Gang} (hchunk : G.chunk = none) : clkLogged x G = G := by
  rw [clkLogged, hchunk, Option.map_none, ← hchunk]

section Unlogged
variable {u k : Nat} {G : Gang} (hG : s.gang? u k = some G) (hchunk : G.chunk = none)
include hG hchunk

theorem clkValue_unlogged : s.clkValue u k = BitVec.ofNat 64 s.time := by
  unfold State.clkValue
  rw [hG, Option.bind_some, hchunk]
  split
  · next hnone => cases hnone
  · rfl

theorem clkLog_unlogged : s.clkLog u k = s.modGang u k (clkLogged (BitVec.ofNat 64 s.time)) := by
  unfold State.clkLog
  rw [clkValue_unlogged hG hchunk, hG, Option.bind_some, hchunk]
  dsimp only
  split
  · next hnone => cases hnone
  · rfl

end Unlogged

/-- The time goes on with the state, and a ready gang without a chunk has none once its words are counted. -/
theorem clkValue_ready (hr : Ready i h g s c) (hchunk : c.G.chunk = none) :
    (s.modGang c.u c.g (counted c)).clkValue c.u c.g = BitVec.ofNat 64 s.time :=
  clkValue_unlogged (counted_gang hr) hchunk

theorem clkLog_ready (hr : Ready i h g s c) (hchunk : c.G.chunk = none) : (s.modGang c.u c.g (counted c)).clkLog c.u c.g =
    (s.modGang c.u c.g (counted c)).modGang c.u c.g (clkLogged (BitVec.ofNat 64 s.time)) :=
  clkLog_unlogged (counted_gang hr) hchunk

theorem setWidth_time (t : Nat) : (BitVec.ofNat 64 t).setWidth 72 = BitVec.ofNat 72 (t % 2 ^ 64) := by
  rw [← BitVec.toNat_ofNat, BitVec.ofNat_toNat]

theorem clkScalar_writes (d : BitVec 6) (hr : Ready (.clkScalar h d) h 7 s c) (hchunk : c.G.chunk = none) :
    WritesScalar (exec (.clkScalar h d) s) s c d (BitVec.ofNat 72 (s.time % 2 ^ 64)) := by
  have hlogged := clkLogged_none (G := counted c c.G) (BitVec.ofNat 64 s.time) hchunk
  refine vectors_ready (F := fun G => (clkLogged (BitVec.ofNat 64 s.time) G).setSreg d.toNat ((BitVec.ofNat 64 s.time).setWidth 72))
    (v := fun l => (c.G.lane l).v) hr ?_ (by rw [hlogged]; rfl) (by rw [hlogged]; rfl) (fun l hl => ?_) rfl
    fun G' hG' hv hp => ⟨?_, hv, hp, fun r _ => ?_⟩
  · dsimp only [gangEff, countedCtx_u, countedCtx_g]
    rw [clkValue_ready hr hchunk, clkLog_ready hr hchunk, modGang_modGang]
  · rw [hlogged, ← counted_v c hl]
    rfl
  · rw [GangKeptButScalars, hG', hlogged]
    rfl
  · rw [hG', hlogged, ← setWidth_time]
    refine (vget_vset ..).trans ?_
    simp only [eq_comm (a := r), d.isLt, and_true]
    rfl

theorem clkVector_writes (v : BitVec 7) (hr : Ready (.clkVector h v) h 7 s c) (hchunk : c.G.chunk = none) :
    WritesPair (exec (.clkVector h v) s) s c v fun _ => BitVec.ofNat 64 s.time := by
  have hlogged := clkLogged_none (G := counted c c.G) (BitVec.ofNat 64 s.time) hchunk
  refine vectors_ready
    (F := fun G => (clkLogged (BitVec.ofNat 64 s.time) G).modLanes c.act fun _ t => t.setPair v.toNat (BitVec.ofNat 64 s.time))
    (v := fun l => if c.act.getLsbD l then ((c.G.lane l).setPair v.toNat (BitVec.ofNat 64 s.time)).v else (c.G.lane l).v)
    hr ?_ (by rw [hlogged]; rfl) (by rw [hlogged]; rfl) (fun l hl => ?_) rfl fun G' hG' hv hp => ⟨?_, hp, fun l hl r hr => ?_⟩
  · dsimp only [memberEff, countedCtx_u, countedCtx_g]
    rw [clkValue_ready hr hchunk, clkLog_ready hr hchunk, modGang_modGang, countedCtx_run, act_always hr]
  · rw [hlogged, modLanes_lane _ _ _ l hl]
    split
    · simp only [Lane.setPair, Lane.setReg, counted_v c hl]
    · rw [← counted_v c hl]
  · rw [GangKept, hG', hlogged]
    rfl
  · rw [Lane.reg, hv l hl]
    cases hact : c.act.getLsbD l
    · simp [Lane.reg]
    · simpa [Lane.reg] using setPair_reg (c.G.lane l) v.toNat r (BitVec.ofNat 64 s.time) hr

/-! ### The statement -/

/-- Settles O6: each instruction has its own theorem above. -/
theorem specialRegisterResults : Obligations.SpecialRegisterResults := by
  unfold Obligations.SpecialRegisterResults
  refine ⟨fun h g d v n => ?_, fun h d v s c hchunk => ?_⟩
  · exact ⟨sget_result h d n, vgetGang_result h v n, vgetThread_result h g v n, fun s c hr => sset_writes d n hr⟩
  · exact ⟨fun hr => clkScalar_writes d hr hchunk, fun hr => clkVector_writes v hr hchunk⟩

end Sys2Proof.Proofs.SpecialRegisters
end

section
/-! PROOFS. Load responses, draining gangs, register grants and evictions (R70-R73, R210). -/

namespace Sys2Proof.Proofs.RegisterEvents
open Sys2Proof.Machine Sys2Proof.Safety Sys2Proof.Laws Sys2Proof.Proofs.LaunchEnd Sys2Proof.Proofs.Blocks Sys2Proof.Proofs.Traps

variable {s : State} {u g k core quad : Nat} {b : Block} {G : Gang}

/-! ### Responses (R210) -/

theorem modLane_lane (G : Gang) (k : Nat) (f : Lane → Lane) {l : Nat} (hl : l < 32) :
    (G.modLane k f).lane l = if k = l then f (G.lane l) else G.lane l := by
  refine (vget_vset ..).trans ?_
  by_cases hk : k = l
  · rw [if_pos ⟨hk, hk ▸ hl⟩, if_pos hk, hk]
  · rw [if_neg fun h => hk h.1, if_neg hk]
    rfl

theorem land_concat (G : Gang) (ws : List (Nat × Nat × Word)) (w : Nat × Nat × Word) :
    G.land (ws ++ [w]) = (G.land ws).modLane w.1 fun t => t.setReg w.2.1 w.2.2 := List.foldl_concat ..

theorem land_kept (G : Gang) (ws : List (Nat × Nat × Word)) : G.land ws = { G with lanes := (G.land ws).lanes } := by
  induction ws using List.reverseRecOn with
  | nil => rfl
  | append_singleton ws w ih =>
    rw [land_concat, Gang.modLane, ih]

theorem land_lane (G : Gang) (ws : List (Nat × Nat × Word)) {l : Nat} (hl : l < 32) :
    (G.land ws).lane l = { G.lane l with v := ((G.land ws).lane l).v } := by
  induction ws using List.reverseRecOn with
  | nil => rfl
  | append_singleton ws w ih =>
    rw [land_concat, modLane_lane _ _ _ hl]
    split
    · rw [ih]
      rfl
    · exact ih

/-- A register holds what the last write to it brought. -/
theorem land_reg (G : Gang) (ws : List (Nat × Nat × Word)) {l n : Nat} (hl : l < 32) (hn : n < 112) :
    ((G.land ws).lane l).reg n =
      ((ws.reverse.find? fun w => decide (w.1 = l ∧ w.2.1 = n)).map (·.2.2)).getD ((G.lane l).reg n) := by
  induction ws using List.reverseRecOn with
  | nil => rfl
  | append_singleton ws w ih =>
    rw [land_concat, modLane_lane _ _ _ hl, List.reverse_concat, List.find?_cons]
    by_cases hlane : w.1 = l
    · rw [if_pos hlane, setReg_reg]
      by_cases hreg : w.2.1 = n
      · simp [hlane, hreg, hn]
      · simpa [hlane, hreg] using ih
    · simpa [hlane] using ih

/-- The gang once response k has landed. -/
def responded (ws : List (Nat × Nat × Word)) (k : Nat) (G : Gang) : Gang :=
  { G.land ws with resp := G.resp.take k ++ G.resp.drop (k + 1) }

theorem exec_loadResponse {r : Resp} (hG : s.gang? u g = some G) (hr : G.resp[k]? = some r) :
    exec (.loadResponse u g k) s = .next (s.modGang u g (responded r.writes k)) := by
  change execLoadResponse u g k s = _
  rw [execLoadResponse, hG, Option.bind_some, hr]
  rfl

theorem responded_kept (G : Gang) (ws : List (Nat × Nat × Word)) (k : Nat) :
    responded ws k G = { G with lanes := (responded ws k G).lanes, resp := G.resp.eraseIdx k } := by
  rw [List.eraseIdx_eq_take_drop_succ, responded, land_kept]

/-! ### Drains (R22, R73) -/

/-- A gang that has drained. -/
def drained (G : Gang) : Gang := { G with drained := true }

theorem exec_gangDrain (hG : s.gang? u g = some G) (hlive : G.live = 0) (hsettled : G.settled = true) (hnot : G.drained = false) :
    exec (.gangDrain u g) s = .next ((s.modGang u g drained).checkBlock u) := by
  change execGangDrain u g s = _
  rw [execGangDrain, hG]
  exact if_pos ⟨hlive, hsettled, by simp [hnot]⟩

/-- A block whose gang g drains has drained when its other gangs have. -/
theorem all_drained_iff (b : Block) (g : Nat) : (b.modGang g drained).gangs.all (·.drained) = true ↔
    ∀ i (G' : Gang), b.gangs[i]? = some G' → i ≠ g → G'.drained = true := by
  have hget (i : Nat) : (b.modGang g drained).gangs[i]? = (b.gangs[i]?).map fun K => if g = i then drained K else K := by
    rw [Block.modGang, List.getElem?_modify]
    rfl
  rw [List.all_eq_true]
  constructor
  · intro hall i G' hi hne
    have hi' := hget i
    rw [hi, Option.map_some, if_neg hne.symm] at hi'
    exact hall G' (List.mem_of_getElem? hi')
  · intro hothers K hK
    obtain ⟨i, hi⟩ := List.getElem?_of_mem hK
    rw [hget] at hi
    obtain ⟨H, hH, rfl⟩ := Option.map_eq_some_iff.1 hi
    split
    · rfl
    · next hne => exact hothers i H hH (Ne.symm hne)

theorem checkBlock_modGang (hb : s.block? u = some b) (F : Gang → Gang) : (s.modGang u g F).checkBlock u =
    if (b.modGang g F).gangs.all (·.drained) && b.jobs.isEmpty then (s.modGang u g F).completeBlock (b.modGang g F)
    else s.modGang u g F := by
  unfold State.checkBlock
  rw [block?_modGang, hb]
  rfl

/-- The last gang of a block without jobs drains: the block completes. -/
theorem completes_of_last (hb : s.block? u = some b)
    (hlast : b.jobs = [] ∧ ∀ i (G' : Gang), b.gangs[i]? = some G' → i ≠ g → G'.drained = true) :
    (s.modGang u g drained).checkBlock u = (s.modGang u g drained).completeBlock (b.modGang g drained) := by
  rw [checkBlock_modGang hb, (all_drained_iff b g).2 hlast.2, hlast.1]
  rfl

theorem stays_of_not_last (hb : s.block? u = some b)
    (hlast : ¬ (b.jobs = [] ∧ ∀ i (G' : Gang), b.gangs[i]? = some G' → i ≠ g → G'.drained = true)) :
    (s.modGang u g drained).checkBlock u = s.modGang u g drained := by
  rw [checkBlock_modGang hb, if_neg]
  rw [Bool.and_eq_true, List.isEmpty_iff, all_drained_iff]
  exact fun h => hlast h.symm

theorem completeBlock_removes (hu : b.uid = u) : ∀ x ∈ (s.completeBlock b).blocks, x.uid ≠ u := by
  intro x hx
  exact hu ▸ of_decide_eq_true (List.mem_filter.1 hx).2

theorem checkBlock_mem (s : State) (u : Nat) : (s.checkBlock u).mem = s.mem := by
  unfold State.checkBlock
  split
  · rfl
  · split <;> rfl

/-! ### The order of grants (R71) -/

/-- A gang that asks for registers: it waits in reggrow, or it was evicted. -/
def Asking (G : Gang) : Prop := G.grow.isSome = true ∨ G.evicted = true

theorem grantFrom_cons_idle (s : State) (core quad u : Nat) (hidle : G.grow = none ∧ G.evicted = false) (xs : List (Nat × Gang)) :
    s.grantFrom core quad ((u, G) :: xs) = s.grantFrom core quad xs := by
  rw [State.grantFrom]
  exact if_pos (by simp [hidle])

theorem grantFrom_cons_asking (s : State) (core quad u : Nat) (hask : Asking G) (xs : List (Nat × Gang)) :
    s.grantFrom core quad ((u, G) :: xs) =
      if s.freeGranules core quad < G.asks then s else (s.modGang u G.idx Gang.granted).grantFrom core quad xs := by
  rw [State.grantFrom]
  refine if_neg fun hidle => ?_
  rcases hask with hgrow | hevicted
  · simp [Option.isNone_iff_eq_none.1 hidle.1] at hgrow
  · exact hidle.2 hevicted

theorem grantFrom_skip (s : State) (core quad : Nat) {pre : List (Nat × Gang)}
    (hpre : ∀ x ∈ pre, x.2.grow = none ∧ x.2.evicted = false) (xs : List (Nat × Gang)) :
    s.grantFrom core quad (pre ++ xs) = s.grantFrom core quad xs := by
  induction pre with
  | nil => rfl
  | cons x pre ih =>
    obtain ⟨hx, hpre⟩ := List.forall_mem_cons.1 hpre
    exact (grantFrom_cons_idle s core quad x.1 hx _).trans (ih hpre)

theorem gang?_modGang_other (s : State) (u g : Nat) (F : Gang → Gang) {v k : Nat} (hne : ¬ (u = v ∧ g = k)) :
    (s.modGang u g F).gang? v k = s.gang? v k := by
  by_cases hv : v = u
  · subst hv
    have hk : g ≠ k := fun hk => hne ⟨rfl, hk⟩
    rw [State.gang?, block?_modGang, State.gang?]
    cases s.block? v with
    | none => rfl
    | some b => simp [Block.modGang, hk]
  · rw [State.gang?, (blockOnly_modGang s u g F).2 v hv]
    rfl

/-- Grants change the gangs that they name, and nothing else. -/
theorem grantFrom_frame (s : State) (core quad : Nat) (xs : List (Nat × Gang)) :
    s.grantFrom core quad xs = { s with blocks := (s.grantFrom core quad xs).blocks } ∧
      ∀ v k, (∀ x ∈ xs, ¬ (x.1 = v ∧ x.2.idx = k)) → (s.grantFrom core quad xs).gang? v k = s.gang? v k := by
  induction xs generalizing s with
  | nil => exact ⟨rfl, fun _ _ _ => rfl⟩
  | cons x xs ih =>
    obtain ⟨u, G⟩ := x
    rw [State.grantFrom]
    split
    · exact ⟨(ih s).1, fun v k hother => (ih s).2 v k (List.forall_mem_cons.1 hother).2⟩
    · split
      · exact ⟨rfl, fun _ _ _ => rfl⟩
      · obtain ⟨hframe, hgangs⟩ := ih (s.modGang u G.idx Gang.granted)
        refine ⟨by rw [hframe]; rfl, fun v k hother => ?_⟩
        obtain ⟨hx, hxs⟩ := List.forall_mem_cons.1 hother
        exact (hgangs v k hxs).trans (gang?_modGang_other s u G.idx Gang.granted hx)

/-- The quadrant serves the first gang that asks, and then gangs behind it in the order. -/
theorem grants_first {pre post : List (Nat × Gang)} (horder : s.quadOrder core quad = pre ++ (u, G) :: post)
    (hpre : ∀ x ∈ pre, x.2.grow = none ∧ x.2.evicted = false)
    (hask : G.grow.isSome = true ∨ (G.evicted = true ∧ s.evicting core quad = false)) :
    ∃ xs, (∀ x ∈ xs, x ∈ post) ∧ s.grants core quad = s.grantFrom core quad ((u, G) :: xs) := by
  unfold State.grants
  dsimp only
  rw [horder]
  cases hevicting : s.evicting core quad with
  | false =>
    rw [if_neg Bool.false_ne_true, grantFrom_skip s core quad hpre]
    exact ⟨post, fun _ hx => hx, rfl⟩
  | true =>
    have hgrow : G.grow.isSome = true := hask.resolve_right fun h => by simp [hevicting] at h
    rw [if_pos rfl, List.filter_append, grantFrom_skip s core quad fun x hx => hpre x (List.mem_filter.1 hx).1,
      List.filter_cons_of_pos (a := (u, G)) hgrow]
    exact ⟨_, fun x hx => (List.mem_filter.1 hx).1, rfl⟩

/-! ### What a grant brings (R70, R72, R75) -/

/-- The budget after a grant. -/
def budget (G : Gang) : Nat := max ((G.grow.map (·.1)).getD 0) G.vb

/-- The registers of a lane as its gang's save area holds them, where it has one. -/
def returning (G : Gang) (l : Nat) : Lane := if G.area = [] then G.lane l else (G.lane l).loadRegs G.area l

/-- A thread with n registers from a on zero. -/
def zeroed (a n : Nat) (t : Lane) : Lane := (List.range n).foldl (fun t i => t.setReg (a + i) 0) t

/-- A thread that no longer waits in reggrow. -/
def resumed (t : Lane) : Lane := { t with st := if t.st = .blocked .reggrow then .eligible else t.st }

theorem granted_lane (G : Gang) {l : Nat} (hl : l < 32) :
    G.granted.lane l = resumed (zeroed (G.vb - 8) (budget G - G.vb) (returning G l)) := by
  have hback : (if (!G.area.isEmpty) = true then (G.lane l).loadRegs G.area l else G.lane l) = returning G l := by
    unfold returning
    cases G.area <;> rfl
  refine (modLanes_lane G _ _ l hl).trans ?_
  dsimp only
  rw [BitVec.getLsbD_allOnes, decide_eq_true hl, if_pos rfl, hback]
  unfold resumed zeroed budget
  split
  · rfl
  · rfl

theorem granted_kept (G : Gang) : G.granted = { G with
    lanes := G.granted.lanes, s := G.granted.s, vb := budget G, grow := none, evicted := false, area := [] } := rfl

theorem granted_scalars (G : Gang) : G.granted.s = if G.area = [] then G.s else savedScalars G.area := by
  rw [Gang.granted]
  cases G.area <;> rfl

theorem returning_kept (G : Gang) (l : Nat) : returning G l = { G.lane l with v := (returning G l).v } := by
  unfold returning
  split <;> rfl

theorem zeroed_succ (a n : Nat) (t : Lane) : zeroed a (n + 1) t = (zeroed a n t).setReg (a + n) 0 := by
  rw [zeroed, List.range_succ, List.foldl_concat, zeroed]

theorem zeroed_kept (a n : Nat) (t : Lane) : zeroed a n t = { t with v := (zeroed a n t).v } := by
  induction n with
  | zero => rfl
  | succ n ih => rw [zeroed_succ, Lane.setReg, ih]

theorem zeroed_reg (a n : Nat) (t : Lane) {r : Nat} (hr : r < 112) :
    (zeroed a n t).reg r = if a ≤ r ∧ r < a + n then 0 else t.reg r := by
  induction n with
  | zero => rw [if_neg (by omega)]; rfl
  | succ n ih =>
    rw [zeroed_succ, setReg_reg, ih]
    by_cases hlast : a + n = r
    · rw [if_pos ⟨hlast, by omega⟩, if_pos (by omega)]
    · rw [if_neg fun h => hlast h.1]
      exact if_congr (by omega) rfl rfl

theorem granted_lane_kept (G : Gang) {l : Nat} (hl : l < 32) : G.granted.lane l = { G.lane l with
    v := (G.granted.lane l).v
    st := if (G.lane l).st = .blocked .reggrow then .eligible else (G.lane l).st } := by
  rw [granted_lane G hl, resumed, zeroed_kept, returning_kept]

/-- The added registers read zero, and the others as before, or as the save area holds them. -/
theorem granted_reg (G : Gang) (hvb : 8 ≤ G.vb) {l r : Nat} (hl : l < 32) (hr : r < 112) : (G.granted.lane l).reg r =
    if G.vb ≤ r + 8 ∧ r + 8 < budget G then 0
    else if G.area = [] then (G.lane l).reg r else ((G.lane l).loadRegs G.area l).reg r := by
  have hbudget : G.vb ≤ budget G := Nat.le_max_right ..
  rw [granted_lane G hl]
  refine (zeroed_reg _ _ (returning G l) hr).trans (if_congr (by omega) rfl ?_)
  exact apply_ite (Lane.reg · r) ..

/-! ### Evictions (R72) -/

theorem waitedLong_of {w : Nat × Gang} (hfirst : s.firstWaiter core quad = some w)
    (hlong : ∃ x t, w.2.grow = some (x, t) ∧ t + 1048576 ≤ s.time) : s.waitedLong core quad = true := by
  obtain ⟨x, t, hgrow, htime⟩ := hlong
  unfold State.waitedLong
  rw [hfirst]
  dsimp only
  rw [hgrow]
  exact decide_eq_true htime

theorem evicting_of_waitedLong {w : Nat × Gang} (hfirst : s.firstWaiter core quad = some w) (hlong : s.waitedLong core quad = true) :
    s.evicting core quad = true := by
  rw [State.evicting, hfirst, hlong, Bool.or_true]
  rfl

/-- The last gang that holds registers, other than the first waiter. -/
theorem victim_eq {w : Nat × Gang} {pre post : List (Nat × Gang)} (hfirst : s.firstWaiter core quad = some w)
    (horder : s.quadOrder core quad = pre ++ (u, G) :: post) (hholds : G.evicted = false) (hother : ¬ (u = w.1 ∧ G.idx = w.2.idx))
    (hpost : ∀ x ∈ post, x.2.evicted = true ∨ (x.1 = w.1 ∧ x.2.idx = w.2.idx)) : s.victim core quad = some (u, G) := by
  unfold State.victim
  rw [hfirst]
  dsimp only
  have hnone : post.filter (fun x => !x.2.evicted && !decide (x.1 = w.1 ∧ x.2.idx = w.2.idx)) = [] :=
    List.filter_eq_nil_iff.2 fun x hx => by rcases hpost x hx with hevicted | hwaiter <;> simp [*]
  rw [horder, List.filter_append, List.filter_cons_of_pos (by simp [hholds, hother]), hnone, List.getLast?_concat]

/-- A gang that gives way: its registers are in its save area. -/
def evicted (G : Gang) : Gang := { G with evicted := true, area := G.saveArea }

theorem evict_eq (hserved : s.grants core quad = s) (hevicting : s.evicting core quad = true) (hvictim : s.victim core quad = some (u, G))
    (hevictable : G.evictable = true) : s.evict core quad = (s.modGang u G.idx evicted).grants core quad := by
  unfold State.evict
  dsimp only
  rw [hserved, hevicting, hvictim]
  exact if_pos hevictable

/-! ### The events -/

theorem loadResponse_lands {r : Resp} (hG : s.gang? u g = some G) (hr : G.resp[k]? = some r) :
    ∃ F : Gang → Gang, exec (.loadResponse u g k) s = .next (s.modGang u g F) ∧
      F G = { G with lanes := (F G).lanes, resp := G.resp.eraseIdx k } ∧
      ∀ l < 32, (F G).lane l = { G.lane l with v := ((F G).lane l).v } ∧
        ∀ n < 112, ((F G).lane l).reg n
          = ((r.writes.reverse.find? fun w => decide (w.1 = l ∧ w.2.1 = n)).map (·.2.2)).getD ((G.lane l).reg n) :=
  ⟨responded r.writes k, exec_loadResponse hG hr, responded_kept G r.writes k,
    fun _ hl => ⟨land_lane G r.writes hl, fun _ hn => land_reg G r.writes hl hn⟩⟩

theorem gangDrain_completes (hb : s.block? u = some b)
    (hlast : b.jobs = [] ∧ ∀ i (G' : Gang), b.gangs[i]? = some G' → i ≠ g → G'.drained = true) :
    (∀ x ∈ ((s.modGang u g drained).checkBlock u).blocks, x.uid ≠ u) ∧ ∀ L, s.launch? b.launch = some L →
      ∃ L', ((s.modGang u g drained).checkBlock u).launch? b.launch = some L' ∧ L'.done = L.done + 1 := by
  rw [completes_of_last hb hlast]
  refine ⟨completeBlock_removes ((modGang_uid ..).trans (block_uid hb)), fun L hL => ?_⟩
  obtain ⟨L', hL', hdone, -⟩ := launch?_completeBlock (s := s.modGang u g drained) (b := b.modGang g drained) hL
  exact ⟨L', hL', hdone⟩

theorem exec_reggrowGrant (s : State) (core quad : Nat) : exec (.reggrowGrant core quad) s = .next (s.grants core quad) := rfl

/-- The first gang that asks gets its registers; what is granted behind it is another's. -/
theorem grantFrom_grants (hG : s.gang? u G.idx = some G) {xs : List (Nat × Gang)} (hxs : ∀ x ∈ xs, ¬ (x.1 = u ∧ x.2.idx = G.idx)) :
    let t := (s.modGang u G.idx Gang.granted).grantFrom core quad xs
    t = { s with blocks := t.blocks } ∧ t.gang? u G.idx = some G.granted := by
  obtain ⟨hframe, hgangs⟩ := grantFrom_frame (s.modGang u G.idx Gang.granted) core quad xs
  refine ⟨by rw [hframe]; rfl, ?_⟩
  rw [hgangs u G.idx hxs, gang?_modGang, hG, Option.map_some]

/-! ### The statement -/

/-- Settles O29: each event has its own theorems above. -/
theorem registerEvents : Obligations.RegisterEvents := by
  unfold Obligations.RegisterEvents
  intro u g k core quad s G
  refine ⟨fun r hG hr => loadResponse_lands hG hr, fun b hb hG hlive hsettled hnot => ?_,
    fun pre post horder hpre hask hG hvb hpost => ?_, fun w pre post hfirst hlong hserved horder hholds hother hpost hevictable => ?_⟩
  · have hgang : s.gang? u g = some G := by rw [State.gang?, hb]; exact hG
    exact ⟨_, exec_gangDrain hgang hlive hsettled hnot, checkBlock_mem .., gangDrain_completes hb, stays_of_not_last hb⟩
  · obtain ⟨xs, hxs, hgrants⟩ := grants_first horder hpre hask
    rw [grantFrom_cons_asking s core quad u (hask.imp_right And.left)] at hgrants
    rw [exec_reggrowGrant, hgrants]
    refine ⟨fun hfull => by rw [if_pos hfull], fun hroom => ?_⟩
    rw [if_neg (Nat.not_lt.2 hroom)]
    obtain ⟨hframe, hgranted⟩ := grantFrom_grants (core := core) (quad := quad) hG fun x hx => hpost x (hxs x hx)
    exact ⟨_, _, rfl, hframe, hgranted, granted_kept G, granted_scalars G,
      fun l hl => ⟨granted_lane_kept G hl, fun r hr => granted_reg G hvb hl hr⟩⟩
  · have hwaited := waitedLong_of hfirst hlong
    have hevicting := evicting_of_waitedLong hfirst hwaited
    have hevict := evict_eq hserved hevicting (victim_eq hfirst horder hholds hother hpost) hevictable
    exact ⟨(if_pos hevicting).trans (congrArg _ hevict), (if_pos hwaited).trans (congrArg _ hevict)⟩

end Sys2Proof.Proofs.RegisterEvents
end

section
/-! PROOFS. The five rounding modes on a fraction (R83, R171). -/

namespace Sys2Proof.Proofs.Rounding
open Sys2Proof.Machine

/-- Whether a fraction r of 2 * half above an integer k is rounded to the next integer. -/
def roundsUp (mode : Nat) (neg : Bool) (k r half : Nat) : Bool :=
  match mode with
  | 0 => decide (half < r) || (decide (r = half) && decide (k % 2 = 1))
  | 1 => false
  | 2 => decide (r ≠ 0) && !neg
  | 3 => decide (r ≠ 0) && neg
  | _ => decide (half ≤ r)

/-- A multiple of 2^-n is rounded to the integer below or above it, and the result is inexact where the two differ. -/
theorem roundTo_fraction (mode : Nat) (neg : Bool) (m : Nat) {n : Nat} (hn : 0 < n) :
    roundTo mode neg m (-(n : Int)) false 0 =
      (if roundsUp mode neg (m / 2 ^ n) (m % 2 ^ n) (2 ^ (n - 1)) then m / 2 ^ n + 1 else m / 2 ^ n, decide (m % 2 ^ n ≠ 0)) := by
  have hneg : ¬ (0 : Int) ≤ -(n : Int) := by omega
  have hshift : ((0 : Int) - -(n : Int)).toNat = n := by omega
  rw [roundTo, if_neg hneg, hshift]
  simp only [Bool.false_or, Bool.or_false]
  rfl

section Modes
variable {k r half m : Nat} (hm : m = k * (2 * half) + r) (hr : r < 2 * half)
include hm hr

/-- The integer k where nothing is rounded up. -/
theorem cut_bounds : k * (2 * half) ≤ m ∧ m < (k + 1) * (2 * half) := by
  rw [Nat.add_one_mul k]
  omega

/-- The integer above m, or m itself. -/
theorem raised_bounds {up : Bool} (hup : up = decide (r ≠ 0)) :
    let k' := if up then k + 1 else k
    m ≤ k' * (2 * half) ∧ k' * (2 * half) < m + 2 * half := by
  by_cases hzero : r = 0
  · rw [hup, decide_eq_false (not_not.2 hzero)]
    simp only [Bool.false_eq_true, if_false]
    omega
  · rw [hup, decide_eq_true hzero]
    simp only [if_true, Nat.add_one_mul k]
    omega

theorem nearestEven_bounds (neg : Bool) :
    let k' := if roundsUp 0 neg k r half then k + 1 else k
    2 * (k' * (2 * half)) ≤ 2 * m + 2 * half ∧ 2 * m ≤ 2 * (k' * (2 * half)) + 2 * half ∧
      (2 * (k' * (2 * half)) = 2 * m + 2 * half ∨ 2 * m = 2 * (k' * (2 * half)) + 2 * half → k' % 2 = 0) := by
  dsimp only
  split
  · next hup =>
    have hup : half < r ∨ r = half ∧ k % 2 = 1 := by simpa [roundsUp] using hup
    rw [Nat.add_one_mul k]
    omega
  · next hdown =>
    have hdown : r ≤ half ∧ (r = half → k % 2 = 0) := by simpa [roundsUp] using hdown
    omega

theorem nearestAway_bounds (neg : Bool) :
    let k' := if roundsUp 4 neg k r half then k + 1 else k
    2 * m < 2 * (k' * (2 * half)) + 2 * half ∧ 2 * (k' * (2 * half)) ≤ 2 * m + 2 * half := by
  dsimp only
  split
  · next hup =>
    have hup : half ≤ r := by simpa [roundsUp] using hup
    rw [Nat.add_one_mul k]
    omega
  · next hdown =>
    have hdown : r < half := by simpa [roundsUp] using hdown
    omega

end Modes

/-- Settles O13: m * 2^-n lies between two neighbouring integers, and each mode has its own rule above for which of them it takes. -/
theorem roundingModes : Obligations.RoundingModes := by
  unfold Obligations.RoundingModes
  intro neg m n hn
  have hpow : 2 ^ n = 2 * 2 ^ (n - 1) := by rw [← pow_succ', Nat.sub_add_cancel hn]
  simp only [roundTo_fraction _ neg m hn]
  have hm : m = m / 2 ^ n * (2 * 2 ^ (n - 1)) + m % 2 ^ n := by rw [← hpow, Nat.div_add_mod']
  have hr : m % 2 ^ n < 2 * 2 ^ (n - 1) := hpow ▸ Nat.mod_lt m (Nat.two_pow_pos n)
  generalize m / 2 ^ n = k, m % 2 ^ n = r at hm hr ⊢
  rw [hpow]
  refine ⟨nearestEven_bounds hm hr neg, cut_bounds hm hr, ?_, ?_, nearestAway_bounds hm hr neg, fun _ _ => trivial⟩
  · cases neg with
    | true => simpa [roundsUp] using cut_bounds hm hr
    | false => exact raised_bounds hm hr (by simp [roundsUp])
  · cases neg with
    | true => exact raised_bounds hm hr (by simp [roundsUp])
    | false => simpa [roundsUp] using cut_bounds hm hr

end Sys2Proof.Proofs.Rounding
end

section
/-! PROOFS. Scalar-format arithmetic rounds its exact result once and raises its flags (R84, R86, R255). O10 fails for a first operand
that is no vector register: the machine reads it as a source, so that its code names a broadcast scalar (R64). -/

namespace Sys2Proof.Proofs.FloatArithmetic
open Sys2Proof.Machine Sys2Proof.Safety Sys2Proof.Laws

variable {i : Instr} {h : Hdr} {g : BitVec 3} {s : State} {c : Ctx} {body : Ctx → State → Eff}

/-! ### Flags (R68, R88) -/

/-- A gang whose active threads have raised flags. -/
def raised (c : Ctx) (fl : Nat → BitVec 5) (G : Gang) : Gang :=
  { G with
    fpstat := G.fpstat ||| flagsOver c.act fl
    sheaf := G.sheaf.map fun S => { S with fp := pendingFp c fl S.fp } }

theorem raiseFlags_eq (s : State) (c : Ctx) (fl : Nat → BitVec 5) : s.raiseFlags c c.act fl = s.modGang c.u c.g (raised c fl) := by
  have hpending (S : Sheaf) : (if S.fp.isNone ∧ enabledLanes c fl ≠ 0 then
      { S with fp := some ⟨enabledLanes c fl, flagsOver c.act fun l => fl l &&& c.L.r.fpEnables, c.pc, c.pos⟩ } else S) =
      { S with fp := pendingFp c fl S.fp } := by
    obtain ⟨_, _, _, _, fp, _⟩ := S
    cases fp with
    | some f => simp [pendingFp]
    | none => by_cases hnone : enabledLanes c fl = 0#32 <;> simp [pendingFp, hnone]
  refine congrArg (s.modGang c.u c.g) (funext fun G => ?_)
  rw [raised, ← funext hpending]
  rfl

theorem flagsOver_congr {m : BitVec 32} {fl fl' : Nat → BitVec 5} (hfl : ∀ l < 32, fl l = fl' l) : flagsOver m fl = flagsOver m fl' :=
  List.foldl_ext _ _ _ fun x l hl => by rw [hfl l (lanesOf_mem.1 hl).1]

theorem enabledLanes_congr {fl fl' : Nat → BitVec 5} (hfl : ∀ l < 32, fl l = fl' l) : enabledLanes c fl = enabledLanes c fl' :=
  mask_ext _ _ fun l hl => by rw [enabledLanes, enabledLanes, maskOf_lane _ l hl, maskOf_lane _ l hl, hfl l hl]

/-- Only the flags of the 32 lanes matter. -/
theorem raised_congr {fl fl' : Nat → BitVec 5} (hfl : ∀ l < 32, fl l = fl' l) : raised c fl = raised c fl' := by
  have hpending (old : Option FpTrap) : pendingFp c fl old = pendingFp c fl' old := by
    have hflags : flagsOver c.act (fun l => fl l &&& c.L.r.fpEnables) = flagsOver c.act fun l => fl' l &&& c.L.r.fpEnables :=
      flagsOver_congr fun l hl => by rw [hfl l hl]
    unfold pendingFp
    rw [enabledLanes_congr hfl, hflags]
  funext G
  simp only [raised, flagsOver_congr hfl, hpending]

theorem raised_countedCtx (fl : Nat → BitVec 5) : raised (countedCtx c) fl = raised c fl := rfl

theorem raised_members (fl : Nat → BitVec 5) (G : Gang) : (raised c fl G).members = G.members := by
  unfold Gang.members raised
  cases G.sheaf <;> rfl

theorem raised_commit (fl : Nat → BitVec 5) {G : Gang} (hcommit : ∀ S, G.sheaf = some S → S.commit = none) :
    ∀ S, (raised c fl G).sheaf = some S → S.commit = none := by
  intro S hS
  obtain ⟨S', hS', rfl⟩ := Option.map_eq_some_iff.1 hS
  exact hcommit S' hS'

/-! ### An instruction that writes registers of its active lanes and raises flags -/

/-- What an instruction that changes registers and predicates of its active threads, and raises flags, does to the gang and to
each thread. -/
theorem raises_ready (hr : Ready i h g s c) {f : Ctx → Nat → Lane → Lane} {fl fl' : Nat → BitVec 5}
    (hb : body (countedCtx c) (s.modGang c.u c.g (counted c)) = .done (((s.modGang c.u c.g (counted c)).modGang c.u c.g
      fun G => G.modLanes c.act (f (countedCtx c))).raiseFlags (countedCtx c) c.act fl))
    (hf : ∀ l t, let t' := f (countedCtx c) l t
      t' = { t with v := t'.v, p := t'.p, region := t'.region } ∧ t'.region.isSome = t.region.isSome)
    (hfl : ∀ l < 32, fl l = fl' l) (hy : isYield i = false) :
    RaisesFlags (issue i h g body s) s c fl' fun G' => G'.s = c.G.s ∧ ∀ l < 32,
      (G'.lane l).v = (laneAfter c c.act f l).v ∧ (G'.lane l).p = (laneAfter c c.act f l).p := by
  obtain ⟨-, hcommit⟩ := ready_sheaf hr
  rw [← countedCtx_act c, raiseFlags_eq, raised_countedCtx, raised_congr hfl, countedCtx_act, countedCtx_u, countedCtx_g,
    modGang_modGang] at hb
  have hmembers : (raised c fl' ((counted c c.G).modLanes c.act (f (countedCtx c)))).members ≠ 0 := by
    rw [raised_members, modLanes_members _ _ _ fun l _ => by rw [(hf l _).1], counted_members]
    exact ready_members hr
  have hexec := gang_ready hr (F := fun G => raised c fl' (G.modLanes c.act (f (countedCtx c)))) hb (raised_commit fl' hcommit)
    (not_yield hy c) (.inr hmembers)
  have hlane (l : Nat) (hl : l < 32) : LaneIs c (moved c (tagged i c (raised c fl' ((counted c c.G).modLanes c.act (f (countedCtx c))))))
      l { c.G.lane l with v := (laneAfter c c.act f l).v, p := (laneAfter c c.act f l).p } :=
    moved_laneIs hl (laneAfter_kept c c.act f hf l hl) rfl rfl
  refine ⟨_, hexec, ?_, fun l hl => ?_, ?_, fun l hl => ?_⟩
  · obtain ⟨v, hv⟩ := moved_tagged i c (raised c fl' ((counted c c.G).modLanes c.act (f (countedCtx c))))
    rw [hv, raised, Option.map_map]
    rfl
  · obtain ⟨hl', hregion⟩ := hlane l hl
    refine ⟨?_, hregion, ?_⟩
    · rw [hl']
    · rw [hl']
  · rfl
  · obtain ⟨hl', -⟩ := hlane l hl
    rw [hl']
    exact ⟨rfl, rfl⟩

/-! ### Results in a register or a pair -/

section Lanes
variable {G' : Gang} {f : Ctx → Nat → Lane → Lane} {d : BitVec 7}

theorem predsKept_of_lanes (hf : ∀ l t, (f (countedCtx c) l t).p = t.p)
    (hp : ∀ l < 32, (G'.lane l).p = (laneAfter c c.act f l).p) : PredsKept c G' := by
  intro l hl
  have hcounted : ((counted c c.G).lane l).p = (c.G.lane l).p := counted_field (·.p) (fun _ _ => rfl) c c.G l hl
  rw [hp l hl, laneAfter, apply_ite Lane.p, hf, ite_self, hcounted]

theorem vectorIs_of_lanes {w : Nat → Word} (hf : ∀ l < 32, ∀ t, f (countedCtx c) l t = t.setReg d.toNat (w l))
    (hv : ∀ l < 32, (G'.lane l).v = (laneAfter c c.act f l).v) : VectorIs c G' d.toNat w := by
  intro l hl r hr
  have hreg : (G'.lane l).reg r = (laneAfter c c.act f l).reg r := congrArg (vget · r 0) (hv l hl)
  rw [hreg, laneAfter, hf l hl]
  cases c.act.getLsbD l
  · simp [counted_reg c c.G l hl]
  · have hwritten : d.toNat = r ∧ d.toNat < 112 ↔ r = d.toNat := by omega
    simp [setReg_reg, counted_reg c c.G l hl, hwritten]

theorem pairIs_of_lanes {w : Nat → Dword} (hf : ∀ l < 32, ∀ t, f (countedCtx c) l t = t.setPair d.toNat (w l))
    (hv : ∀ l < 32, (G'.lane l).v = (laneAfter c c.act f l).v) : PairIs c G' d.toNat w := by
  intro l hl r hr
  have hreg : (G'.lane l).reg r = (laneAfter c c.act f l).reg r := congrArg (vget · r 0) (hv l hl)
  rw [hreg, laneAfter, hf l hl]
  cases c.act.getLsbD l
  · simp [counted_reg c c.G l hl]
  · simp [setPair_reg _ _ _ _ hr, counted_reg c c.G l hl]

end Lanes

variable {d : BitVec 7} {res : Ctx → Nat → Nat × BitVec 5} {val : Nat → Nat × BitVec 5}

theorem fpOp_register (hr : Ready i h g s c) (hval : ∀ l < 32, res (countedCtx c) l = val l) (hy : isYield i = false) :
    RaisesFlags (issue i h g (fpOp false d res) s) s c (fun l => (val l).2) fun G' =>
      G'.s = c.G.s ∧ PredsKept c G' ∧ VectorIs c G' d.toNat fun l => BitVec.ofNat 32 (val l).1 := by
  obtain ⟨F, hexec, hgang, hkept, hs, hlanes⟩ := raises_ready (body := fpOp false d res)
    (f := fun c l t => t.setReg d.toNat (BitVec.ofNat 32 (res c l).1)) hr rfl
    (fun _ _ => ⟨rfl, rfl⟩) (fun l hl => congrArg Prod.snd (hval l hl)) hy
  exact ⟨F, hexec, hgang, hkept, hs, predsKept_of_lanes (fun _ _ => rfl) fun l hl => (hlanes l hl).2,
    vectorIs_of_lanes (fun l hl t => by rw [hval l hl]) fun l hl => (hlanes l hl).1⟩

theorem fpOp_pair (hr : Ready i h g s c) (hval : ∀ l < 32, res (countedCtx c) l = val l) (hy : isYield i = false) :
    RaisesFlags (issue i h g (fpOp true d res) s) s c (fun l => (val l).2) fun G' =>
      G'.s = c.G.s ∧ PredsKept c G' ∧ PairIs c G' d.toNat fun l => BitVec.ofNat 64 (val l).1 := by
  obtain ⟨F, hexec, hgang, hkept, hs, hlanes⟩ := raises_ready (body := fpOp true d res)
    (f := fun c l t => t.setPair d.toNat (BitVec.ofNat 64 (res c l).1)) hr rfl
    (fun _ _ => ⟨rfl, rfl⟩) (fun l hl => congrArg Prod.snd (hval l hl)) hy
  exact ⟨F, hexec, hgang, hkept, hs, predsKept_of_lanes (fun _ _ => rfl) fun l hl => (hlanes l hl).2,
    pairIs_of_lanes (fun l hl t => by rw [hval l hl]) fun l hl => (hlanes l hl).1⟩

/-! ### One rounding of the exact result (R84, R86, R255) -/

/-- The operands are those of the gang before its words were counted. -/
theorem fpArith_countedCtx (F : Fmt) (wide : Bool) (h : Hdr) (codes : List (BitVec 7)) (f : List FVal → Exact × BitVec 5) (c : Ctx)
    {l : Nat} (hl : l < 32) : fpArith F wide h codes f (countedCtx c) l = fpArith F wide h codes f c l := by
  have hbits (code : BitVec 7) : (countedCtx c).bits wide code l = c.bits wide code l := by
    simp only [Ctx.bits, countedCtx_G, counted_src c c.G _ l hl, counted_src64 c c.G _ l hl]
  simp only [fpArith, hbits]

theorem fpArith_floatResult (codes : List (BitVec 7)) (f : List FVal → Exact × BitVec 5) (hy : isYield i = false)
    (hexec : exec i = issue i h g (fpOp false d (fpArith .f32 false h codes f))) :
    FloatResult i h g d fun c l => rounded .f32 h (f (codes.map fun k => f32Src h c k l)) := by
  intro s c hr
  rw [hexec]
  exact fpOp_register hr (fun l hl => fpArith_countedCtx .f32 false h codes f c hl) hy

theorem fpArith_doubleResult (codes : List (BitVec 7)) (f : List FVal → Exact × BitVec 5) (hy : isYield i = false)
    (hexec : exec i = issue i h g (fpOp true d (fpArith .f64 true h codes f))) :
    DoubleResult i h g d fun c l => rounded .f64 h (f (codes.map fun k => f64Src h c k l)) := by
  intro s c hr
  rw [hexec]
  exact fpOp_pair hr (fun l hl => fpArith_countedCtx .f64 true h codes f c hl) hy

section Register
variable {a : BitVec 7} (ha : a.toNat < 112)
include ha

theorem f32Reg_eq_src (h : Hdr) (c : Ctx) (l : Nat) : f32Reg h c a l = f32Src h c a l := by
  rw [f32Src, laneSrc, Gang.src, if_pos ha]
  rfl

theorem f64Reg_eq_src (h : Hdr) (c : Ctx) (l : Nat) : f64Reg h c a l = f64Src h c a l := by
  rw [f64Src, laneSrc64, Gang.src64, if_pos ha]
  rfl

/-- What O10 says holds of every instruction whose first operand is a vector register, as it is in every well-formed one. -/
theorem floatArithmetic_of_register (h : Hdr) (g : BitVec 3) (d b : BitVec 7) :
    FloatResult (.faddF32 h g d a b) h g d (fun c l => rounded .f32 h (fAdd h.rnd (f32Reg h c a l) (f32Src h c b l))) ∧
    FloatResult (.fsubF32 h g d a b) h g d (fun c l => rounded .f32 h (fAdd h.rnd (f32Reg h c a l) (f32Src h c b l).negate)) ∧
    FloatResult (.fmulF32 h g d a b) h g d (fun c l => rounded .f32 h (fMul (f32Reg h c a l) (f32Src h c b l))) ∧
    FloatResult (.ffmaF32 h g d a b) h g d
      (fun c l => rounded .f32 h (fFma h.rnd (f32Reg h c a l) (f32Src h c b l) (f32Src h c (h.third d) l))) ∧
    FloatResult (.fdivF32 h g d a b) h g d (fun c l => rounded .f32 h (fDiv (f32Reg h c a l) (f32Src h c b l))) ∧
    DoubleResult (.faddF64 h g d a b) h g d (fun c l => rounded .f64 h (fAdd h.rnd (f64Reg h c a l) (f64Src h c b l))) ∧
    DoubleResult (.fsubF64 h g d a b) h g d
      (fun c l => rounded .f64 h (fAdd h.rnd (f64Reg h c a l) (f64Src h c b l).negate)) ∧
    DoubleResult (.fmulF64 h g d a b) h g d (fun c l => rounded .f64 h (fMul (f64Reg h c a l) (f64Src h c b l))) ∧
    DoubleResult (.ffmaF64 h g d a b) h g d
      (fun c l => rounded .f64 h (fFma h.rnd (f64Reg h c a l) (f64Src h c b l) (f64Src h c (h.third d) l))) ∧
    DoubleResult (.fdivF64 h g d a b) h g d (fun c l => rounded .f64 h (fDiv (f64Reg h c a l) (f64Src h c b l))) := by
  simp only [f32Reg_eq_src ha, f64Reg_eq_src ha]
  exact ⟨fpArith_floatResult [a, b] (opAdd h.rnd) rfl rfl, fpArith_floatResult [a, b] (opSub h.rnd) rfl rfl,
    fpArith_floatResult [a, b] opMul rfl rfl, fpArith_floatResult [a, b, h.third d] (opFma h.rnd) rfl rfl,
    fpArith_floatResult [a, b] opDiv rfl rfl, fpArith_doubleResult [a, b] (opAdd h.rnd) rfl rfl,
    fpArith_doubleResult [a, b] (opSub h.rnd) rfl rfl, fpArith_doubleResult [a, b] opMul rfl rfl,
    fpArith_doubleResult [a, b, h.third d] (opFma h.rnd) rfl rfl, fpArith_doubleResult [a, b] opDiv rfl rfl⟩

end Register

/-! ### The counterexample -/

/-- An instruction within a run leaves its gang as its effect made it. -/
theorem gang?_after (hr : Ready i h g s c) (hgoes : h.e = false) (F : Gang → Gang) :
    (after c (s.modGang c.u c.g F)).gang? c.u c.g = some (F c.G) := by
  obtain ⟨-, -, hh, -⟩ := ctx_spec hr.context
  obtain ⟨hG, -⟩ := ready_sheaf hr
  rw [after, hh, hgoes, if_neg Bool.false_ne_true]
  exact (gang?_modGang s c.u c.g F).trans (by rw [hG]; rfl)

/-- An instruction within a run has one result in each active lane. -/
theorem floatResult_unique {val val' : Ctx → Nat → Nat × BitVec 5} (hval : FloatResult i h g d val) (hval' : FloatResult i h g d val')
    (hr : Ready i h g s c) (hgoes : h.e = false) (hd : d.toNat < 112) {l : Nat} (hl : l < 32) (hact : c.act.getLsbD l = true) :
    BitVec.ofNat 32 (val c l).1 = BitVec.ofNat 32 (val' c l).1 := by
  obtain ⟨F, hexec, -, -, -, -, hreg⟩ := hval s c hr
  obtain ⟨F', hexec', -, -, -, -, hreg'⟩ := hval' s c hr
  have hgang : F c.G = F' c.G := by
    have hnext := Host.Outcome.next.inj (hexec.symm.trans hexec')
    exact Option.some.inj ((gang?_after hr hgoes F).symm.trans (hnext ▸ gang?_after hr hgoes F'))
  have hl₁ := (hreg l hl d.toNat hd).trans (if_pos ⟨hact, rfl⟩)
  have hl₂ := (hreg' l hl d.toNat hd).trans (if_pos ⟨hact, rfl⟩)
  exact hl₁.symm.trans (hgang ▸ hl₂)

/-- A device whose one gang is in issue, with 1.0 in s0 and zero in every other register. -/
def scalarOne : State :=
  { State.reset with
    cur := some (0, 0)
    launches := [probeLaunch]
    blocks := [{ probeBlock with gangs := probeBlock.gangs.map fun G => G.setSreg 0 0x3F800000 }] }

/-- An ill-formed fadd: its first operand has code 112, which names s0 as a source (R64); its second is v1. -/
def addBroadcast : Instr := .faddF32 (Hdr.plain false) 7 2 112 1

def scalarOneCtx : Ctx := (scalarOne.ctx 0 0 (Hdr.plain false) 1 7).get (by decide)

theorem lanes_scalarOne : ∀ l < 32, (scalarOneCtx.G.lane l).region = none ∧ (scalarOneCtx.G.lane l).woken = none := by decide

theorem ready_addBroadcast : Ready addBroadcast (Hdr.plain false) 7 scalarOne scalarOneCtx where
  issues := by decide
  context := (Option.some_get _).symm
  runs := by decide
  chunkOpen := by decide
  unlogged := by decide
  notHeld := by decide
  inOrder := .inl (by decide)
  objectFree := by decide
  isInstr := by decide
  ends := by decide
  fits := by decide
  words := fun l hl _ r hregion => by simp [(lanes_scalarOne l hl).1] at hregion
  legal := by decide
  constraints := trivial
  full := by decide
  budget := by decide
  board := by decide
  ordered := by decide
  notParked := by decide
  accFree := by decide
  woken := fun l hl _ => (lanes_scalarOne l hl).2
  tokens := .inl (by decide)
  notWithheld := by decide

/-- Refutes O10: of fadd with code 112 as its first operand, the statement reads a vector register 112, which is none and gives 0;
the machine reads s0, and writes 1.0. -/
theorem not_floatArithmeticResults : ¬ Obligations.FloatArithmeticResults := by
  unfold Obligations.FloatArithmeticResults
  intro hall
  obtain ⟨hadd, -⟩ := hall (Hdr.plain false) 7 2 112 1
  have hvalue := floatResult_unique hadd (fpArith_floatResult [112, 1] (opAdd (Hdr.plain false).rnd) rfl rfl) ready_addBroadcast rfl
    (by decide) (l := 0) (by decide) (by decide)
  exact absurd hvalue (by decide +kernel)

end Sys2Proof.Proofs.FloatArithmetic
end

section
/-! PROOFS. What the events of engine jobs share: changes of one block, the recorder's part, which leaves a launch that is not recorded
as it is (R378-R392), and the token (R116). -/

namespace Sys2Proof.Proofs.EngineJobs
open Sys2Proof.Machine Sys2Proof.Safety Sys2Proof.Laws Sys2Proof.Proofs.Traps Sys2Proof.Proofs.RunEnd Sys2Proof.Proofs.Blocks

variable {s : State} {u : Nat} {b : Block} {L : Launch}

/-! ### Changes of one block -/

theorem modBlock_modBlock (s : State) (u : Nat) {f : Block → Block} (f' : Block → Block) (hf : ∀ b, (f b).uid = b.uid) :
    (s.modBlock u f).modBlock u f' = s.modBlock u fun b => f' (f b) := by
  simp only [State.modBlock, List.map_map]
  congr 1
  refine List.map_congr_left fun b _ => ?_
  by_cases hu : b.uid = u <;> simp [hu, hf]

theorem launchOf_modBlock (s : State) (u : Nat) {f : Block → Block} (hf : ∀ b, (f b).uid = b.uid ∧ (f b).launch = b.launch) :
    (s.modBlock u f).launchOf u = s.launchOf u := by
  rw [State.launchOf, block?_modBlock s u f fun b => (hf b).1, State.launchOf]
  cases s.block? u with
  | none => rfl
  | some b => exact congrArg s.launch? (hf b).2

/-- An event that changes one block by a function. -/
theorem next_modBlock {o : Host.Outcome State Fault Refusal} {f : Block → Block} (ho : o = .next (s.modBlock u f))
    (hf : ∀ b, (f b).uid = b.uid) (hb : s.block? u = some b) {P : Block → Prop} (hP : P (f b)) :
    ∃ t B', o = .next t ∧ BlockOnly u s t ∧ t.block? u = some B' ∧ P B' :=
  ⟨_, f b, ho, blockOnly_modBlock s u hf, by rw [block?_modBlock s u f hf, hb, Option.map_some], hP⟩

theorem job_id {j : Nat} {x : Job} (hx : b.job? j = some x) : x.id = j := by simpa using List.find?_some hx

/-- A block with a gang that has not drained does not complete. -/
theorem checkBlock_of_mem (hb : s.block? u = some b) {G : Gang} (hG : G ∈ b.gangs) (hdrained : G.drained = false) :
    s.checkBlock u = s := by
  obtain ⟨g, hg⟩ := List.getElem?_of_mem hG
  exact checkBlock_of_not_drained (g := g) (by rw [State.gang?, hb]; exact hg) hdrained

/-! ### A launch that is not recorded -/

section Unrecorded
variable (hL : s.launchOf u = some L) (hnumber : L.number = none)
include hL hnumber

theorem jobTest_unrecorded (j : Nat) (write : Bool) (it : Item) : s.jobTest u j write it = s := by
  unfold State.jobTest
  split
  · next b L' _ hL' =>
    obtain rfl := Option.some.inj (hL.symm.trans hL')
    split
    · rw [hnumber]
      rfl
    · rfl
  · rfl

theorem jobAccess_unrecorded (j : Nat) (reads writes : List Item) : s.jobAccess u j reads writes = s := by
  have hfold (write : Bool) (items : List Item) : items.foldl (fun s it => s.jobTest u j write it) s = s :=
    foldl_keeps (· = s) _ (fun t it ht => by rw [ht, jobTest_unrecorded hL hnumber]) items s rfl
  rw [State.jobAccess, hfold, hfold]

theorem jobRecord_unrecorded (j kind : Nat) (pos : Option Nat) : s.jobRecord u j kind pos = s := by
  unfold State.jobRecord
  split
  · next b L' _ hL' =>
    obtain rfl := Option.some.inj (hL.symm.trans hL')
    split
    · rw [hnumber]
      rfl
    · rfl
  · rfl

theorem jobLog_unrecorded (x : Job) : s.jobLog u x = [] := by
  have hreplay : s.replayOf u = none := by simp [State.replayOf, hL, hnumber]
  rw [State.jobLog, hreplay]

theorem segmentDone_unrecorded (x : Job) : s.segmentDone u x = s := by
  unfold State.segmentDone
  rw [hL, jobLog_unrecorded hL hnumber]
  simp [jobSteps]

theorem jobSettle_unrecorded (j : Nat) : s.jobSettle u j = s := by
  unfold State.jobSettle
  split
  · rfl
  · rw [jobLog_unrecorded hL hnumber]
    simp [jobSteps]

theorem dropJob_unrecorded (j : Nat) : s.dropJob u j =
    s.modBlock u fun b => { b with jobs := b.jobs.filter fun x => decide (x.id ≠ j) } := by
  unfold State.dropJob
  split
  · rw [segmentDone_unrecorded hL hnumber]
  · rfl

end Unrecorded

/-! ### Jobs that take a step -/

section Steps
variable {x : Job}

/-- The job may take a step. -/
structure Runs (x : Job) : Prop where
  started : x.started = true
  want : x.want = none
  frozen : x.frozen = false
  failed : x.failed = false
  parked : x.parked = false
  held : x.held = false

theorem Runs.running (h : Runs x) : x.running = true := by
  simp [Job.running, h.started, h.want, h.frozen, h.failed, h.parked, h.held]

/-- No watch descriptor matches where there is none. -/
theorem watchMatch_nil (spad rd wr engine : Bool) (n : Nat) (las : List (Nat × Nat)) : watchMatch [] spad rd wr engine n las = none :=
  rfl

end Steps

/-! ### The token of a job that completes (R116) -/

section Token
variable {x : Job}

/-- A gang whose register r, the token of a job, has received a number (R116). -/
def answered (x : Job) (r v : Nat) (G : Gang) : Gang :=
  { G with
    s := vset G.s r (BitVec.ofNat 72 (v % 2 ^ 32))
    tokens := if x.lastOfInstr then G.tokens.filter (fun t => decide (t ≠ r)) else G.tokens }

/-- A block that a job has left with its token answered. -/
def completed (x : Job) (r v : Nat) (b : Block) : Block :=
  { b.modGang x.gang (answered x r v) with jobs := b.jobs.filter fun y => decide (y.id ≠ x.id) }

theorem getElem?_completed (x : Job) (r v : Nat) (b : Block) (i : Nat) :
    (completed x r v b).gangs[i]? = (b.gangs[i]?).map fun G => if i ≠ x.gang then G else answered x r v G := by
  refine (List.getElem?_modify ..).trans (congrArg (Option.map · _) (funext fun G => ?_))
  rw [ite_not]
  simp only [eq_comm]

/-- A token does not make a gang drain. -/
theorem exists_live_completed (x : Job) (r v : Nat) (hlive : ∃ G ∈ b.gangs, G.drained = false) :
    ∃ G ∈ (completed x r v b).gangs, G.drained = false := by
  obtain ⟨G, hG, hdrained⟩ := hlive
  obtain ⟨i, hi⟩ := List.getElem?_of_mem hG
  have hi' := getElem?_completed x r v b i
  rw [hi, Option.map_some] at hi'
  refine ⟨_, List.mem_of_getElem? hi', ?_⟩
  split
  · exact hdrained
  · exact hdrained

theorem dropJob_writeToken {r : Nat} (hL : s.launchOf u = some L) (hnumber : L.number = none) (htoken : x.token = some r) (v : Nat) :
    (s.writeToken u x v).dropJob u x.id = s.modBlock u (completed x r v) := by
  have hwrite : s.writeToken u x v = s.modGang u x.gang (answered x r v) := by
    rw [State.writeToken, htoken]
    rfl
  rw [hwrite, dropJob_unrecorded ((launchOf_modGang ..).trans hL) hnumber]
  exact modBlock_modBlock s u _ fun _ => rfl

end Token

end Sys2Proof.Proofs.EngineJobs
end

section
/-! PROOFS. The matrix engine: the start of a job, a group of its products, its completion (R92-R94, R116, R269, R278). -/

namespace Sys2Proof.Proofs.MatrixJobs
open Sys2Proof.Machine Sys2Proof.Safety Sys2Proof.Laws Sys2Proof.Proofs.EngineJobs

/-! ### One element of a group (R92, R94, R278) -/

section Element
variable (p : MmaPar) (cls : MmaClass) (spad : List Host.Cell) (g i j : Nat)

/-- The group seeds the element instead of adding to it. -/
def seeds : Bool := p.z && decide (g = 0)

/-- The element's bits in A, and in B, for the product q of the group. -/
def bitsA (q : Nat) : Nat := elemBits spad p.slotA (p.abase + i * p.astr) (16 * g + q) 16
def bitsB (q : Nat) : Nat := elemBits spad p.slotB (p.bbase + (16 * g + q) * p.bstr) j 8

def floats : List (FVal × FVal) :=
  (List.range 16).map fun q => (elemFloat p.slotA (bitsA p spad g i q), elemFloat p.slotB (bitsB p spad g j q))

def total : Int := ((List.range 16).map fun q => elemInt p.slotA (bitsA p spad g i q) * elemInt p.slotB (bitsB p spad g j q)).sum

/-- One rounded addition to the tile (R92). -/
def plus (F : Fmt) (v w : Nat) : Nat := roundRn (fAdd 0 (F.value v) (F.value w)).1 F

/-- The element of the pair of tiles of the F64 class. -/
def pairAfter (old hi : Word) : Dword := BitVec.ofNat 64
  (if seeds p g then groupFloat true (floats p spad g i j)
   else plus .f64 (hi ++ old).toNat (groupFloat true (floats p spad g i j)))

/-- The element of the tile, and of the tile above it, once the group is added. -/
def lowAfter (old hi : Word) : Word :=
  match cls with
  | .f64 => (pairAfter p spad g i j old hi).setWidth 32
  | .float => BitVec.ofNat 32 (if seeds p g then groupFloat false (floats p spad g i j)
      else plus .f32 old.toNat (groupFloat false (floats p spad g i j)))
  | _ => BitVec.ofInt 32 (if seeds p g then total p spad g i j else old.toInt + total p spad g i j)

def highAfter (old hi : Word) : Word := if cls = .f64 then (pairAfter p spad g i j old hi).extractLsb' 32 32 else hi

/-- The sum leaves the range of the element (R94). -/
def Spills (old : Word) : Prop :=
  (cls = .int8 ∨ cls = .i4) ∧ seeds p g = false ∧
    (old.toInt + total p spad g i j < -(2 ^ 31) ∨ 2 ^ 31 ≤ old.toInt + total p spad g i j)

end Element

variable {p : MmaPar} {cls : MmaClass} {spad : List Host.Cell} {g i j : Nat}

theorem groupInt_products (f : Nat → Int × Int) :
    groupInt ((List.range 16).map f) = ((List.range 16).map fun q => (f q).1 * (f q).2).sum := by
  simp [groupInt, tree16, pairUp, List.range_succ]
  ring

theorem pairs_floats : (p.pairs spad g i j).map (fun e => (elemFloat p.slotA e.1, elemFloat p.slotB e.2)) = floats p spad g i j :=
  List.map_map ..

theorem pairs_total : groupInt ((p.pairs spad g i j).map fun e => (elemInt p.slotA e.1, elemInt p.slotB e.2)) = total p spad g i j :=
  (congrArg groupInt (List.map_map ..)).trans (groupInt_products _)

theorem tileAt_succ_ne : tileAt (p.tile + 1) i j ≠ tileAt p.tile i j := by
  unfold tileAt
  omega

theorem setWidth_ofNat (v : Nat) : (BitVec.ofNat 64 v).setWidth 32 = BitVec.ofNat 32 v :=
  BitVec.setWidth_ofNat_of_le (by decide) v

theorem extractLsb'_ofNat (v : Nat) : (BitVec.ofNat 64 v).extractLsb' 32 32 = BitVec.ofNat 32 (v / 2 ^ 32) := by
  apply BitVec.eq_of_toNat_eq
  simp only [BitVec.extractLsb'_toNat, BitVec.toNat_ofNat, Nat.shiftRight_eq_div_pow]
  omega

/-- The two words of a pair of tiles are written one after the other. -/
theorem element_f64 (x : List (Nat × Word) × Bool) :
    let v := pairAfter p spad g i j (sread x.1 (tileAt p.tile i j)) (sread x.1 (tileAt (p.tile + 1) i j))
    p.element .f64 spad g i j x =
      (swrite (swrite x.1 (tileAt p.tile i j) (v.setWidth 32)) (tileAt (p.tile + 1) i j) (v.extractLsb' 32 32), x.2) := by
  simp only [MmaPar.element, pairs_floats, pairAfter, setWidth_ofNat, extractLsb'_ofNat]
  rfl

theorem element_word (hcls : cls ≠ .f64) (x : List (Nat × Word) × Bool) :
    (p.element cls spad g i j x).1 =
      swrite x.1 (tileAt p.tile i j) (lowAfter p cls spad g i j (sread x.1 (tileAt p.tile i j)) (sread x.1 (tileAt (p.tile + 1) i j))) := by
  cases cls with
  | f64 => exact absurd rfl hcls
  | float => simp only [MmaPar.element, pairs_floats, lowAfter]; rfl
  | int8 | i4 => simp only [MmaPar.element, pairs_total, lowAfter]; rfl

/-- Only an integer class raises the flag, and only where the group is added (R94). -/
theorem element_flag (x : List (Nat × Word) × Bool) :
    (p.element cls spad g i j x).2 = true ↔ x.2 = true ∨ Spills p cls spad g i j (sread x.1 (tileAt p.tile i j)) := by
  cases cls with
  | f64 => simp [MmaPar.element, Spills]
  | float => simp [MmaPar.element, Spills]
  | int8 | i4 =>
    simp only [MmaPar.element, pairs_total, Spills, seeds]
    cases p.z && decide (g = 0) <;> simp

/-- A group has been added to the elements of a list: the tiles and the overflow flag before and after. -/
structure Added (p : MmaPar) (cls : MmaClass) (spad : List Host.Cell) (g : Nat) (l : List (Nat × Nat))
    (x y : List (Nat × Word) × Bool) : Prop where
  wf : swfFrom 0 y.1 = true
  cell : ∀ e ∈ l, let old := sread x.1 (tileAt p.tile e.1 e.2)
    let hi := sread x.1 (tileAt (p.tile + 1) e.1 e.2)
    sread y.1 (tileAt p.tile e.1 e.2) = lowAfter p cls spad g e.1 e.2 old hi ∧
      sread y.1 (tileAt (p.tile + 1) e.1 e.2) = highAfter p cls spad g e.1 e.2 old hi
  other : ∀ k, (∀ e ∈ l, k ≠ tileAt p.tile e.1 e.2 ∧ k ≠ tileAt (p.tile + 1) e.1 e.2) → sread y.1 k = sread x.1 k
  flag : y.2 = true ↔ x.2 = true ∨ ∃ e ∈ l, Spills p cls spad g e.1 e.2 (sread x.1 (tileAt p.tile e.1 e.2))

theorem added_element (e : Nat × Nat) {x : List (Nat × Word) × Bool} (hx : swfFrom 0 x.1 = true) :
    Added p cls spad g [e] x (p.element cls spad g e.1 e.2 x) := by
  have hne : tileAt (p.tile + 1) e.1 e.2 ≠ tileAt p.tile e.1 e.2 := tileAt_succ_ne
  have hwf (a : Nat) (v : Word) : swfFrom 0 (swrite x.1 a v) = true := swfFrom_swrite v hx (Nat.zero_le a)
  by_cases hcls : cls = .f64
  · subst hcls
    have hmem := congrArg Prod.fst (element_f64 (p := p) (spad := spad) (g := g) (i := e.1) (j := e.2) x)
    refine ⟨?_, ?_, ?_, ?_⟩
    · rw [hmem]
      exact swfFrom_swrite _ (hwf _ _) (Nat.zero_le _)
    · simp only [List.forall_mem_singleton, hmem, lowAfter, highAfter, if_true]
      exact ⟨by rw [sread_swrite_other _ _ _ _ hne.symm, sread_swrite_same _ _ hx], sread_swrite_same _ _ (hwf _ _)⟩
    · simp only [List.forall_mem_singleton, hmem]
      exact fun k hk => by rw [sread_swrite_other _ _ _ _ hk.2, sread_swrite_other _ _ _ _ hk.1]
    · simpa using element_flag x
  · have hmem := element_word (p := p) (spad := spad) (g := g) (i := e.1) (j := e.2) hcls x
    refine ⟨?_, ?_, ?_, ?_⟩
    · rw [hmem]
      exact hwf _ _
    · simp only [List.forall_mem_singleton, hmem, highAfter, if_neg hcls]
      exact ⟨sread_swrite_same _ _ hx, sread_swrite_other _ _ _ _ hne⟩
    · simp only [List.forall_mem_singleton, hmem]
      exact fun k hk => sread_swrite_other _ _ _ _ hk.1
    · simpa using element_flag x

/-- The tiles hold 64 rows of 64 words, so different elements stand apart. -/
theorem tileAt_inj {t t' i' j' : Nat} (hi : i < 64) (hj : j < 64) (hi' : i' < 64) (hj' : j' < 64)
    (h : tileAt t i j = tileAt t' i' j') : i = i' ∧ j = j' := by
  unfold tileAt at h
  omega

/-- An element is added first, then the others. -/
theorem added_cons {e : Nat × Nat} {l : List (Nat × Nat)} {x y z : List (Nat × Word) × Bool}
    (hsmall : ∀ e' ∈ e :: l, e'.1 < 64 ∧ e'.2 < 64) (hnew : e ∉ l) (hy : Added p cls spad g [e] x y)
    (hz : Added p cls spad g l y z) : Added p cls spad g (e :: l) x z := by
  obtain ⟨he, hl⟩ := List.forall_mem_cons.1 hsmall
  have hapart {t t' : Nat} (e') (hmem : e' ∈ l) : tileAt t e.1 e.2 ≠ tileAt t' e'.1 e'.2 := fun h => by
    obtain ⟨h1, h2⟩ := hl e' hmem
    obtain ⟨hrow, hcol⟩ := tileAt_inj he.1 he.2 h1 h2 h
    exact hnew (Prod.ext hrow hcol ▸ hmem)
  have hkept (t : Nat) (e') (hmem : e' ∈ l) : sread y.1 (tileAt t e'.1 e'.2) = sread x.1 (tileAt t e'.1 e'.2) :=
    hy.other _ (List.forall_mem_singleton.2 ⟨(hapart e' hmem).symm, (hapart e' hmem).symm⟩)
  refine ⟨hz.wf, List.forall_mem_cons.2 ⟨?_, fun e' hmem => ?_⟩, fun k hk => ?_, ?_⟩
  · have hfirst := List.forall_mem_singleton.1 hy.cell
    have hlater (t : Nat) : sread z.1 (tileAt t e.1 e.2) = sread y.1 (tileAt t e.1 e.2) :=
      hz.other _ fun e' hmem => ⟨hapart e' hmem, hapart e' hmem⟩
    dsimp only at hfirst ⊢
    rwa [hlater, hlater]
  · have hcell := hz.cell e' hmem
    rwa [hkept _ e' hmem, hkept _ e' hmem] at hcell
  · obtain ⟨hke, hkl⟩ := List.forall_mem_cons.1 hk
    rw [hz.other k hkl, hy.other k (List.forall_mem_singleton.2 hke)]
  · have hlater : (∃ e' ∈ l, Spills p cls spad g e'.1 e'.2 (sread y.1 (tileAt p.tile e'.1 e'.2))) ↔
        ∃ e' ∈ l, Spills p cls spad g e'.1 e'.2 (sread x.1 (tileAt p.tile e'.1 e'.2)) :=
      exists_congr fun e' => and_congr_right fun hmem => by rw [hkept _ e' hmem]
    rw [hz.flag, hy.flag, hlater]
    simp [or_assoc]

theorem added_foldl {l : List (Nat × Nat)} (hl : l.Nodup) (hsmall : ∀ e ∈ l, e.1 < 64 ∧ e.2 < 64) {x : List (Nat × Word) × Bool}
    (hx : swfFrom 0 x.1 = true) : Added p cls spad g l x (l.foldl (fun x e => p.element cls spad g e.1 e.2 x) x) := by
  induction l generalizing x with
  | nil => exact ⟨hx, fun e he => absurd he List.not_mem_nil, fun _ _ => rfl, by simp⟩
  | cons e l ih =>
    obtain ⟨hnew, hl⟩ := List.nodup_cons.1 hl
    have he := added_element (cls := cls) (spad := spad) (p := p) (g := g) e hx
    exact added_cons hsmall hnew he (ih hl (List.forall_mem_cons.1 hsmall).2 he.wf)

/-- A group goes over the rows and columns of the output tile. -/
theorem group_eq_foldl (acc : List (Nat × Word)) (ovf : Bool) : p.group cls spad g acc ovf =
    (List.range p.m ×ˢ List.range p.n).foldl (fun x e => p.element cls spad g e.1 e.2 x) (acc, ovf) := by
  simp only [MmaPar.group, SProd.sprod, List.product, List.foldl_flatMap, List.foldl_map]

theorem mem_output {i i' : Nat} : (i, i') ∈ List.range p.m ×ˢ List.range p.n ↔ i < p.m ∧ i' < p.n := by
  rw [List.mem_product, List.mem_range, List.mem_range]

theorem added_group (hm : p.m ≤ 64) (hn : p.n ≤ 64) {acc : List (Nat × Word)} (hacc : swfFrom 0 acc = true) (ovf : Bool) :
    Added p cls spad g (List.range p.m ×ˢ List.range p.n) (acc, ovf) (p.group cls spad g acc ovf) := by
  rw [group_eq_foldl]
  refine added_foldl (List.nodup_range.product List.nodup_range) (fun e he => ?_) hacc
  obtain ⟨hrow, hcol⟩ := mem_output.1 he
  exact ⟨hrow.trans_le hm, hcol.trans_le hn⟩

section Output
variable {acc : List (Nat × Word)} {ovf : Bool} {y : List (Nat × Word) × Bool}
  (h : Added p cls spad g (List.range p.m ×ˢ List.range p.n) (acc, ovf) y)
include h

/-- The tile's flag is kept, and set by an element that leaves its range. -/
theorem flag_output : y.2 = true ↔ ovf = true ∨ (cls = .int8 ∨ cls = .i4) ∧ seeds p g = false ∧ ∃ i < p.m, ∃ i' < p.n,
    (sread acc (tileAt p.tile i i')).toInt + total p spad g i i' < -(2 ^ 31) ∨
      2 ^ 31 ≤ (sread acc (tileAt p.tile i i')).toInt + total p spad g i i' := by
  rw [h.flag]
  refine or_congr_right ⟨?_, ?_⟩
  · rintro ⟨⟨i, i'⟩, he, hcls, hseeds, hspill⟩
    obtain ⟨hrow, hcol⟩ := mem_output.1 he
    exact ⟨hcls, hseeds, i, hrow, i', hcol, hspill⟩
  · rintro ⟨hcls, hseeds, i, hrow, i', hcol, hspill⟩
    exact ⟨(i, i'), mem_output.2 ⟨hrow, hcol⟩, hcls, hseeds, hspill⟩

variable (hm : p.m ≤ 64) (hn : p.n ≤ 64)
include hm hn

/-- An element of a tile outside the output keeps its word. -/
theorem sread_outside (t : Nat) {i i' : Nat} (hi : i < 64) (hi' : i' < 64) (hout : ¬ (i < p.m ∧ i' < p.n)) :
    sread y.1 (tileAt t i i') = sread acc (tileAt t i i') := by
  have hne (t' : Nat) (e) (he : e ∈ List.range p.m ×ˢ List.range p.n) : tileAt t i i' ≠ tileAt t' e.1 e.2 := fun heq => by
    obtain ⟨hrow, hcol⟩ := mem_output.1 he
    obtain ⟨rfl, rfl⟩ := tileAt_inj hi hi' (hrow.trans_le hm) (hcol.trans_le hn) heq
    exact hout ⟨hrow, hcol⟩
  exact h.other _ fun e he => ⟨hne _ e he, hne _ e he⟩

theorem sread_low {i i' : Nat} (hi : i < 64) (hi' : i' < 64) : sread y.1 (tileAt p.tile i i') = if i < p.m ∧ i' < p.n then
    lowAfter p cls spad g i i' (sread acc (tileAt p.tile i i')) (sread acc (tileAt (p.tile + 1) i i'))
    else sread acc (tileAt p.tile i i') := by
  split
  · next hin => exact (h.cell _ (mem_output.2 hin)).1
  · next hout => exact sread_outside h hm hn _ hi hi' hout

theorem sread_high {i i' : Nat} (hi : i < 64) (hi' : i' < 64) : sread y.1 (tileAt (p.tile + 1) i i') =
    if i < p.m ∧ i' < p.n ∧ cls = .f64 then
      (pairAfter p spad g i i' (sread acc (tileAt p.tile i i')) (sread acc (tileAt (p.tile + 1) i i'))).extractLsb' 32 32
    else sread acc (tileAt (p.tile + 1) i i') := by
  by_cases hin : i < p.m ∧ i' < p.n
  · rw [(h.cell _ (mem_output.2 hin)).2, highAfter]
    simp only [hin.1, hin.2, true_and]
  · rw [sread_outside h hm hn _ hi hi' hin, if_neg fun hall => hin ⟨hall.1, hall.2.1⟩]

theorem sread_otherTile {k : Nat} (hlow : k / 4096 ≠ p.tile) (hhigh : k / 4096 ≠ p.tile + 1) : sread y.1 k = sread acc k := by
  refine h.other k fun e he => ?_
  obtain ⟨hrow, hcol⟩ := mem_output.1 he
  unfold tileAt
  omega

end Output

/-- The tile whose flag is stored gains what the group raised, and no other tile's flag changes. -/
theorem getLsbD_flag {o : BitVec 8} {t q : Nat} (hq : q < 8) {flag : Bool} {P : Prop} (hflag : flag = true ↔ o.getLsbD t = true ∨ P) :
    (if flag then o ||| BitVec.twoPow 8 t else o).getLsbD q = true ↔ o.getLsbD q = true ∨ q = t ∧ P := by
  by_cases ht : q = t
  · subst ht
    cases flag <;> simp_all
  · cases flag <;> simp [ht, Ne.symm ht]

/-! ### The events of a job (R116, R269, R278) -/

section Events
variable {s : State} {u j : Nat} {b : Block} {L : Launch} {x : Job}

theorem beginMma_kept (b : Block) (x : Job) : b.beginMma x = { b with ovf := (b.beginMma x).ovf } := by
  unfold Block.beginMma
  split
  · split <;> rfl
  · rfl

/-- The start of a job clears the overflow flag of its tile under BS, unless the job has begun before (R278). -/
theorem beginMma_ovf (hkind : x.kind = .mma p) {q : Nat} (hq : q < 8) : (b.beginMma x).ovf.getLsbD q =
    (b.ovf.getLsbD q && !(decide (q = p.tile ∧ x.pos = 0 ∧ x.watchPos = none) && p.bs)) := by
  have hbegun : x.begun = !decide (x.pos = 0 ∧ x.watchPos = none) := by
    cases hw : x.watchPos <;> simp [Job.begun, hw, Nat.pos_iff_ne_zero]
  have htile : (b.ovf &&& ~~~BitVec.twoPow 8 p.tile).getLsbD q = (b.ovf.getLsbD q && !decide (q = p.tile)) := by
    rw [BitVec.getLsbD_and, BitVec.getLsbD_not, BitVec.getLsbD_twoPow, decide_eq_true hq, Bool.true_and]
    have htile : (decide (p.tile < 8) && decide (p.tile = q)) = decide (q = p.tile) := by
      rw [← Bool.decide_and, decide_eq_decide]
      omega
    rw [htile]
  unfold Block.beginMma
  rw [hkind]
  dsimp only
  rw [hbegun, Bool.not_not]
  by_cases hfirst : x.pos = 0 ∧ x.watchPos = none
  · cases p.bs <;> simp [hfirst, htile]
  · simp [hfirst]

theorem exec_mmaJobStart (hb : s.block? u = some b) (hx : b.job? j = some x) (hstop : b.stop = none)
    (hhead : (s.mmaQueue b.core).head?.map (·.2) = some (u, j))
    (hfree : ((s.coreJobs b.core).filter fun y => y.isMma && y.started) = []) : exec (.mmaJobStart u j) s =
      .next (s.modBlock u fun b =>
        { b.beginMma x with jobs := (b.beginMma x).jobs.map fun y => if y.id = j then { y with started := true } else y }) := by
  have hany : (s.coreJobs b.core).any (fun y => y.isMma && y.started) = false := by
    simpa using hfree
  obtain ⟨y, hy, hyj⟩ := Option.map_eq_some_iff.1 hhead
  obtain ⟨ys, hqueue⟩ := List.head?_eq_some_iff.1 hy
  change execMmaJobStart u j s = _
  simp only [execMmaJobStart, hb, hstop, hany, hqueue, hx, hyj, Option.isSome_none, Bool.or_self, Bool.false_eq_true, if_false, if_true,
    State.modJob]
  rw [modBlock_modBlock s u _ fun b => by rw [beginMma_kept]]

/-- A block in which the group of a job has been performed. -/
def grouped (p : MmaPar) (cls : MmaClass) (x : Job) (b : Block) : Block :=
  let r := p.group cls b.spad x.pos b.acc (b.ovf.getLsbD p.tile)
  { b with
    acc := r.1
    ovf := if r.2 then b.ovf ||| BitVec.twoPow 8 p.tile else b.ovf
    jobs := b.jobs.map fun y => if y.id = x.id then { y with pos := y.pos + 1, watchPos := none } else y }

theorem doGroup_unrecorded (hL : s.launchOf u = some L) (hnumber : L.number = none) (x : Job) (p : MmaPar) (cls : MmaClass) :
    s.doGroup u x p cls = s.modBlock u (grouped p cls x) := by
  have hgroup : s.doGroup u x p cls = (s.modBlock u (grouped p cls x)).jobSettle u x.id := by
    rw [State.doGroup, jobAccess_unrecorded hL hnumber]
    exact congrArg (State.jobSettle · u x.id) (modBlock_modBlock s u _ fun _ => rfl)
  have hlaunch := launchOf_modBlock s u (f := grouped p cls x) fun _ => ⟨rfl, rfl⟩
  exact hgroup.trans (jobSettle_unrecorded (hlaunch.trans hL) hnumber x.id)

theorem exec_mmaGroup (hb : s.block? u = some b) (hL : s.launchOf u = some L) (hnumber : L.number = none) (hx : b.job? j = some x)
    (hkind : x.kind = .mma p) (hcls : mmaClass p.slotA.fmt p.slotB.fmt = some cls) (hruns : Runs x) (hstop : b.stop = none)
    (hpos : x.pos < mmaK p.slotA.fmt / 16) (hwatch : L.r.watch = []) (hpast : ∀ y ∈ b.jobs, y.past ≠ some j) :
    exec (.mmaGroup u j) s = .next (s.modBlock u (grouped p cls x)) := by
  have hany : b.jobs.any (fun y => decide (y.past = some j)) = false := by simpa using hpast
  change execMmaGroup u j s = _
  simp only [execMmaGroup, hb, hL, hx, hkind, hcls, hruns.want, hstop, hruns.running, decide_eq_false (Nat.not_le.2 hpos), hany,
    hwatch, hruns.held, Option.isSome_none, Bool.not_true, Bool.or_self, Bool.false_eq_true, if_false, doGroup_unrecorded hL hnumber,
    watchMatch_nil, ite_self]

theorem exec_mmaCompletion {r : Nat} (hb : s.block? u = some b) (hL : s.launchOf u = some L) (hnumber : L.number = none)
    (hx : b.job? j = some x) (hkind : x.kind = .mma p) (hruns : Runs x) (hpos : x.pos = mmaK p.slotA.fmt / 16)
    (htoken : x.token = some r) (hlive : ∃ G ∈ b.gangs, G.drained = false) :
    exec (.mmaCompletion u j) s = .next (s.modBlock u (completed x r (p.m * p.n))) := by
  obtain rfl := job_id hx
  have hblock : (s.modBlock u (completed x r (p.m * p.n))).block? u = some (completed x r (p.m * p.n) b) := by
    rw [block?_modBlock s u (completed x r (p.m * p.n)) fun _ => rfl, hb, Option.map_some]
  obtain ⟨G, hG, hdrained⟩ := exists_live_completed x r (p.m * p.n) hlive
  change execMmaCompletion u x.id s = _
  simp only [execMmaCompletion, hb, hx, hkind, hruns.running, hruns.held, hpos, jobAccess_unrecorded hL hnumber,
    jobRecord_unrecorded hL hnumber, lt_irrefl, decide_false, Bool.not_true, Bool.or_self, Bool.false_eq_true, if_false,
    dropJob_writeToken hL hnumber htoken]
  rw [checkBlock_of_mem hblock hG hdrained]

end Events

/-- Settles O36: each event changes its block alone, a group by the elements of the output tile, one after the other. -/
theorem matrixEvents : Obligations.MatrixEvents := by
  unfold Obligations.MatrixEvents
  intro u j s b L x p cls hb hL hnumber hx hkind hcls hwant hfrozen hfailed hparked hheld hstop hm hn _ hacc
  obtain rfl := job_id hx
  refine ⟨fun hhead hfree => ?_, fun hstarted hpos hwatch hpast => ?_, fun r hstarted hpos htoken hlive => ?_⟩
  · refine next_modBlock (exec_mmaJobStart hb hx hstop hhead hfree) (fun b => by rw [beginMma_kept]) hb ⟨?_, fun q hq => ?_⟩
    · rw [beginMma_kept]
    · exact beginMma_ovf hkind hq
  · have hruns : Runs x := ⟨hstarted, hwant, hfrozen, hfailed, hparked, hheld⟩
    have hadded := added_group (cls := cls) (spad := b.spad) (g := x.pos) hm hn hacc (b.ovf.getLsbD p.tile)
    refine next_modBlock (exec_mmaGroup hb hL hnumber hx hkind hcls hruns hstop hpos hwatch hpast) (fun _ => rfl) hb
      ⟨rfl, fun i hi i' hi' => (sread_low hadded hm hn hi hi').trans ?_, fun i hi i' hi' => sread_high hadded hm hn hi hi',
        fun k => sread_otherTile hadded hm hn, fun q hq => getLsbD_flag hq (flag_output hadded)⟩
    cases cls <;> rfl
  · have hruns : Runs x := ⟨hstarted, hwant, hfrozen, hfailed, hparked, hheld⟩
    exact next_modBlock (exec_mmaCompletion hb hL hnumber hx hkind hruns hpos htoken hlive) (fun _ => rfl) hb
      ⟨rfl, fun i => getElem?_completed x r (p.m * p.n) b i⟩

end Sys2Proof.Proofs.MatrixJobs
end

section
/-! PROOFS. Atomics and reductions on the scratchpad (R129, R215): their checks pass, and their lanes are performed in ascending order,
each on the scratchpad that the lower ones have left. -/

namespace Sys2Proof.Proofs.ScratchpadAtomics
open Sys2Proof.Machine Sys2Proof.Safety Sys2Proof.Laws Sys2Proof.Proofs.Traps Sys2Proof.Proofs.Blocks

variable {s t : State} {c : Ctx}

/-! ### The checks of a scratchpad access (R100, R101) -/

/-- The offsets are those of the gang before its words were counted. -/
theorem spadAddrs_counted (c : Ctx) (o : BitVec 7) (add : Int) : spadAddrs (countedCtx c) o add = spadAt c o add :=
  List.map_congr_left fun l hl => by
    rw [countedCtx_G, counted_reg c c.G l (lanesOf_mem.1 hl).1]
    rfl

section Checks
variable {a : Access} {align : Nat} {las : List (Nat × Nat)} (hreach : ReachesSpad c a align las)
include hreach

theorem bufferCheck_reaches : bufferCheck c.B c.L.r a.rd a.wr a.n las = none := by
  have hbytes : ∀ x ∈ las, c.B.badByte c.L.r a.rd a.wr x.2 a.n = none := fun x hx =>
    List.findSome?_eq_none_iff.2 fun i hi => by
      cases hbuf : c.L.r.bufAt (x.2 + i) with
      | none => rfl
      | some k => simp [hreach.allowed x hx i (List.mem_range.1 hi) k hbuf]
  have hbad : (las.filterMap fun x => (c.B.badByte c.L.r a.rd a.wr x.2 a.n).map fun y => (x.1, y)) = [] :=
    List.filterMap_eq_nil_iff.2 fun x hx => by rw [hbytes x hx, Option.map_none]
  rw [bufferCheck, hbad]

/-- Every lane goes on, and nothing has changed. -/
theorem spadCheck_reaches (s : State) : spadCheck c a align las s = .ok (s, las) := by
  have hbad : (las.filter fun x => decide (x.2 % align ≠ 0)) = [] :=
    List.filter_eq_nil_iff.2 fun x hx => by simp [hreach.aligned x hx]
  have hout : (las.filter fun x => decide (c.L.r.scratch < x.2 + a.n)) = [] :=
    List.filter_eq_nil_iff.2 fun x hx => by simp [hreach.within x hx]
  have hrest : (las.filter fun x => decide (x.2 + a.n ≤ c.L.r.scratch)) = las :=
    List.filter_eq_self.2 fun x hx => by simp [hreach.within x hx]
  have hstay : s.terminate c (laneMask []) = s := if_pos (mask_none fun l hl => by rw [laneMask, maskOf_lane _ l hl]; rfl)
  have hwatch (t : State) : watchThread c true a las t = .ok t := if_pos (by rw [hreach.watch]; rfl)
  simp only [spadCheck, hbad, bufferCheck_reaches hreach, hout, hrest, hstay, hwatch, List.isEmpty_nil, Bool.not_true,
    Bool.false_eq_true, if_false]

end Checks

theorem reachesSpad_counted {a : Access} {align : Nat} {las : List (Nat × Nat)} (hreach : ReachesSpad c a align las) :
    ReachesSpad (countedCtx c) a align las :=
  ⟨hreach.aligned, hreach.allowed, hreach.within, hreach.watch, hreach.chunk⟩

/-! ### Accesses of a gang without a chunk (R244) -/

theorem gangAccess_unrecorded {u g : Nat} {G : Gang} (hG : s.gang? u g = some G) (hchunk : G.chunk = none) (items : List Item)
    (write : Bool) : s.gangAccess u g items write = s :=
  if_pos (by rw [hG, Option.bind_some, hchunk]; rfl)

theorem spadAccess_unrecorded {G : Gang} (hG : s.gang? c.u c.g = some G) (hchunk : G.chunk = none) (las : List (Nat × Nat))
    (n : Nat) (write : Bool) : s.spadAccess c las n write = s := by
  simp only [State.spadAccess, gangAccess_unrecorded hG hchunk, ite_self]

/-! ### The scratchpad of a block -/

/-- Of the state s at most the block u has changed, and of that block b at most the scratchpad, which is sp. -/
structure SpadIs (u : Nat) (s : State) (b : Block) (sp : List Host.Cell) (t : State) : Prop where
  only : BlockOnly u s t
  block : t.block? u = some { b with spad := sp }

section Spad
variable {u g : Nat} {b : Block} {sp : List Host.Cell} {G : Gang}

theorem SpadIs.refl (hb : s.block? u = some b) : SpadIs u s b b.spad s := ⟨⟨rfl, fun _ _ => rfl⟩, hb⟩

theorem SpadIs.spad (h : SpadIs u s b sp t) : t.spad u = sp := by
  rw [State.spad, h.block]
  rfl

theorem SpadIs.gang (h : SpadIs u s b sp t) (hG : b.gangs[g]? = some G) : t.gang? u g = some G := by
  rw [State.gang?, h.block]
  exact hG

theorem SpadIs.spadWrite (h : SpadIs u s b sp t) (a : Nat) (bs : List Byte) :
    SpadIs u s b (writeBytes sp a bs) (t.spadWrite u a bs) where
  only := blockOnly_trans h.only (blockOnly_modBlock t u fun _ => rfl)
  block := (block?_modBlock t u (fun b => { b with spad := writeBytes b.spad a bs }) fun _ => rfl).trans (by rw [h.block]; rfl)

/-- Without a chunk there is no digest for a write to join. -/
theorem SpadIs.digestWrite (h : SpadIs u s b sp t) (hG : b.gangs[g]? = some G) (hchunk : G.chunk = none) (a v : Nat) :
    SpadIs u s b sp (t.digestWrite u g a v) where
  only := blockOnly_trans h.only (blockOnly_modGang t u g _)
  block := by
    rw [State.digestWrite, block?_modGang, h.block, Option.map_some, Block.modGang,
      modify_eq_self (l := b.gangs) hG (by rw [hchunk, Option.map_none, ← hchunk])]

end Spad

/-! ### The operations of the lanes (R129, R214, R215) -/

/-- The new value of a lane's piece. -/
def newValue (c : Ctx) (t : BitVec 7) (f : BitVec 4) (sp : List Host.Cell) (x : Nat × Nat) : Nat :=
  (atomicValue f.toNat c.h.w64 (BitVec.ofNat 64 (readLE sp x.2 (atomicBytes c.h.w64))) (atomicOperand c.h.w64 (c.G.lane x.1) t.toNat)
    (match c.h.ext with
      | some (.vec k) => atomicCompare c.h.w64 c.G k x.1
      | _ => 0)).toNat

/-- The register writes of the old value of a lane's piece. -/
def oldValue (c : Ctx) (t : BitVec 7) (sp : List Host.Cell) (x : Nat × Nat) : List (Nat × Nat × Word) :=
  atomicWrites c.h.w64 x.1 t.toNat (BitVec.ofNat 64 (readLE sp x.2 (atomicBytes c.h.w64)))

/-- A lane's operation, on the state and the register writes that the lower lanes have left. -/
def laneStep (c : Ctx) (t : BitVec 7) (f : BitVec 4) (returns : Bool) (r : State × List (Nat × Nat × Word)) (x : Nat × Nat) :
    State × List (Nat × Nat × Word) :=
  ((r.1.spadWrite c.u x.2 (bytesOf (atomicBytes c.h.w64) (newValue c t f (r.1.spad c.u) x))).digestWrite c.u c.g x.2
      (newValue c t f (r.1.spad c.u) x),
    if returns then r.2 ++ oldValue c t (r.1.spad c.u) x else r.2)

/-- The scratchpad that the first k lanes leave. -/
def spadAfter (c : Ctx) (t : BitVec 7) (f : BitVec 4) (las : List (Nat × Nat)) (k : Nat) : List Host.Cell :=
  (las.take k).foldl (fun sp x => writeBytes sp x.2 (bytesOf (atomicBytes c.h.w64) (newValue c t f sp x))) c.B.spad

/-- The register writes of the old values of the first k lanes' pieces. -/
def oldValues (c : Ctx) (t : BitVec 7) (f : BitVec 4) (las : List (Nat × Nat)) (k : Nat) : List (Nat × Nat × Word) :=
  (List.range k).flatMap fun i => oldValue c t (spadAfter c t f las i) (las.getD i (0, 0))

variable {r o : BitVec 7} {f : BitVec 4} {returns : Bool} {las : List (Nat × Nat)}

theorem take_succ_getD {k : Nat} (hk : k < las.length) : las.take (k + 1) = las.take k ++ [las.getD k (0, 0)] := by
  rw [List.take_succ_eq_append_getElem hk, List.getD_eq_getElem _ _ hk]

theorem spadAfter_succ {k : Nat} (hk : k < las.length) : spadAfter c r f las (k + 1) =
    writeBytes (spadAfter c r f las k) (las.getD k (0, 0)).2
      (bytesOf (atomicBytes c.h.w64) (newValue c r f (spadAfter c r f las k) (las.getD k (0, 0)))) := by
  rw [spadAfter, take_succ_getD hk, List.foldl_concat]
  rfl

theorem oldValues_succ (k : Nat) : oldValues c r f las (k + 1) =
    oldValues c r f las k ++ oldValue c r (spadAfter c r f las k) (las.getD k (0, 0)) := by
  rw [oldValues, List.range_succ, List.flatMap_append, List.flatMap_singleton]
  rfl

theorem atomicWrites_ne_nil (w64 : Bool) (l n : Nat) (m : Dword) : atomicWrites w64 l n m ≠ [] := by
  cases w64 <;> simp [atomicWrites]

theorem oldValues_isEmpty (c : Ctx) (r : BitVec 7) (f : BitVec 4) (las : List (Nat × Nat)) :
    (oldValues c r f las las.length).isEmpty = las.isEmpty := by
  cases las with
  | nil => rfl
  | cons x xs =>
    rw [List.length_cons, oldValues_succ]
    simp [oldValue, atomicWrites_ne_nil]

/-- The first k lanes have changed the scratchpad alone, and put their old values on their way. -/
theorem laneSteps {b : Block} {G : Gang} (hb : s.block? c.u = some b) (hspad : b.spad = c.B.spad) (hG : b.gangs[c.g]? = some G)
    (hchunk : G.chunk = none) {k : Nat} (hk : k ≤ las.length) :
    SpadIs c.u s b (spadAfter c r f las k) ((las.take k).foldl (laneStep c r f returns) (s, [])).1 ∧
      ((las.take k).foldl (laneStep c r f returns) (s, [])).2 = if returns then oldValues c r f las k else [] := by
  induction k with
  | zero => exact ⟨(hspad ▸ SpadIs.refl hb : SpadIs c.u s b c.B.spad s), by cases returns <;> rfl⟩
  | succ k ih =>
    obtain ⟨hstate, hwrites⟩ := ih (by omega)
    rw [take_succ_getD hk, List.foldl_concat, spadAfter_succ hk, oldValues_succ, laneStep, hstate.spad, hwrites]
    exact ⟨(hstate.spadWrite _ _).digestWrite hG hchunk _ _, by cases returns <;> rfl⟩

@[simp] theorem countedCtx_h (c : Ctx) : (countedCtx c).h = c.h := rfl

/-- The words counted towards regions are in no lane's operand. -/
theorem newValue_counted (sp : List Host.Cell) {x : Nat × Nat} (hx : x.1 < 32) :
    newValue (countedCtx c) r f sp x = newValue c r f sp x := by
  have hoperand : atomicOperand c.h.w64 ((counted c c.G).lane x.1) r.toNat = atomicOperand c.h.w64 (c.G.lane x.1) r.toNat := by
    simp only [atomicOperand, counted_reg c c.G _ hx, counted_pair c c.G _ hx]
  have hcompare (k : BitVec 7) : atomicCompare c.h.w64 (counted c c.G) k x.1 = atomicCompare c.h.w64 c.G k x.1 := by
    simp only [atomicCompare, counted_src c c.G _ _ hx, counted_src64 c c.G _ _ hx]
  simp only [newValue, countedCtx_G, countedCtx_h, hoperand, hcompare]

theorem laneSteps_counted (hlanes : ∀ x ∈ las, x.1 < 32) (y : State × List (Nat × Nat × Word)) :
    las.foldl (laneStep (countedCtx c) r f returns) y = las.foldl (laneStep c r f returns) y :=
  List.foldl_ext _ _ _ fun y x hx => by
    simp only [laneStep, newValue_counted _ (hlanes x hx)]
    rfl

/-! ### Their responses (R210) -/

/-- The response that register writes make, if there are any. -/
def responses (writes : List (Nat × Nat × Word)) : List Resp := if writes.isEmpty then [] else [{ writes := writes, far := false }]

/-- A gang with register writes on their way. -/
def responding (writes : List (Nat × Nat × Word)) (G : Gang) : Gang := { G with resp := G.resp ++ responses writes }

theorem respond_eq (s : State) (c : Ctx) (writes : List (Nat × Nat × Word)) :
    s.respond c false writes = s.modGang c.u c.g (responding writes) := by
  cases writes with
  | nil => exact (modGang_id s c.u c.g _ fun G => by simp [responding, responses]).symm
  | cons w ws => rfl

/-! ### The instructions -/

/-- What an atomic does once its checks have passed, in a gang without a chunk. -/
theorem spadAtomic_reaches {G : Gang}
    (hreach : ReachesSpad c (Access.atomic (atomicBytes c.h.w64) returns) (atomicBytes c.h.w64) (spadAddrs c o c.h.disp))
    (hG : s.gang? c.u c.g = some G) (hchunk : G.chunk = none) : spadAtomic r o f returns c s =
      let y := (spadAddrs c o c.h.disp).foldl (laneStep c r f returns) (s, [])
      .done (y.1.modGang c.u c.g (responding y.2)) := by
  dsimp only [spadAtomic]
  rw [spadCheck_reaches hreach s]
  dsimp only
  rw [spadAccess_unrecorded hG hchunk, respond_eq]
  rfl

variable {i : Instr} {h : Hdr} {g : BitVec 3}

theorem counted_gangs (hr : Ready i h g s c) : (c.B.modGang c.g (counted c)).gangs[c.g]? = some (counted c c.G) := by
  have hgang := counted_gang hr
  rwa [State.gang?, counted_block hr] at hgang

theorem moved_responding (i : Instr) (writes : List (Nat × Nat × Word)) (hchunk : c.G.chunk = none) :
    let G' := moved c (tagged i c (responding writes (counted c c.G)))
    G' = { c.G with lanes := G'.lanes, sheaf := G'.sheaf, resp := c.G.resp ++ responses writes } := by
  obtain ⟨v, hmoved⟩ := moved_tagged i c (responding writes (counted c c.G))
  have hnone : (responding writes (counted c c.G)).chunk = none := hchunk
  dsimp only
  rw [hmoved, hnone, hchunk]
  rfl

/-- The outcome is a next state in which the block alone has changed: its scratchpad is sp, and of its gang, besides its run,
responses have come after those on their way. -/
def LeavesSpad (x : Host.Outcome State Fault Refusal) (s : State) (c : Ctx) (sp : List Host.Cell) (rs : List Resp) : Prop :=
  ∃ u B' G', x = .next (after c u) ∧ BlockOnly c.u s u ∧ u.block? c.u = some B' ∧
    B' = { c.B with gangs := B'.gangs, spad := sp } ∧ u.gang? c.u c.g = some G' ∧ (∀ l < 32, LaneIs c G' l (c.G.lane l)) ∧
    G' = { c.G with lanes := G'.lanes, sheaf := G'.sheaf, resp := c.G.resp ++ rs }

/-- A ready instruction that leaves sp as the scratchpad of its block, and puts register writes on their way. -/
theorem responding_ready (hr : Ready i h g s c) (hy : isYield i = false) (hchunk : c.G.chunk = none) {body : Ctx → State → Eff}
    {sp : List Host.Cell} {writes : List (Nat × Nat × Word)}
    (hspad : SpadIs c.u (s.modGang c.u c.g (counted c)) (c.B.modGang c.g (counted c)) sp t)
    (hbody : body (countedCtx c) (s.modGang c.u c.g (counted c)) = .done (t.modGang c.u c.g (responding writes))) :
    LeavesSpad (issue i h g body s) s c sp (responses writes) := by
  have hG : t.gang? c.u c.g = some (counted c c.G) := hspad.gang (counted_gangs hr)
  have hgang (F : Gang → Gang) : (t.modGang c.u c.g F).gang? c.u c.g = some (F (counted c c.G)) := by
    rw [gang?_modGang, hG, Option.map_some]
  have hmembers : (responding writes (counted c c.G)).members ≠ 0 := (counted_members c).symm ▸ ready_members hr
  have hnext := done_ready hr hbody (hgang _) (ready_sheaf hr).2 (not_yield hy c) (.inr hmembers)
  rw [modGang_modGang] at hnext
  exact ⟨_, _, _, hnext, blockOnly_trans (blockOnly_trans (blockOnly_modGang ..) hspad.only) (blockOnly_modGang ..),
    by rw [block?_modGang, hspad.block, Option.map_some], rfl, hgang _, fun l hl => moved_laneIs hl (counted_is c l hl) rfl rfl,
    moved_responding i writes hchunk⟩

theorem spadAtomic_ready (hr : Ready i h g s c)
    (hreach : ReachesSpad c (Access.atomic (atomicBytes c.h.w64) returns) (atomicBytes c.h.w64) (spadAt c o c.h.disp)) :
    spadAtomic r o f returns (countedCtx c) (s.modGang c.u c.g (counted c)) =
      let y := (spadAt c o c.h.disp).foldl (laneStep c r f returns) (s.modGang c.u c.g (counted c), [])
      .done (y.1.modGang c.u c.g (responding y.2)) := by
  have hlanes : ∀ x ∈ spadAt c o c.h.disp, x.1 < 32 := fun x hx => by
    obtain ⟨l, hl, rfl⟩ := List.mem_map.1 hx
    exact (lanesOf_mem.1 hl).1
  rw [← spadAddrs_counted] at hreach hlanes ⊢
  rw [← laneSteps_counted hlanes]
  exact spadAtomic_reaches (reachesSpad_counted hreach) (counted_gang hr) hreach.chunk

/-- The lanes leave the scratchpad one after the other, and the old values go to the registers where the instruction returns them. -/
theorem spadAtomic_performs (hr : Ready i h g s c) (hy : isYield i = false)
    (hreach : ReachesSpad c (Access.atomic (atomicBytes c.h.w64) returns) (atomicBytes c.h.w64) (spadAt c o c.h.disp)) :
    let las := spadAt c o c.h.disp
    LeavesSpad (issue i h g (spadAtomic r o f returns) s) s c (spadAfter c r f las las.length)
      (if returns && !las.isEmpty then [{ writes := oldValues c r f las las.length, far := false }] else []) := by
  intro las
  have hsteps := laneSteps (r := r) (f := f) (returns := returns) (counted_block hr) rfl (counted_gangs hr) hreach.chunk
    (le_refl las.length)
  rw [List.take_length] at hsteps
  obtain ⟨hspad, hwrites⟩ := hsteps
  have hresp : responses (if returns then oldValues c r f las las.length else []) =
      if returns && !las.isEmpty then [{ writes := oldValues c r f las las.length, far := false }] else [] := by
    cases returns
    · rfl
    · cases hlas : las.isEmpty <;> simp [responses, oldValues_isEmpty, hlas]
  rw [← hresp, ← hwrites]
  exact responding_ready hr hy hreach.chunk hspad (spadAtomic_ready hr hreach)

/-- Settles O22: both instructions are the same operation, of which reductions return nothing. -/
theorem scratchpadAtomics : Obligations.ScratchpadAtomics := by
  unfold Obligations.ScratchpadAtomics
  intro h g t o f s c
  exact ⟨fun hr hreach => spadAtomic_performs hr rfl hreach, fun hr hreach => spadAtomic_performs hr rfl hreach⟩

end Sys2Proof.Proofs.ScratchpadAtomics
end

section
/-! PROOFS. Opening and ending atomic regions (R139, R147, R150-R152). -/

namespace Sys2Proof.Proofs.RegionControl
open Sys2Proof.Machine Sys2Proof.Safety Sys2Proof.Laws Sys2Proof.Proofs.Traps Sys2Proof.Proofs.GangEffects Sys2Proof.Proofs.Rejoin

variable {i : Instr} {h : Hdr} {g : BitVec 3} {s : State} {c : Ctx} {G : Gang} {l : Nat}

/-! ### Instructions that set the tags of registers themselves (R142) -/

/-- What an instruction does to tags, it does in its own effect. -/
def TagsItself (i : Instr) : Prop := ∀ slots G l t, i.tagEffect slots G l t = t

theorem modLanes_self (G : Gang) (m : BitVec 32) {f : Nat → Lane → Lane} (hf : ∀ l t, f l t = t) : G.modLanes m f = G := by
  have hlanes : (G.lanes.mapIdx fun l t => if m.getLsbD l then f l t else t) = G.lanes := by
    ext k hk
    simp [hf]
  rw [Gang.modLanes, hlanes]

theorem tagged_eq_self (htag : TagsItself i) (c : Ctx) (G : Gang) : tagged i c G = G := modLanes_self G _ fun l t => htag _ _ l t

/-- A thread that an instruction has left as t, outside or inside its handler as before, is t in the gang after the group. -/
theorem laneEq_moved (hl : l < 32) {t : Lane} (hG : G.lane l = t) (hhandler : t.handler = (c.G.lane l).handler)
    (hwatch : t.watchPass = (c.G.lane l).watchPass) : LaneEq c (moved c G) l t := by
  have hlane : (moved c G).lane l = if c.run.getLsbD l then
      { G.lane l with watchPass := (G.lane l).watchPass && ((counted c c.G).lane l).handler && !(G.lane l).handler }
      else G.lane l := modLanes_lane _ _ _ l hl
  have hcounted : ((counted c c.G).lane l).handler = (c.G.lane l).handler := by rw [(counted_same c l hl).1]
  rw [LaneEq, hlane, hcounted, hG, ← hhandler, ← hwatch]
  cases c.run.getLsbD l <;> simp

/-- An instruction that changes its gang by a function, under which the members of m leave the run. -/
theorem gangGoesOn_ready (hr : Ready i h g s c) {body : Ctx → State → Eff} {F : Gang → Gang} {m : BitVec 32} {P : Gang → Prop}
    (hb : body (countedCtx c) (s.modGang c.u c.g (counted c)) = .done ((s.modGang c.u c.g (counted c)).modGang c.u c.g F))
    (htag : TagsItself i) (hy : isYield i = false)
    (hsheaf : (F (counted c c.G)).sheaf = c.G.sheaf.map fun S => { S with out := S.out ||| m })
    (hchunk : (F (counted c c.G)).chunk = c.G.chunk) (hm : c.h.e = true ∨ (F (counted c c.G)).members ≠ 0)
    (hP : P (moved c (F (counted c c.G)))) : GangGoesOn (issue i h g body s) s c m P := by
  have hcommit : ∀ S, (F (counted c c.G)).sheaf = some S → S.commit = none := fun S hS => by
    obtain ⟨S₀, hS₀, rfl⟩ := Option.map_eq_some_iff.1 (hsheaf.symm.trans hS)
    exact (ready_sheaf hr).2 S₀ hS₀
  refine ⟨_, gang_ready hr hb hcommit (not_yield hy c) hm, ?_, ?_, ?_⟩ <;> simp only [tagged_eq_self htag]
  · rw [moved_kept, hsheaf, Option.map_map]
    rfl
  · rw [moved_kept, hchunk]
  · exact hP

/-! ### The words of a group in a region (R145) -/

/-- A region with n more words counted. -/
def moreWords (n : Nat) (r : Region) : Region := { r with count := r.count + n }

theorem counted_lane_none (hl : l < 32) (hreg : (c.G.lane l).region = none) : (counted c c.G).lane l = c.G.lane l := by
  rw [counted_lane c l hl, if_neg]
  simp [inRegion_lane _ l hl, hreg]

/-- A running member's region has room for the words of the group. -/
theorem counted_lane_some (hr : Ready i h g s c) (hl : l < 32) (hrun : c.run.getLsbD l = true) {r : Region}
    (hreg : (c.G.lane l).region = some r) :
    (counted c c.G).lane l = { c.G.lane l with region := some (moreWords c.n r) } := by
  have hwords := hr.words l hl hrun r hreg
  have hmin : min 65 (r.count + c.n) = r.count + c.n := by omega
  rw [counted_lane c l hl, if_pos (by simp [inRegion_lane _ l hl, hreg, hrun])]
  simp only [Lane.modRegion, hreg, Option.map_some, hmin, moreWords]

/-- A lane that the instruction leaves alone. -/
theorem laneIs_moved (hl : l < 32) (hG : G.lane l = (counted c c.G).lane l) : LaneIs c (moved c G) l (c.G.lane l) := by
  obtain ⟨hsame, hregion⟩ := counted_same c l hl
  have hmoved : LaneEq c (moved c G) l ((counted c c.G).lane l) := laneEq_moved hl hG (by rw [hsame]) (by rw [hsame])
  rw [LaneEq, hsame] at hmoved
  rw [LaneIs, hmoved]
  exact ⟨rfl, hregion⟩

/-! ### Opening a region (R139) -/

theorem target_eq (c : Ctx) (o : BitVec 21) : c.target o = BitVec.ofInt 32 (c.wpc.toNat + 4 * o.toInt) := by
  have ho : (o.signExtend 32).toInt = o.toInt := BitVec.toInt_signExtend_of_le (by decide)
  rw [Ctx.target, Int.mul_comm, BitVec.ofInt_add, BitVec.ofInt_mul, ← ho, BitVec.ofInt_toInt]
  simp

/-- A region can be opened only outside one (R140). -/
theorem rbegin_outside {o : BitVec 21} (hr : Ready (.rbegin h g o) h g s c) : c.act &&& c.G.inRegion = 0 := by
  by_contra hin
  exact Bool.false_ne_true (hr.legal hin)

theorem rbegin_opens {o : BitVec 21} (hr : Ready (.rbegin h g o) h g s c) :
    GangGoesOn (exec (.rbegin h g o) s) s c 0 fun G' => GangKept c G' ∧ ∀ l < 32,
      if c.act.getLsbD l then LaneEq c G' l { c.G.lane l with region := some (Region.opened (c.target o)) }
      else LaneIs c G' l (c.G.lane l) := by
  have htag : TagsItself (.rbegin h g o) := fun _ _ _ _ => rfl
  refine gangGoesOn_ready hr (F := fun G => G.modLanes c.act fun _ t => { t with region := some (Region.opened (c.target o)) }) rfl
    htag rfl (map_out_zero _).symm rfl (.inr ?_) ⟨rfl, fun l hl => ?_⟩
  · rw [modLanes_members]
    · exact (counted_members c).symm ▸ ready_members hr
    · exact fun _ _ => rfl
  · have hlane := modLanes_lane (counted c c.G) c.act (fun _ t => { t with region := some (Region.opened (c.target o)) }) l hl
    split
    · next hact =>
      refine laneEq_moved hl (hlane.trans ?_) rfl rfl
      rw [if_pos hact, (counted_same c l hl).1]
    · next hact => exact laneIs_moved hl (hlane.trans (if_neg hact))

/-! ### Handing regions over to the commit engine (R147) -/

/-- A gang whose sheaf waits at a rend. -/
def awaiting (c : Ctx) (G : Gang) : Gang := { G with sheaf := G.sheaf.map fun S => { S with commit := some (c.act, c.pc, c.n) } }

theorem execRend_eq (h : Hdr) (g : BitVec 3) (s : State) : exec (.rend h g) s =
    issue (.rend h g) h g (fun c s => if c.act = 0 then .done s else .done (s.modGang c.u c.g (awaiting c))) s := rfl

/-- A gang whose run has come to its rend: it goes no further, and counts no words (R147). -/
def stopped (c : Ctx) (G : Gang) : Gang := { moved c G with chunk := G.chunk }

theorem stopped_sheaf (c : Ctx) (G : Gang) :
    (stopped c G).sheaf = G.sheaf.map fun S => { S with pc := c.after, pos := S.pos + c.n } := rfl

theorem complete_of_waits (htag : TagsItself i) {s' : State} {G' : Gang} {S : Sheaf} (hG : s'.gang? c.u c.g = some G')
    (hS : G'.sheaf = some S) (hwaits : S.commit.isSome = true) :
    s'.complete i (countedCtx c) = { s'.modGang c.u c.g (stopped c) with cur := none } := by
  have hmove : (s'.modGang c.u c.g (tagged i c)).move (countedCtx c) = s'.modGang c.u c.g (stopped c) := by
    rw [modGang_id _ _ _ _ (tagged_eq_self htag c)]
    rfl
  have hgang : (s'.modGang c.u c.g (stopped c)).gang? c.u c.g = some (stopped c G') := by rw [gang?_modGang, hG]; rfl
  unfold State.complete
  extract_lets s₁ s₂ G₂ waits s₃
  have hs₂ : s₂ = s'.modGang c.u c.g (stopped c) := hmove
  have hG₂ : G₂ = stopped c G' := by
    show (s₂.gang? c.u c.g).getD _ = _
    rw [hs₂, hgang, Option.getD_some]
  have hwait : waits = true := by
    dsimp only [waits]
    rw [hG₂, stopped_sheaf, hS]
    exact hwaits
  have hs₃ : s₃ = s'.modGang c.u c.g (stopped c) := (if_pos hwait).trans hs₂
  rw [if_pos hwait, hs₃]

theorem rend_waits (hr : Ready (.rend h g) h g s c) (hact : c.act ≠ 0) : ∃ F : Gang → Gang,
    exec (.rend h g) s = .next { s.modGang c.u c.g F with cur := none } ∧ GangKept c (F c.G) ∧ (F c.G).chunk = c.G.chunk ∧
    (F c.G).sheaf = c.G.sheaf.map (fun S => { S with pc := c.after, pos := S.pos + c.n, commit := some (c.act, c.pc, c.n) }) ∧
    ∀ l < 32, LaneIs c (F c.G) l (c.G.lane l) := by
  obtain ⟨-, -, -, -, -, -, -, -, -, S, hS, -⟩ := ctx_spec hr.context
  have htag : TagsItself (.rend h g) := fun _ _ _ _ => rfl
  have hgang : ((s.modGang c.u c.g (counted c)).modGang c.u c.g (awaiting c)).gang? c.u c.g = some (awaiting c (counted c c.G)) := by
    rw [gang?_modGang, counted_gang hr]
    rfl
  have hsheaf : (awaiting c (counted c c.G)).sheaf = some { S with commit := some (c.act, c.pc, c.n) } :=
    congrArg (Option.map _) hS
  refine ⟨fun G => stopped c (awaiting c (counted c G)), ?_, rfl, rfl, Option.map_map .., fun l hl =>
    laneIs_moved (G := awaiting c (counted c c.G)) hl rfl⟩
  rw [execRend_eq, issue_ready hr]
  dsimp only
  rw [if_neg (show ¬(countedCtx c).act = 0 from hact), settle_done (c := countedCtx c) hr.notWithheld]
  exact congrArg _ ((complete_of_waits htag hgang hsheaf rfl).trans (by simp only [modGang_modGang]))

/-! ### Aborting a region (R150, R152) -/

/-- A gang outside replay and record that aborts regions of the lanes of m: the recorder's entry, then the aborts. -/
def aborted (m : BitVec 32) (cause : Nat) (detail : Nat → Nat) (G : Gang) : Gang :=
  ({ G with chunk := G.chunk.map fun k => { k with traps := k.traps ++ [(k.count, cause)] } } : Gang).abort m cause detail

theorem abortRegions_logged {t : State} {u k cause : Nat} {m : BitVec 32} (detail : Nat → Nat) (hG : t.gang? u k = some G)
    (hchunk : G.chunk = none) (hcause : loggedAbort cause = true) (hm : m &&& G.inRegion ≠ 0) :
    t.abortRegions u k m cause detail = t.modGang u k (aborted m cause detail) := by
  unfold State.abortRegions
  simp only [hG, if_neg hm, hcause, if_true, logTrap_none hG hchunk, modGang_modGang]
  rfl

theorem rabort_aborts {k : BitVec 8} (hr : Ready (.rabort h g k) h g s c) (hchunk : c.G.chunk = none) :
    GangGoesOn (exec (.rabort h g k) s) s c (c.act &&& c.G.inRegion) fun G' => GangKept c G' ∧
    ∀ l < 32, match (c.G.lane l).region with
      | some r => if c.act.getLsbD l then LaneEq c G' l { c.G.lane l with
          region := none
          rstat := BitVec.ofNat 32 (0x50 + 2 ^ 8 * k.toNat + 2 ^ 16 * (r.count + c.n))
          pc := r.fallback }
        else LaneIs c G' l (c.G.lane l)
      | none => LaneIs c G' l (c.G.lane l) := by
  have htag : TagsItself (.rabort h g k) := fun _ _ _ _ => rfl
  have he : c.h.e = true := (ctx_spec hr.context).2.2.1 ▸ hr.ends rfl
  have hexec : exec (.rabort h g k) s =
      issue (.rabort h g k) h g (fun c s => .done (s.abortRegions c.u c.g c.act 0x50 fun _ => k.toNat)) s := rfl
  have hG := counted_gang hr
  rw [hexec]
  by_cases hm : c.act &&& c.G.inRegion = 0
  · have hnone : (s.modGang c.u c.g (counted c)).abortRegions c.u c.g c.act 0x50 (fun _ => k.toNat) =
        (s.modGang c.u c.g (counted c)).modGang c.u c.g id := by
      rw [modGang_id _ _ _ id fun _ => rfl, State.abortRegions, hG]
      exact if_pos ((counted_inRegion c).symm ▸ hm)
    refine gangGoesOn_ready hr (F := id) (congrArg _ hnone) htag rfl (hm ▸ (map_out_zero _).symm) rfl (.inl he)
      ⟨rfl, fun l hl => ?_⟩
    have hkept : LaneIs c (moved c (counted c c.G)) l (c.G.lane l) := laneIs_moved hl rfl
    split
    · next r hreg =>
      have hact : ¬ c.act.getLsbD l = true := fun hact => by
        have := congrArg (·.getLsbD l) hm
        simp [inRegion_lane _ l hl, hreg, hact] at this
      rw [if_neg hact]
      exact hkept
    · exact hkept
  · have habort : (s.modGang c.u c.g (counted c)).abortRegions c.u c.g c.act 0x50 (fun _ => k.toNat) =
        (s.modGang c.u c.g (counted c)).modGang c.u c.g (aborted c.act 0x50 fun _ => k.toNat) :=
      abortRegions_logged _ hG hchunk rfl ((counted_inRegion c).symm ▸ hm)
    refine gangGoesOn_ready hr (congrArg _ habort) htag rfl ?_ ?_ (.inl he) ⟨rfl, fun l hl => ?_⟩
    · exact congrArg (fun m => c.G.sheaf.map fun S => { S with out := S.out ||| (c.act &&& m) }) (counted_inRegion c)
    · show Option.map _ c.G.chunk = c.G.chunk
      rw [hchunk]
      rfl
    · have hlane : (aborted c.act 0x50 (fun _ => k.toNat) (counted c c.G)).lane l =
          if c.act.getLsbD l then ((counted c c.G).lane l).abort 0x50 k.toNat else (counted c c.G).lane l := modLanes_lane _ _ _ l hl
      split
      · next r hreg =>
        split
        · next hact =>
          refine laneEq_moved hl (hlane.trans ?_) rfl rfl
          rw [if_pos hact, counted_lane_some hr hl (act_le_run hr l hact) hreg]
          simp only [Lane.abort, moreWords, rstatValue, Nat.mod_eq_of_lt k.isLt]
        · next hact => exact laneIs_moved hl (hlane.trans (if_neg hact))
      · next hreg =>
        refine laneIs_moved hl (hlane.trans ?_)
        rw [counted_lane_none hl hreg, Lane.abort, hreg, ite_self]

/-! ### The statement -/

/-- Settles O25: each instruction has its own theorem above. -/
theorem regionControl : Obligations.RegionControl := by
  unfold Obligations.RegionControl
  intro h g o k d s c
  refine ⟨fun hr => target_eq c o ▸ rbegin_opens hr, fun hr hact => noEffect_ready hr (if_pos hact) rfl, rend_waits, rabort_aborts,
    fun s c hr => ?_⟩
  exact lanesWriteVector (m := c.act) (w := fun _ _ t => t.rstat) hr rfl (fun l hl _ => by rw [(counted_same c l hl).1]) rfl

end Sys2Proof.Proofs.RegionControl
end

section
/-! PROOFS. What homes do for an access while no L1 holds a dirty byte: no byte of memory changes, no write takes its place in a line's
coherence order, and no line that was sound comes to be poisoned or to have an entry that cannot be read. -/

namespace Sys2Proof.Proofs.QuietHomes
open Sys2Proof.Machine Sys2Proof.Safety Sys2Proof.Laws Sys2Proof.Proofs.Caches Sys2Proof.Proofs.MemoryFrame

variable {s t : State} {line key : Nat}

/-! ### Entries and poison -/

/-- A listed entry of a line after a line's entry has been replaced. -/
theorem find?_replace (e : DirEntry) (line key : Nat) (xs : List DirEntry) :
    (xs.map fun x => if x.line = e.line ∧ x.key = e.key then e else x).find? (fun x => decide (x.line = line ∧ x.key = key)) =
      (xs.find? fun x => decide (x.line = line ∧ x.key = key)).map fun x => if e.line = line ∧ e.key = key then e else x := by
  induction xs with
  | nil => rfl
  | cons x xs ih =>
    rw [List.map_cons, List.find?_cons, List.find?_cons, ih]
    by_cases hx : x.line = e.line ∧ x.key = e.key
    · obtain ⟨hline, hkey⟩ := hx
      by_cases he : e.line = line ∧ e.key = key <;> simp [hline, hkey, he]
    · by_cases hmine : x.line = line ∧ x.key = key
      · have he : ¬(e.line = line ∧ e.key = key) := by rintro ⟨rfl, rfl⟩; exact hx hmine
        rw [if_neg hx]
        simp [hmine, he]
      · rw [if_neg hx]
        simp [hmine]

theorem entry_setEntry (s : State) (e : DirEntry) (line key : Nat) : (s.setEntry e).entry line key =
    if e.line = line ∧ e.key = key then { e with used := s.tick } else s.entry line key := by
  unfold State.setEntry State.entry State.tracked
  dsimp only
  split
  · next htracked =>
    have hfind := find?_replace { e with used := s.tick } line key s.dir
    dsimp only at hfind
    rw [hfind]
    by_cases he : e.line = line ∧ e.key = key
    · obtain ⟨rfl, rfl⟩ := he
      obtain ⟨x, hx⟩ := Option.isSome_iff_exists.1 (List.find?_isSome.2 (List.any_eq_true.1 htracked))
      rw [hx, if_pos ⟨rfl, rfl⟩, Option.map_some, if_pos ⟨rfl, rfl⟩]
      rfl
    · simp only [if_neg he, Option.map_id']
  · next hfresh =>
    rw [List.find?_append]
    by_cases he : e.line = line ∧ e.key = key
    · obtain ⟨rfl, rfl⟩ := he
      rw [List.find?_eq_none.2 fun x hx => by simpa using fun hsame => hfresh (List.any_eq_true.2 ⟨x, hx, hsame⟩)]
      simp
    · simp [he]

theorem entry_freeEntry (s : State) (line key line' key' : Nat) : (s.freeEntry line key).entry line' key' =
    if line = line' ∧ key = key' then DirEntry.absent line' key' else s.entry line' key' := by
  unfold State.freeEntry State.entry
  rw [List.find?_filter]
  split
  · next hsame =>
    obtain ⟨rfl, rfl⟩ := hsame
    rw [List.find?_eq_none.2 fun x _ => by by_cases hx : x.line = line ∧ x.key = key <;> simp [hx]]
    rfl
  · next hne =>
    congr 2
    funext x
    by_cases hx : x.line = line' ∧ x.key = key'
    · obtain ⟨rfl, rfl⟩ := hx
      have hother : ¬(x.line = line ∧ x.key = key) := fun hsame => hne ⟨hsame.1.symm, hsame.2.symm⟩
      simp [hother]
    · simp [hx]

/-- An entry is that of its line. -/
theorem entry_line (s : State) (line key : Nat) : (s.entry line key).line = line ∧ (s.entry line key).key = key := by
  unfold State.entry
  cases hfind : s.dir.find? fun e => decide (e.line = line ∧ e.key = key) with
  | none => exact ⟨rfl, rfl⟩
  | some e => simpa using List.find?_some hfind

theorem poisonBits_l3Fill (s : State) (line key line' key' : Nat) :
    (s.l3Fill line key).poisonBits line' key' = s.poisonBits line' key' := by
  unfold State.l3Fill
  split
  · rfl
  · next hnone =>
    unfold State.poisonBits
    unfold State.l3Line? at hnone ⊢
    simp only [List.find?_append]
    cases hfind : s.l3.find? fun x => decide (x.line = line' ∧ x.key = key') with
    | some x => rfl
    | none =>
      by_cases hsame : line = line' ∧ key = key'
      · obtain ⟨rfl, rfl⟩ := hsame
        simp
      · simp [hsame]
        rfl

theorem poisonBits_modL3 (s : State) (line key line' key' : Nat) {f : L3Line → L3Line}
    (hf : ∀ x, (f x).line = x.line ∧ (f x).key = x.key) (hpoison : line = line' → key = key' → ∀ x, (f x).poison = x.poison) :
    (s.modL3 line key f).poisonBits line' key' = s.poisonBits line' key' := by
  simp only [State.poisonBits, l3Line?_modL3 s line key line' key' f hf]
  by_cases hsame : line = line' ∧ key = key'
  · rw [if_pos hsame]
    cases s.l3Line? line' key' with
    | none => rfl
    | some x => exact hpoison hsame.1 hsame.2 x
  · rw [if_neg hsame]
    rfl

/-! ### Sound lines and quiet work -/

/-- A line of this device, none of whose dies has failed, whose entry can be read and whose bytes carry no poison (R370-R372). -/
structure Sound (s : State) (line key : Nat) : Prop where
  alive : s.dieFailed = 0
  here : s.local (line * 128) = true
  good : (s.entry line key).bad = false
  clean : s.poisonBits line key = 0

/-- What a line's soundness depends on. -/
theorem Sound.congr {u : State} (h : Sound t line key) (hwork : MemoryWork t u) (hentry : (u.entry line key).bad = (t.entry line key).bad)
    (hpoison : u.poisonBits line key = t.poisonBits line key) : Sound u line key where
  alive := by rw [hwork]; exact h.alive
  here := by rw [hwork]; exact h.here
  good := hentry.trans h.good
  clean := hpoison.trans h.clean

/-- From s to t homes and caches have worked, and no L1 had a dirty byte for them. -/
structure Quiet (s t : State) : Prop where
  work : MemoryWork s t
  noDirty : noDirty t
  bytes : SameBytes s t
  writes : t.writes = s.writes
  sound : ∀ line key, Sound s line key → Sound t line key

theorem Quiet.refl (h : Safety.noDirty s) : Quiet s s := ⟨.refl s, h, fun _ _ => rfl, rfl, fun _ _ h => h⟩

theorem Quiet.ite {u : State} {c : Prop} [Decidable c] (ht : Quiet s t) (hu : Quiet s u) : Quiet s (if c then t else u) := by
  split
  · exact ht
  · exact hu

/-- One more piece of upkeep. -/
theorem Quiet.step {u : State} (h : Quiet s t) (hupkeep : Upkeep t u) (hwork : MemoryWork t u) (hwrites : u.writes = t.writes)
    (hsound : ∀ line key, Sound s line key → Sound t line key → Sound u line key) : Quiet s u where
  work := h.work.trans hwork
  noDirty := (hupkeep.bytes h.noDirty).1
  bytes key pa := ((hupkeep.bytes h.noDirty).2 key pa).trans (h.bytes key pa)
  writes := hwrites.trans h.writes
  sound line key hs := hsound line key hs (h.sound line key hs)

/-- A piece of upkeep on neither entries nor slices. -/
theorem Quiet.of_eq {u : State} (h : Quiet s t) (hupkeep : Upkeep t u) (hwork : MemoryWork t u) (hwrites : u.writes = t.writes)
    (hdir : u.dir = t.dir) (hl3 : u.l3 = t.l3) (hlines : u.lines = t.lines) : Quiet s u :=
  h.step hupkeep hwork hwrites fun line key _ ht => ht.congr hwork (by rw [State.entry, hdir, ← State.entry])
    (by simp only [State.poisonBits, State.l3Line?, State.line, hl3, hlines])

theorem Quiet.setL2 (h : Quiet s t) (x : L2Line) : Quiet s (t.setL2 x) :=
  h.of_eq ((Upkeep.refl t).setL2 x) (memoryWork_setL2 t x) rfl rfl rfl rfl

theorem Quiet.setL2st (h : Quiet s t) (d line key : Nat) (st : L2State) : Quiet s (t.setL2st d line key st) := h.setL2 _

theorem Quiet.useL2 (h : Quiet s t) (d line key : Nat) : Quiet s (t.useL2 d line key) := by
  unfold State.useL2
  split
  · exact h.setL2 _
  · exact h

theorem setEntry_kept (t : State) (e : DirEntry) : (t.setEntry e).writes = t.writes ∧ (t.setEntry e).l3 = t.l3 ∧
    (t.setEntry e).lines = t.lines := by
  unfold State.setEntry
  dsimp only
  split <;> exact ⟨rfl, rfl, rfl⟩

/-- An entry that takes the place of a line's can be read, if the line was sound. -/
theorem Quiet.setEntry (h : Quiet s t) {e : DirEntry} (hgood : Sound s e.line e.key → e.bad = false) : Quiet s (t.setEntry e) := by
  obtain ⟨hwrites, hl3, hlines⟩ := setEntry_kept t e
  refine h.step ((Upkeep.refl t).setEntry e) (memoryWork_setEntry t e) hwrites fun line key hs ht =>
    ht.congr (memoryWork_setEntry t e) ?_ (by simp only [State.poisonBits, State.l3Line?, State.line, hl3, hlines])
  rw [entry_setEntry, ht.good]
  split
  · next hsame =>
    obtain ⟨rfl, rfl⟩ := hsame
    exact hgood hs
  · exact ht.good

/-- A line's entry stays as readable as it is. -/
theorem Quiet.good (h : Quiet s t) (hs : Sound s line key) : (t.entry line key).bad = false := (h.sound line key hs).good

/-- A line's entry changed, but for whether it can be read. -/
theorem Quiet.modEntry (h : Quiet s t) {u : State} (hu : Quiet s u) {e : DirEntry} (hline : e.line = (t.entry line key).line)
    (hkey : e.key = (t.entry line key).key) (hbad : e.bad = (t.entry line key).bad) : Quiet s (u.setEntry e) := by
  obtain ⟨hl, hk⟩ := entry_line t line key
  refine hu.setEntry fun hs => hbad.trans (h.good ?_)
  rwa [hline, hkey, hl, hk] at hs

theorem Quiet.freeEntry (h : Quiet s t) (line key : Nat) : Quiet s (t.freeEntry line key) :=
  h.step ((Upkeep.refl t).freeEntry line key) (memoryWork_freeEntry t line key) rfl fun line' key' _ ht =>
    ht.congr (memoryWork_freeEntry t line key) (by
      rw [entry_freeEntry, ht.good]
      split
      · rfl
      · exact ht.good) rfl

theorem Quiet.idleEntry (h : Quiet s t) (line key : Nat) : Quiet s (t.idleEntry line key) :=
  .ite h (h.modEntry (line := line) (key := key) h rfl rfl rfl)

theorem Quiet.restEntry (h : Quiet s t) (line key : Nat) : Quiet s (t.restEntry line key) :=
  .ite (h.freeEntry ..) (h.modEntry (line := line) (key := key) h rfl rfl rfl)

/-! ### Lines of the slices -/

theorem Quiet.l3Fill (h : Quiet s t) (line key : Nat) : Quiet s (t.l3Fill line key) := by
  have hfill := l3Fill_eq t line key
  refine h.step ((Upkeep.refl t).l3Fill line key) (memoryWork_l3Fill t line key) (by rw [hfill]) fun line' key' _ ht =>
    ht.congr (memoryWork_l3Fill t line key) (by rw [hfill]; rfl) (poisonBits_l3Fill ..)

/-- A line of a slice changed, but for its data, and for its poison if the line was sound. -/
theorem Quiet.modL3 (h : Quiet s t) {f : L3Line → L3Line} (hf : ∀ x, (f x).line = x.line ∧ (f x).key = x.key)
    (hdata : ∀ x, (f x).data = x.data) (hpoison : Sound s line key → ∀ x, (f x).poison = x.poison) : Quiet s (t.modL3 line key f) :=
  h.step ((Upkeep.refl t).modL3 line key f hf hdata) (memoryWork_modL3 t line key f) rfl fun line' key' hs ht =>
    ht.congr (memoryWork_modL3 t line key f) rfl
      (poisonBits_modL3 t line key line' key' hf fun hline hkey => hpoison (by subst hline hkey; exact hs))

/-- A line that was not sound may be poisoned. -/
theorem Quiet.poison (h : Quiet s t) (hnot : ¬ Sound s line key) (pieces : BitVec 16) (src : BitVec 2) :
    Quiet s (t.poison line key pieces src) := by
  unfold State.poison
  split
  · exact (h.l3Fill line key).modL3 (fun _ => ⟨rfl, rfl⟩) (fun _ => rfl) fun hs => absurd hs hnot
  · next hfar =>
    have hline := modLine_eq t line fun m => { m with poison := m.poison ||| pieces, psrc := src }
    refine h.step ((Upkeep.refl t).modLine line _ (fun _ => rfl) fun _ => rfl) (memoryWork_modLine t line _) (by rw [hline])
      fun line' key' _ ht => ht.congr (memoryWork_modLine t line _) (by rw [hline]; rfl) ?_
    have hne : line' ≠ line := by
      rintro rfl
      exact hfar ht.here
    have hl3 : ∀ f, (t.modLine line f).l3 = t.l3 := fun f => by rw [modLine_eq]
    simp only [State.poisonBits, State.l3Line?, hl3, if_neg hne,
      line_modLine t line line' (fun m => { m with poison := m.poison ||| pieces, psrc := src }) fun _ => rfl]

theorem Quiet.modHomeClocks (h : Quiet s t) (line key : Nat) (f : Vector Clocks 4 → Vector Clocks 4) :
    Quiet s (t.modHomeClocks line key f) := by
  unfold State.modHomeClocks
  split
  · exact (h.l3Fill line key).modL3 (fun _ => ⟨rfl, rfl⟩) (fun _ => rfl) fun _ _ => rfl
  · exact h.of_eq ((Upkeep.refl t).of_eq rfl rfl rfl rfl rfl rfl rfl) rfl rfl rfl rfl rfl

theorem Quiet.homeData (h : Quiet s t) (line key : Nat) : Quiet s (t.homeData line key) := .ite (h.l3Fill ..) h

/-! ### Copies are given up -/

theorem Quiet.foldl {α : Type} (h : Quiet s t) {f : State → α → State} (hf : ∀ u x, Quiet s u → Quiet s (f u x)) (l : List α) :
    Quiet s (l.foldl f t) := foldl_keeps (Quiet s) f hf l t h

theorem Quiet.collectDie (h : Quiet s t) (d line key : Nat) : Quiet s (t.collectDie d line key) := by
  have hnone (a : BitVec 128) : Quiet s ((List.range 8).foldl (fun s c => s.collectL1 (8 * d + c) line key a) t) :=
    h.foldl (fun u _ hu => by rw [collectL1_eq_self hu.noDirty]; exact hu) _
  unfold State.collectDie
  dsimp only
  exact .ite ((hnone _).setL2 _) (hnone _)

theorem Quiet.dropForRecord (h : Quiet s t) (d line key : Nat) : Quiet s (t.dropForRecord d line key) := by
  have hupkeep := (Upkeep.refl t).dropForRecord d line key
  have hwork := memoryWork_dropForRecord t d line key
  unfold State.dropForRecord at hupkeep hwork ⊢
  split at hupkeep
  · next hrec =>
    rw [if_pos hrec] at hwork ⊢
    exact h.of_eq hupkeep hwork rfl rfl rfl rfl
  · next hrec =>
    rw [if_neg hrec]
    exact h

theorem Quiet.downgrade (h : Quiet s t) (line key d : Nat) (st : L2State) : Quiet s (t.downgrade line key d st) :=
  (h.setL2st ..).dropForRecord ..

theorem Quiet.giveUp (h : Quiet s t) (line key d : Nat) : Quiet s (t.giveUp line key d) := by
  have hcollected := h.collectDie d line key
  exact (Quiet.setL2st (.ite (hcollected.modHomeClocks ..) hcollected) ..).dropForRecord ..

theorem Quiet.recallCopies (h : Quiet s t) (line key : Nat) : Quiet s (t.recallCopies line key) :=
  h.foldl (fun _ _ hu => hu.giveUp ..) _

/-! ### What a home does before it serves a line -/

theorem Quiet.settle (h : Quiet s t) (line key : Nat) : Quiet s (t.settle line key) := by
  have hentry := @Quiet.modEntry s t line key h
  have hnone : Sound s line key → ((t.holdersOf line key).filter fun d => t.dieFailed.getLsbD d) = [] := fun hs => by
    rw [(h.sound _ _ hs).alive]
    simp
  unfold State.settle
  extract_lets e dead lost owned priv cleared merged poisoned gone late
  have hcleared (ds : List Nat) {u : State} (hu : Quiet s u) : Quiet s (ds.foldl (fun s d => s.setL2st d line key .i) u) :=
    hu.foldl (fun _ _ hu => hu.setL2st ..) _
  have hmerged : Quiet s merged := .ite (hcleared _ (hcleared _ h)) (.ite ((hcleared _ h).recallCopies ..) (hcleared _ h))
  have hpoisoned : Quiet s poisoned := by
    by_cases hs : Sound s line key
    · have hdead : dead = [] := hnone hs
      have howned : owned = false := by simp only [owned, hdead, List.any_nil]
      have hpriv : priv = false := by simp only [priv, hdead, List.any_nil]
      simpa only [poisoned, howned, hpriv, Bool.false_eq_true, if_false] using hmerged
    · exact .ite (hmerged.poison hs ..) (.ite (hmerged.poison hs ..) hmerged)
  refine .ite h ?_
  split
  · exact .ite (hentry hpoisoned rfl rfl rfl) (hentry hpoisoned rfl rfl rfl)
  · exact .ite (hpoisoned.idleEntry ..) (hentry hpoisoned rfl rfl rfl)

theorem Quiet.readEntry (h : Quiet s t) (line key : Nat) : Quiet s (t.readEntry line key) := by
  unfold State.readEntry
  split
  · next hbad =>
    have hnot : ¬ Sound s line key := fun hs => by simp [h.good hs] at hbad
    have hrecalled := (h.settle line key).recallCopies line key
    exact Quiet.setEntry (.ite hrecalled (hrecalled.poison hnot ..)) fun _ => rfl
  · exact h

theorem Quiet.privatise (h : Quiet s t) (line key : Nat) (ms : List (Nat × BitVec 128)) : Quiet s (t.privatise line key ms) := by
  unfold State.privatise
  extract_lets clk u
  have hu : Quiet s u := h.foldl (fun _ _ hu => hu.setL2 _) ms
  exact hu.modEntry (line := line) (key := key) hu rfl rfl rfl

theorem Quiet.grantS (h : Quiet s t) (line key d : Nat) : Quiet s (t.grantS line key d) := by
  unfold State.grantS
  extract_lets merged e bit
  have hmerged : Quiet s merged := .ite ((h.recallCopies ..).idleEntry ..) h
  have hentry := @Quiet.modEntry s merged line key hmerged
  split
  · next o _ =>
    have hcollected := hmerged.collectDie o line key
    refine .ite hmerged ?_
    dsimp only
    split
    · exact hentry ((hcollected.downgrade ..).setL2st ..) rfl rfl rfl
    · exact hentry ((hcollected.downgrade ..).setL2st ..) rfl rfl rfl
    · exact hentry (hcollected.setL2st ..) rfl rfl rfl
  · have hfilled := hmerged.homeData line key
    exact .ite (hentry (hfilled.setL2st ..) rfl rfl rfl) (hentry (hfilled.setL2st ..) rfl rfl rfl)

theorem Quiet.grantM (h : Quiet s t) (line key d : Nat) (mask : BitVec 128) : Quiet s (t.grantM line key d mask) := by
  have hentry := @Quiet.modEntry s t line key h
  unfold State.grantM
  extract_lets e from_ moves given filled alone ms
  have hgiven : Quiet s given := h.foldl (fun _ _ hu => hu.giveUp ..) _
  have hfilled : Quiet s filled := hgiven.homeData ..
  have halone : Quiet s alone := hentry (hfilled.setL2st ..) rfl rfl rfl
  have hmoved : Quiet s ((filled.recallCopies line key).setEntry { e with moves := moves }) := hentry (hfilled.recallCopies ..) rfl rfl rfl
  exact .ite (.ite (hmoved.privatise ..) halone) halone

theorem Quiet.grant (h : Quiet s t) (line key : Nat) (r : Nat × Bool) : Quiet s (t.grant line key r) :=
  .ite h (.ite (.ite h (h.grantM ..)) (.ite (h.grantS ..) h))

theorem Quiet.finishHeld (h : Quiet s t) (line key : Nat) : Quiet s (t.finishHeld line key) := by
  unfold State.finishHeld
  dsimp only
  split
  · exact h
  · exact (h.restEntry ..).foldl (fun _ _ hu => hu.grant ..) _

theorem Quiet.touch (h : Quiet s t) (line key : Nat) : Quiet s (t.touch line key) :=
  ((h.readEntry ..).settle ..).finishHeld ..

/-! ### Accesses and locks -/

theorem Quiet.recallLine (h : Quiet s t) (line key : Nat) : Quiet s (t.recallLine line key) :=
  ((h.touch ..).recallCopies ..).idleEntry ..

theorem Quiet.allocEntry (h : Quiet s t) (line key : Nat) : Quiet s (t.allocEntry line key) := by
  unfold State.allocEntry
  dsimp only
  refine .ite h (.ite h ?_)
  split
  · exact (h.recallLine ..).freeEntry ..
  · exact (h.recallLine ..).freeEntry ..
  · exact h

/-- A die obtains a line for reading (R364). -/
theorem Quiet.getShared (h : Quiet s t) (line key d : Nat) (mask : BitVec 128) : Quiet s (t.getShared line key d mask) := by
  unfold State.getShared
  dsimp only
  split
  · exact ((h.touch ..).allocEntry ..).grantS ..
  · exact .ite (h.useL2 ..) ((h.touch ..).grantS ..)
  · exact h.useL2 ..

/-- A commit locks a line (R149). -/
theorem Quiet.lockLine (h : Quiet s t) (line key : Nat) : Quiet s (t.lockLine line key) := by
  unfold State.lockLine
  extract_lets u
  have hu : Quiet s u := (h.recallLine line key).allocEntry line key
  clear_value u
  exact hu.modEntry (line := line) (key := key) hu rfl rfl rfl

end Sys2Proof.Proofs.QuietHomes
end

section
/-! PROOFS. Reads and writes inside an atomic region: the checks of their accesses pass, and their lanes follow one another
(R141, R142, R144). -/

namespace Sys2Proof.Proofs.RegionAccesses
open Sys2Proof.Machine Sys2Proof.Safety Sys2Proof.Laws Sys2Proof.Proofs.Caches Sys2Proof.Proofs.MemoryFrame Sys2Proof.Proofs.QuietHomes
open Sys2Proof.Proofs.Steps Sys2Proof.Proofs.Traps Sys2Proof.Proofs.GangEffects Sys2Proof.Proofs.RegisterEvents
open Sys2Proof.Proofs.ScratchpadAtomics Sys2Proof.Proofs.RegionControl

variable {s t : State} {c : Ctx}

/-! ### Translation does not look at blocks -/

section Place
variable (bs : List Block) (s : State)

theorem walkFrom_blocks (va lvl t : Nat) : ({ s with blocks := bs } : State).walkFrom va lvl t = s.walkFrom va lvl t := by
  induction lvl generalizing t with
  | zero => rw [State.walkFrom, State.walkFrom]; rfl
  | succ lvl ih => rw [State.walkFrom, State.walkFrom]; simp only [ih]; rfl

theorem translate_blocks (w : TUnit) (p va : Nat) : ({ s with blocks := bs } : State).translate w p va = s.translate w p va := by
  have hwalk : ({ s with blocks := bs } : State).walk p va = s.walk p va := walkFrom_blocks ..
  have hby : ({ s with blocks := bs } : State).walkBy w p va = s.walkBy w p va := by
    simp only [State.walkBy, hwalk, walkFrom_blocks]
  unfold State.translate
  rw [hby]
  rfl

theorem place_blocks (w : TUnit) (p va : Nat) (need : Needs) :
    ({ s with blocks := bs } : State).place w p va need = s.place w p va need := by
  unfold State.place
  rw [translate_blocks]
  rfl

theorem regionPlace_blocks (w : TUnit) (p va : Nat) (need : Needs) :
    ({ s with blocks := bs } : State).regionPlace w p va need = s.regionPlace w p va need := by
  unfold State.regionPlace
  rw [place_blocks, translate_blocks]
  rfl

theorem placeOf_blocks (c : Ctx) (a : Access) (va : Nat) : placeOf c a { s with blocks := bs } va = placeOf c a s va := by
  unfold placeOf
  rw [place_blocks, regionPlace_blocks]
  rfl

end Place

/-- A fold none of whose steps changes the state. -/
theorem foldl_eq_self {α : Type} {f : State → α → State} {l : List α} (h : ∀ x ∈ l, f s x = s) : l.foldl f s = s := by
  induction l with
  | nil => rfl
  | cons x l ih => rw [List.foldl_cons, h x List.mem_cons_self, ih fun y hy => h y (List.mem_cons_of_mem x hy)]

/-! ### The checks of an access that reaches its places (R100) -/

section Checks
variable {a : Access} {las : List (Nat × Nat)} {xs : List Spot}

/-- The places do not change with the words that have been counted. -/
theorem reaches_counted (hreach : Reaches c s a las xs) : Reaches (countedCtx c) (s.modGang c.u c.g (counted c)) a las xs where
  aligned := hreach.aligned
  parked := hreach.parked
  watch := hreach.watch
  chunk := hreach.chunk
  fresh := hreach.fresh
  lanes := hreach.lanes
  places x hx := ⟨(placeOf_blocks ..).trans (hreach.places x hx).1, (hreach.places x hx).2⟩
  here := hreach.here
  served x hx := ⟨(hreach.served x hx).good, (hreach.served x hx).free, (hreach.served x hx).alive⟩
  sound := hreach.sound

/-- The translations of the accesses are kept. -/
def translated (c : Ctx) (las : List (Nat × Nat)) (s : State) : State := las.foldl (fun s x => s.cacheTrans c.unit c.L.part x.2) s

theorem translated_frame (c : Ctx) (las : List (Nat × Nat)) (s : State) : translated c las s =
    { s with tlb := (translated c las s).tlb, tables := (translated c las s).tables, freeCtr := (translated c las s).freeCtr } := by
  have hcached : Cached c.B.core c.L.part (fun _ => True) s (translated c las s) :=
    foldl_keeps (Cached c.B.core c.L.part (fun _ => True) s) _ (fun _ _ ht => ht.cacheTrans (w := c.unit) rfl trivial) las s .refl
  exact hcached.frame

variable (hreach : Reaches c s a las xs)
include hreach

/-- A home that has nothing to do is not changed by an access that reaches it. -/
theorem reach_served {x : Spot} (hx : x ∈ xs) (cl n : Nat) (atomic : Bool) :
    (translated c las s).reach cl x.key x.pa n atomic = translated c las s := by
  have hserved : Served (translated c las s) (lineOf x.pa) x.key := by
    have h := hreach.served x hx
    rw [translated_frame]
    exact ⟨h.good, h.free, h.alive⟩
  unfold State.reach
  rw [touch_of_served hserved, ite_self]

theorem readPoison_sound {x : Spot} (hx : x ∈ xs) (cl : Nat) : (translated c las s).readPoison cl x.key x.pa a.n = none := by
  have hsound : (translated c las s).poisoned x.key x.pa a.n = false := by
    rw [translated_frame]
    exact hreach.sound x hx
  unfold State.readPoison
  rw [hsound]
  simp

theorem globalCheck_reaches : globalCheck c a las s = .ok ((translated c las s).unpark c.u c.g, xs) := by
  have hbad : (las.filter fun x => decide (x.2 % a.n ≠ 0)) = [] :=
    List.filter_eq_nil_iff.2 fun x hx => by simp [hreach.aligned x hx]
  have hwatch : watchThread c false a las s = .ok s := if_pos (by rw [hreach.watch]; rfl)
  have hplaces : (las.map fun x => (x, placeOf c a s x.2)) = xs.map fun x => ((x.lane, x.va), Place.ok x.pa x.key) := by
    rw [hreach.lanes, List.map_map]
    exact List.map_congr_left fun x hx => by simp only [Function.comp, (hreach.places x hx).1]
  have hlocal : ∀ x ∈ xs, (translated c las s).local x.pa = true := fun x hx => by
    rw [translated_frame]
    exact hreach.here x hx
  have hspots : (xs.filterMap fun x => some ({ lane := x.lane, va := x.va, pa := x.pa, key := x.key } : Spot)) = xs :=
    List.filterMap_some
  have hcached : las.foldl (fun s x => s.cacheTrans c.unit c.L.part x.2) s = translated c las s := rfl
  have haway (q : Spot → Bool) : (xs.filter fun x => !(translated c las s).local x.pa && q x) = [] :=
    List.filter_eq_nil_iff.2 fun x hx => by simp [hlocal x hx]
  have hreached (cl : Nat) : xs.foldl (fun s x => s.reach cl x.key x.pa a.n a.wr) (translated c las s) = translated c las s :=
    foldl_eq_self fun x hx => reach_served hreach hx ..
  have hsick (cl : Nat) : (xs.filterMap fun x => ((translated c las s).readPoison cl x.key x.pa a.n).map fun b => (x, b)) = [] :=
    List.filterMap_eq_nil_iff.2 fun x hx => by rw [readPoison_sound hreach hx, Option.map_none]
  unfold globalCheck
  simp only [hbad, hwatch, hplaces, List.filterMap_map, Function.comp_def, hspots, List.filterMap_none, hcached, haway, hreached, hsick, List.isEmpty_nil,
    Bool.not_true, Bool.false_eq_true, if_false, ite_self, List.filter_nil]

/-- The state after the checks of accesses that pass. -/
def passed (c : Ctx) (las : List (Nat × Nat)) (s : State) : State := (translated c las s).unpark c.u c.g

end Checks

/-! ### The checks of a region's access (R145, R155) -/

section RegionChecks
variable {a : Access} {b : BitVec 4} {o : BitVec 7} {xs : List Spot} {full : Region → Bool}

theorem passed_gang {las : List (Nat × Nat)} (hG : s.gang? c.u c.g = some c.G) (hparked : c.G.parked = none) :
    (passed c las s).gang? c.u c.g = some c.G := by
  have htranslated : (translated c las s).gang? c.u c.g = s.gang? c.u c.g := by rw [translated_frame]; rfl
  rw [passed, State.unpark, gang?_modGang, htranslated, hG, Option.map_some, ← hparked]

/-- The lanes of the accesses are the active ones, in their order. -/
theorem lanes_of_reach (hreach : Reaches c s a (globalAddrs c b.toNat o) xs) : xs.map Spot.lane = lanesOf c.act := by
  have h := congrArg (List.map Prod.fst) hreach.lanes
  simpa [globalAddrs, Function.comp_def] using h.symm

theorem maskOf_false : maskOf (fun _ => false) = 0 := by decide

theorem cutLanes_none {f : Nat → Bool} {ls : List Nat} (hf : ∀ l ∈ ls, f l = false) (cause : Nat) :
    cutLanes c cause f ls s = (s, ls) := by
  have hbad : ls.filter f = [] := List.filter_eq_nil_iff.2 fun l hl => by simp [hf l hl]
  have hgood : (ls.filter fun l => !f l) = ls := List.filter_eq_self.2 fun l hl => by simp [hf l hl]
  rw [cutLanes, hbad, hgood]
  simp only [List.not_mem_nil, decide_false, maskOf_false, abortRegions_none]

/-- Regions with room, whose accesses reach their places: none aborts, and every lane has its place. -/
theorem regionAccess_reaches (hreach : Reaches c s { a with region := true } (globalAddrs c b.toNat o) xs) (cause : Nat)
    (hroom : ∀ x ∈ xs, ∃ r, (c.G.lane x.lane).region = some r ∧ full r = false ∧ r.noRoom (lineOf x.pa) = false) :
    regionAccess c a full cause o b s = .ok (passed c (globalAddrs c b.toNat o) s, xs) := by
  have hall : ((globalAddrs c b.toNat o).filter fun x => decide (x.1 ∈ lanesOf c.act)) = globalAddrs c b.toNat o :=
    List.filter_eq_self.2 fun x hx => by
      obtain ⟨l, hl, rfl⟩ := List.mem_map.1 hx
      exact decide_eq_true hl
  have hlocal : ∀ x ∈ xs, (passed c (globalAddrs c b.toNat o) s).local x.pa = true := fun x hx => by
    rw [passed, translated_frame]
    exact hreach.here x hx
  have haway : (xs.filter fun x => !(passed c (globalAddrs c b.toNat o) s).local x.pa) = [] :=
    List.filter_eq_nil_iff.2 fun x hx => by simp [hlocal x hx]
  have hhere : (xs.filter fun x => (passed c (globalAddrs c b.toNat o) s).local x.pa) = xs := List.filter_eq_self.2 hlocal
  have hcheck : globalCheck c { a with region := true } (globalAddrs c b.toNat o) s = .ok (passed c (globalAddrs c b.toNat o) s, xs) :=
    globalCheck_reaches hreach
  unfold regionAccess
  rw [cutLanes_none]
  · simp only [hall, hcheck, haway, hhere, List.any_nil, maskOf_false, abortRegions_none]
    rw [List.filter_eq_nil_iff.2, List.filter_eq_self.2]
    · simp only [List.any_nil, maskOf_false, abortRegions_none]
    · intro x hx
      obtain ⟨r, hr, -, hnoRoom⟩ := hroom x hx
      simp [hr, hnoRoom]
    · intro x hx
      obtain ⟨r, hr, -, hnoRoom⟩ := hroom x hx
      simp [hr, hnoRoom]
  · intro l hl
    rw [← lanes_of_reach hreach] at hl
    obtain ⟨x, hx, rfl⟩ := List.mem_map.1 hl
    obtain ⟨r, hr, hfull, -⟩ := hroom x hx
    simp only [hr, hfull]

end RegionChecks

/-! ### One lane after another -/

section Lanes
variable {xs : List Spot} {G G' : Gang}

/-- The lanes of the spots have become what W says, and nothing else of the gang has changed. -/
structure LanesSet (G G' : Gang) (xs : List Spot) (W : Spot → Lane) : Prop where
  kept : G' = { G with lanes := G'.lanes }
  set : ∀ x ∈ xs, G'.lane x.lane = W x
  rest : ∀ l < 32, l ∉ xs.map Spot.lane → G'.lane l = G.lane l

/-- What a step that changes the thread of its spot does, one spot after another, where no two spots have one lane: each thread
is still the first gang's when its own step comes. -/
theorem foldl_lanes {P : State → Prop} {f : State → Spot → State} {u g : Nat} {W : Spot → Lane} (T : Spot → Lane)
    (hdistinct : (xs.map Spot.lane).Nodup) (hlt : ∀ x ∈ xs, x.lane < 32)
    (hstep : ∀ x ∈ xs, ∀ t G, P t → t.gang? u g = some G → G.lane x.lane = T x → ∃ (t' : State) (F : Lane → Lane),
      P (f t x) ∧ t'.gang? u g = t.gang? u g ∧
      f t x = t'.modGang u g (fun G => G.modLane x.lane F) ∧ F (T x) = W x)
    (hP : P s) (hG : s.gang? u g = some G) (hT : ∀ x ∈ xs, G.lane x.lane = T x) :
    ∃ G', P (xs.foldl f s) ∧ (xs.foldl f s).gang? u g = some G' ∧ LanesSet G G' xs W := by
  induction xs generalizing s G with
  | nil => exact ⟨G, hP, hG, rfl, fun _ hx => absurd hx List.not_mem_nil, fun _ _ _ => rfl⟩
  | cons x xs ih =>
    rw [List.map_cons, List.nodup_cons] at hdistinct
    obtain ⟨hfirst, hothers⟩ := hdistinct
    obtain ⟨t', F, hP', ht', hf, hF⟩ := hstep x List.mem_cons_self s G hP hG (hT x List.mem_cons_self)
    have hne : ∀ y ∈ xs, x.lane ≠ y.lane := fun y hy h => hfirst (h ▸ List.mem_map_of_mem hy)
    have hgang : (f s x).gang? u g = some (G.modLane x.lane F) := by rw [hf, gang?_modGang, ht', hG, Option.map_some]
    have hlane (l : Nat) (hl : l < 32) := modLane_lane G x.lane F hl
    obtain ⟨G', hP'', hG', hkept, hset, hrest⟩ := ih hothers (fun y hy => hlt y (List.mem_cons_of_mem x hy))
      (fun y hy => hstep y (List.mem_cons_of_mem x hy)) hP' hgang fun y hy => by
        rw [hlane _ (hlt y (List.mem_cons_of_mem x hy)), if_neg (hne y hy), hT y (List.mem_cons_of_mem x hy)]
    refine ⟨G', hP'', hG', hkept, fun y hy => ?_, fun l hl hnot => ?_⟩
    · obtain rfl | hy := List.mem_cons.1 hy
      · rw [hrest _ (hlt y List.mem_cons_self) hfirst, hlane _ (hlt y List.mem_cons_self), if_pos rfl, hT y List.mem_cons_self, hF]
      · exact hset y hy
    · rw [List.map_cons, List.mem_cons, not_or] at hnot
      rw [hrest l hl hnot.2, hlane l hl, if_neg fun h => hnot.1 h.symm]

theorem lanesOf_nodup (m : BitVec 32) : (lanesOf m).Nodup := List.nodup_range.filter _

/-- An instruction in a region that has changed threads alone goes on. -/
theorem region_goesOn {i : Instr} {h : Hdr} {g : BitVec 3} (hr : Ready i h g s c) (htag : TagsItself i) (hy : isYield i = false)
    {body : Ctx → State → Eff} (hb : body (countedCtx c) (s.modGang c.u c.g (counted c)) = .done t)
    (hG : t.gang? c.u c.g = some G') {W : Spot → Lane} (hset : LanesSet (counted c c.G) G' xs W)
    (hst : ∀ x ∈ xs, (W x).st = (c.G.lane x.lane).st) :
    issue i h g body s = .next (after c (t.modGang c.u c.g (moved c))) ∧
    (t.modGang c.u c.g (moved c)).gang? c.u c.g = some (moved c G') ∧ GangKept c (moved c G') := by
  obtain ⟨hkept, hW, hrest⟩ := hset
  have hsheaf : G'.sheaf = c.G.sheaf := by rw [hkept]; rfl
  have hlive : ∀ l < 32, (c.G.lane l).live = true → (G'.lane l).live = true := fun l hl hlive => by
    have hsame : (G'.lane l).st = (c.G.lane l).st := by
      by_cases hmem : l ∈ xs.map Spot.lane
      · obtain ⟨x, hx, rfl⟩ := List.mem_map.1 hmem
        rw [hW x hx, hst x hx]
      · rw [hrest l hl hmem, (counted_same c l hl).1]
    rwa [Lane.live, hsame, ← Lane.live]
  refine ⟨?_, by rw [gang?_modGang, hG, Option.map_some], ?_⟩
  · rw [done_ready hr hb hG (fun S hS => (ready_sheaf hr).2 S (hsheaf ▸ hS)) (not_yield hy c)
      (.inr (members_ne_zero hsheaf hlive (ready_members hr)))]
    simp only [tagged_eq_self htag]
  · rw [GangKept, moved_kept, hkept]
    rfl

end Lanes

/-! ### Tags made rigid (R142) -/

theorem rigidInputs_nil (t : Lane) (xs : List RInput) : rigidInputs t [] xs = xs := by
  simp [rigidInputs, List.mapIdx_eq_iff]

theorem rigidInputs_cons_none {t : Lane} {a : Nat} (ha : t.tag a = none) (regs : List Nat) (xs : List RInput) :
    rigidInputs t (a :: regs) xs = rigidInputs t regs xs := by
  rw [rigidInputs, List.filterMap_cons_none ha, rigidInputs]

theorem rigidInputs_cons_some {t : Lane} {a : Nat} {q : RTag} (ha : t.tag a = some q) (regs : List Nat) (xs : List RInput) :
    rigidInputs t (a :: regs) xs = rigidInputs t regs (xs.mapIdx fun i x => if i = q.k then { x with rigid := true } else x) := by
  rw [rigidInputs, rigidInputs, List.filterMap_cons_some ha, List.mapIdx_mapIdx]
  congr
  funext i x
  by_cases hi : i = q.k
  · simp [hi]
  · simp [hi, Ne.symm hi]

theorem rigidRegs_region {T : Lane} (T₀ : Lane) {r : Region} (hreg : T.region = some r) (regs : List Nat) :
    T.rigidRegs T₀ regs = { T with region := some { r with inputs := rigidInputs T₀ regs r.inputs } } := by
  induction regs generalizing T r with
  | nil =>
    rw [rigidInputs_nil, ← hreg]
    rfl
  | cons a regs ih =>
    rw [Lane.rigidRegs, List.foldl_cons, ← Lane.rigidRegs]
    cases ha : T₀.tag a with
    | none => rw [rigidInputs_cons_none ha, ← ih hreg]
    | some q =>
      have hone : T.makeRigid q.k =
          { T with region := some { r with inputs := r.inputs.mapIdx fun i x => if i = q.k then { x with rigid := true } else x } } := by
        rw [Lane.makeRigid, Lane.modRegion, hreg, Option.map_some]
      rw [rigidInputs_cons_some ha]
      dsimp only
      rw [hone, ih rfl]

theorem rigidRegs_append (T T₀ : Lane) (as bs : List Nat) : T.rigidRegs T₀ (as ++ bs) = (T.rigidRegs T₀ as).rigidRegs T₀ bs :=
  List.foldl_append

/-- The tags of a thread's registers do not depend on the words that have been counted. -/
theorem tag_moreWords {T : Lane} {r : Region} (hreg : T.region = some r) (n : Nat) :
    ({ T with region := some (moreWords n r) } : Lane).tag = T.tag := by
  funext reg
  simp only [Lane.tag, hreg]
  rfl

theorem rigidInputs_moreWords {T : Lane} {r : Region} (hreg : T.region = some r) (n : Nat) (regs : List Nat) (xs : List RInput) :
    rigidInputs { T with region := some (moreWords n r) } regs xs = rigidInputs T regs xs := by
  rw [rigidInputs, tag_moreWords hreg, rigidInputs]

/-! ### A region's store (R144) -/

section Store
variable (t o : BitVec 7) (w : BitVec 3) (x : Spot)

/-- What an rst of a word stores symbolically: the tag of its value. -/
def storeTag (T : Lane) : Option (Nat × Word) := if w = 4 then (T.tag t.toNat).map fun q => (q.k, q.c) else none

/-- The registers whose inputs an rst makes rigid. -/
def storeRigid (T : Lane) : List Nat := (if (storeTag t w T).isSome then [] else vregs t (widthRegs w)) ++ vregs o 1

/-- A region after an rst of its thread. -/
def rstRegion (n : Nat) (T : Lane) (r : Region) : Region := { r with
  count := r.count + n
  inputs := rigidInputs T (storeRigid t o w T) r.inputs
  lines := if r.lines.any (fun y => decide (y.line = lineOf x.pa)) then r.lines
    else r.lines ++ [{ line := lineOf x.pa, va := BitVec.ofNat 72 x.va, key := x.key, snap := none }]
  stores := r.stores ++ [{
    pa := x.pa, va := BitVec.ofNat 72 x.va, size := widthBytes w, bits := BitVec.ofNat 64 (ofBytes (storeBytes w T t.toNat)),
    sym := storeTag t w T }] }

/-- A thread after its rst. -/
def rstThread (n : Nat) (T : Lane) : Lane := { T with region := T.region.map (rstRegion t o w x n T) }

/-- What an rst does to the thread of its spot. -/
def rstStep (T₀ T : Lane) : Lane :=
  ((if (storeTag t w T₀).isSome then T else T.rigidRegs T₀ (vregs t (widthRegs w))).rigidRegs T₀ (vregs o 1)).modRegion fun r =>
    let r := if r.lines.any fun y => decide (y.line = lineOf x.pa) then r
      else { r with lines := r.lines ++ [{ line := lineOf x.pa, va := BitVec.ofNat 72 x.va, key := x.key, snap := none }] }
    { r with stores := r.stores ++ [{
      pa := x.pa, va := BitVec.ofNat 72 x.va, size := widthBytes w, bits := BitVec.ofNat 64 (ofBytes (storeBytes w T₀ t.toNat)),
      sym := storeTag t w T₀ }] }

theorem rstLane_eq (s : State) (c : Ctx) : s.rstLane c t o w x =
    s.modGang c.u c.g fun G => G.modLane x.lane (rstStep t o w x (c.G.lane x.lane)) := rfl

theorem rstStep_counted {T : Lane} {r : Region} (hreg : T.region = some r) (n : Nat) :
    rstStep t o w x { T with region := some (moreWords n r) } { T with region := some (moreWords n r) } = rstThread t o w x n T := by
  have htag : storeTag t w { T with region := some (moreWords n r) } = storeTag t w T := by
    rw [storeTag, tag_moreWords hreg, storeTag]
  have hrigid (U T₀ : Lane) : (if (storeTag t w T).isSome then U else U.rigidRegs T₀ (vregs t (widthRegs w))).rigidRegs T₀ (vregs o 1) =
      U.rigidRegs T₀ (storeRigid t o w T) := by
    rw [storeRigid, rigidRegs_append]
    split <;> rfl
  rw [rstStep, htag, hrigid, rigidRegs_region _ rfl, rigidInputs_moreWords hreg, Lane.modRegion, rstThread, hreg]
  by_cases hhas : (r.lines.any fun y => decide (y.line = lineOf x.pa)) = true
  · simp only [Option.map_some, rstRegion, moreWords, hhas, if_true]
    rfl
  · simp only [Option.map_some, rstRegion, moreWords, hhas]
    rfl

end Store

/-! ### The threads of an access -/

section Threads
variable {i : Instr} {h : Hdr} {g : BitVec 3} {b : BitVec 4} {o : BitVec 7} {a : Access} {xs : List Spot} (hr : Ready i h g s c)
  (hreach : Reaches c s a (globalAt c b.toNat o) xs)

/-- The addresses do not depend on the words that have been counted. -/
theorem globalAddrs_counted (c : Ctx) (b : Nat) (o : BitVec 7) : globalAddrs (countedCtx c) b o = globalAt c b o :=
  List.map_congr_left fun l hl => by
    rw [countedCtx_G, counted_reg c c.G l (lanesOf_mem.1 hl).1]
    rfl

/-- The state in which an access of an instruction has passed its checks. -/
def checked (c : Ctx) (las : List (Nat × Nat)) (s : State) : State := passed (countedCtx c) las (s.modGang c.u c.g (counted c))

/-- It differs in cached translations and in the counted words alone. -/
theorem checked_frame (c : Ctx) (las : List (Nat × Nat)) (s : State) : BlockOnly c.u { s with
    tlb := (checked c las s).tlb
    tables := (checked c las s).tables
    freeCtr := (checked c las s).freeCtr } (checked c las s) := by
  have hframe := translated_frame (countedCtx c) las (s.modGang c.u c.g (counted c))
  rw [checked, passed]
  generalize translated (countedCtx c) las (s.modGang c.u c.g (counted c)) = u at hframe
  have hunparked := blockOnly_modGang u c.u c.g fun G => { G with parked := none }
  refine ⟨hunparked.1.trans (by rw [hframe]; rfl), fun v hv => (hunparked.2 v hv).trans ?_⟩
  rw [hframe]
  exact (blockOnly_modGang s c.u c.g (counted c)).2 v hv

theorem checked_blockOnly {u : State} {las : List (Nat × Nat)} (h : BlockOnly c.u (checked c las s) u) :
    BlockOnly c.u { s with tlb := u.tlb, tables := u.tables, freeCtr := u.freeCtr } u := by
  have hchecked := checked_frame c las s
  generalize checked c las s = t at h hchecked
  refine ⟨?_, fun v hv => (h.2 v hv).trans (hchecked.2 v hv)⟩
  rw [h.1, hchecked.1]

include hreach

theorem spots_lanes : xs.map Spot.lane = lanesOf c.act := by
  have h := congrArg (List.map Prod.fst) hreach.lanes
  simpa [globalAt, Function.comp_def] using h.symm

theorem spots_active {x : Spot} (hx : x ∈ xs) : x.lane < 32 ∧ c.act.getLsbD x.lane = true :=
  lanesOf_mem.1 (spots_lanes hreach ▸ List.mem_map_of_mem hx)

theorem spots_distinct : (xs.map Spot.lane).Nodup := spots_lanes hreach ▸ lanesOf_nodup c.act

theorem inactive_not_spot {l : Nat} (hact : c.act.getLsbD l = false) : l ∉ xs.map Spot.lane := fun hmem => by
  rw [spots_lanes hreach, lanesOf_mem, hact] at hmem
  exact Bool.false_ne_true hmem.2

include hr

/-- The region of a spot's thread, and the thread with the group's words counted. -/
theorem spot_counted {x : Spot} (hx : x ∈ xs) {r : Region} (hreg : (c.G.lane x.lane).region = some r) :
    (counted c c.G).lane x.lane = { c.G.lane x.lane with region := some (moreWords c.n r) } := by
  obtain ⟨hl, hact⟩ := spots_active hreach hx
  exact counted_lane_some hr hl (act_le_run hr _ hact) hreg

omit hreach in
/-- The checks of a region's access, in the context of an instruction that issues. -/
theorem regionAccess_ready (hreach : Reaches c s { a with region := true } (globalAt c b.toNat o) xs) (cause : Nat)
    {full : Region → Bool} (hfull : ∀ r, full (moreWords c.n r) = full r)
    (hroom : ∀ x ∈ xs, ∃ r, (c.G.lane x.lane).region = some r ∧ full r = false ∧ r.noRoom (lineOf x.pa) = false) :
    regionAccess (countedCtx c) a full cause o b (s.modGang c.u c.g (counted c)) = .ok (checked c (globalAt c b.toNat o) s, xs) := by
  have hcounted := reaches_counted hreach
  rw [← globalAddrs_counted] at hcounted
  rw [regionAccess_reaches hcounted cause, globalAddrs_counted, checked]
  intro x hx
  obtain ⟨r, hreg, hnotFull, hnoRoom⟩ := hroom x hx
  exact ⟨moreWords c.n r, by rw [countedCtx_G, spot_counted hr hreach hx hreg], (hfull r).trans hnotFull, hnoRoom⟩

theorem checked_gang : (checked c (globalAt c b.toNat o) s).gang? c.u c.g = some (counted c c.G) :=
  passed_gang (c := countedCtx c) (counted_gang hr) hreach.parked

end Threads

/-! ### The statement for rst (R144) -/

section Rst
variable {h : Hdr} {g : BitVec 3} {t o : BitVec 7} {b : BitVec 4} {w : BitVec 3} {xs : List Spot} {u : State}

/-- What an rst does to its gang. -/
def rstEffect (t o : BitVec 7) (b : BitVec 4) (w : BitVec 3) (c : Ctx) (s : State) : Eff :=
  match regionAccess c (Access.store (widthBytes w)) (fun r => decide (8 ≤ r.stores.length)) 0x23 o b s with
  | .error e => e
  | .ok (s, xs) => .done (xs.foldl (fun s x => s.rstLane c t o w x) s)

theorem execRst_eq : exec (.rst h g t o b w) s = issue (.rst h g t o b w) h g (rstEffect t o b w) s := rfl

theorem rstEffect_of_ok (hok : regionAccess c (Access.store (widthBytes w)) (fun r => decide (8 ≤ r.stores.length)) 0x23 o b s =
    .ok (u, xs)) : rstEffect t o b w c s = .done (xs.foldl (fun s x => s.rstLane c t o w x) u) := by
  rw [rstEffect, hok]

theorem rst_records (hr : Ready (.rst h g t o b w) h g s c)
    (hreach : Reaches c s { Access.store (widthBytes w) with region := true } (globalAt c b.toNat o) xs)
    (hroom : ∀ x ∈ xs, ∃ r, (c.G.lane x.lane).region = some r ∧ r.stores.length < 8 ∧ r.noRoom (lineOf x.pa) = false) :
    ∃ u G', exec (.rst h g t o b w) s = .next (after c u) ∧
      BlockOnly c.u { s with tlb := u.tlb, tables := u.tables, freeCtr := u.freeCtr } u ∧ u.gang? c.u c.g = some G' ∧ GangKept c G' ∧
      (∀ l < 32, c.act.getLsbD l = false → LaneIs c G' l (c.G.lane l)) ∧
      ∀ x ∈ xs, LaneEq c G' x.lane (rstThread t o w x c.n (c.G.lane x.lane)) := by
  have hpassed := regionAccess_ready hr hreach 0x23 (full := fun r => decide (8 ≤ r.stores.length)) (fun _ => rfl) fun x hx => by
    obtain ⟨r, hreg, hstores, hnoRoom⟩ := hroom x hx
    exact ⟨r, hreg, decide_eq_false (by omega), hnoRoom⟩
  have hcounted (x : Spot) (hx : x ∈ xs) : ∃ r, (c.G.lane x.lane).region = some r ∧
      (counted c c.G).lane x.lane = { c.G.lane x.lane with region := some (moreWords c.n r) } := by
    obtain ⟨r, hreg, -⟩ := hroom x hx
    exact ⟨r, hreg, spot_counted hr hreach hx hreg⟩
  obtain ⟨G', hblock, hG', hset⟩ := foldl_lanes (P := BlockOnly c.u (checked c (globalAt c b.toNat o) s))
    (f := fun s x => s.rstLane (countedCtx c) t o w x) (W := fun x => rstThread t o w x c.n (c.G.lane x.lane))
    (fun x => (counted c c.G).lane x.lane) (spots_distinct hreach) (fun x hx => (spots_active hreach hx).1)
    (fun x hx u G hu hG hlane => by
      obtain ⟨r, hreg, hT⟩ := hcounted x hx
      refine ⟨u, _, blockOnly_trans hu (blockOnly_modGang ..), rfl, rstLane_eq .., ?_⟩
      rw [countedCtx_G, hT, rstStep_counted t o w x hreg])
    ⟨rfl, fun _ _ => rfl⟩ (checked_gang hr hreach) fun _ _ => rfl
  have htag : TagsItself (.rst h g t o b w) := fun _ _ _ _ => rfl
  obtain ⟨hnext, hgang, hkept⟩ := region_goesOn hr htag rfl (rstEffect_of_ok hpassed) hG' hset fun _ _ => rfl
  refine ⟨_, _, hnext, checked_blockOnly (blockOnly_trans hblock (blockOnly_modGang ..)), hgang, hkept, fun l hl hact => ?_,
    fun x hx => ?_⟩
  · exact laneIs_moved hl (hset.rest l hl (inactive_not_spot hreach hact))
  · exact laneEq_moved (spots_active hreach hx).1 (hset.set x hx) rfl rfl

end Rst

/-! ### Snapshots (R141) -/

/-- From s to t block u and the caches have changed, for snapshots of lines of which no L1 held a dirty byte. -/
structure SnapshotWork (u : Nat) (s t : State) : Prop where
  caches : CachesAndBlock u s t
  requests : t.requests = s.requests
  noDirty : noDirty t
  bytes : SameBytes s t
  writes : t.writes = s.writes

section Snapshots
variable {u v : State} {k : Nat}

theorem SnapshotWork.blockOnly (h : SnapshotWork k s t) (hv : BlockOnly k t v) : SnapshotWork k s v := by
  obtain ⟨hframe, hblocks⟩ := hv
  rw [hframe]
  refine ⟨⟨?_, fun w hw => ?_⟩, h.requests, h.noDirty, h.bytes, h.writes⟩
  · rw [h.caches.1]
  · exact (congrArg (·.block? w) hframe).symm.trans ((hblocks w hw).trans (h.caches.2 w hw))

theorem SnapshotWork.quiet (h : SnapshotWork k s t) (hv : Quiet t v) : SnapshotWork k s v where
  caches := by
    refine ⟨?_, fun w hw => ?_⟩
    · rw [hv.work, h.caches.1]
    · rw [hv.work]
      exact h.caches.2 w hw
  requests := by
    rw [hv.work]
    exact h.requests
  noDirty := hv.noDirty
  bytes key pa := (hv.bytes key pa).trans (h.bytes key pa)
  writes := hv.writes.trans h.writes

theorem SnapshotWork.checked (hclean : Safety.noDirty s) (las : List (Nat × Nat)) : SnapshotWork c.u s (checked c las s) := by
  obtain ⟨hframe, hblocks⟩ := checked_frame c las s
  generalize RegionAccesses.checked c las s = t at hframe hblocks
  have hcached : SnapshotWork c.u s { s with tlb := t.tlb, tables := t.tables, freeCtr := t.freeCtr } :=
    ⟨⟨rfl, fun _ _ => rfl⟩, rfl, hclean, fun _ _ => rfl, rfl⟩
  exact hcached.blockOnly ⟨hframe, hblocks⟩

theorem SnapshotWork.lineData (h : SnapshotWork k s t) {line key : Nat} (hhere : s.local (line * 128) = true) :
    t.lineData line key = s.lineData line key := by
  have hlocal : t.local (line * 128) = s.local (line * 128) := by rw [h.caches.1]; rfl
  rw [State.lineData, State.lineData, if_pos (hlocal.trans hhere), if_pos hhere]
  congr 1
  funext i
  exact h.bytes ..

theorem SnapshotWork.writesOf (h : SnapshotWork k s t) (line key : Nat) : t.writesOf line key = s.writesOf line key := by
  rw [State.writesOf, h.writes, State.writesOf]

theorem local_line (s : State) (pa : Nat) : s.local (lineOf pa * 128) = s.local pa := by
  simp only [State.local, devOf, lineOf]
  congr 2
  omega

/-- The state in which a region has its snapshot of a spot's line, and the snapshot. -/
def snapped (s : State) (c : Ctx) (x : Spot) (r : Region) : State × (BitVec 1024 × Nat) :=
  match r.snapOf (lineOf x.pa) with | some z => (s, z) | none => s.snapshot c (lineOf x.pa) x.key

/-- What a region reads of a spot's line: its snapshot, or else what the line holds. -/
def snapOrFresh (s : State) (x : Spot) (r : Region) : BitVec 1024 × Nat :=
  (r.snapOf (lineOf x.pa)).getD (s.lineData (lineOf x.pa) x.key, s.writesOf (lineOf x.pa) x.key)

/-- A home reads a line of this device for a snapshot. -/
theorem snapped_work {x : Spot} (h : SnapshotWork k s t) (hhere : s.local x.pa = true) (r : Region) :
    SnapshotWork k s (snapped t c x r).1 ∧ (snapped t c x r).1.blocks = t.blocks ∧ (snapped t c x r).2 = snapOrFresh s x r := by
  have hline : s.local (lineOf x.pa * 128) = true := (local_line s x.pa).trans hhere
  unfold snapped snapOrFresh
  cases hsnap : r.snapOf (lineOf x.pa) with
  | some z => exact ⟨h, rfl, rfl⟩
  | none =>
    have hshared : Quiet t (t.getShared (lineOf x.pa) x.key (dieOf c.B.core) (BitVec.allOnes 128)) := (Quiet.refl h.noDirty).getShared ..
    have hwork := h.quiet hshared
    simp only [State.snapshot, writeBack_eq_self h.noDirty, hwork.lineData hline, hwork.writesOf, Option.getD_none]
    exact ⟨hwork, by rw [hshared.work], trivial⟩

end Snapshots

/-! ### A region's load (R141) -/

section Load
variable (t o : BitVec 7) (x : Spot)

/-- The word that a region reads of a line. -/
def rldWord (z : BitVec 1024 × Nat) : Word := z.1.extractLsb' (8 * (x.pa % 128)) 32

/-- A region after an rld of its thread. -/
def rldRegion (n : Nat) (T : Lane) (z : BitVec 1024 × Nat) (r : Region) : Region := { r with
  count := r.count + n
  inputs := rigidInputs T [o.toNat] r.inputs ++ [{ pa := x.pa, va := BitVec.ofNat 72 x.va, value := rldWord x z, rigid := false }]
  lines := (r.withSnap x z).lines
  tags := { reg := t.toNat, k := r.inputs.length, c := 0 } :: r.tags.filter fun q => decide (q.reg ≠ t.toNat) }

/-- A thread after its rld, in its region r. -/
def rldThread (n : Nat) (T : Lane) (z : BitVec 1024 × Nat) (r : Region) : Lane :=
  { T.setReg t.toNat (rldWord x z) with region := some (rldRegion t o x n T z r) }

/-- What an rld does to the thread of its spot. -/
def rldStep (T₀ : Lane) (z : BitVec 1024 × Nat) (k : Nat) (T : Lane) : Lane :=
  (((T.rigidRegs T₀ [o.toNat]).modRegion fun r =>
    { r.withSnap x z with
      inputs := (r.withSnap x z).inputs ++ [{ pa := x.pa, va := BitVec.ofNat 72 x.va, value := rldWord x z, rigid := false }] }).setReg
    t.toNat (rldWord x z)).setTag t.toNat k 0

theorem rldLane_eq {r : Region} (hreg : s.regionOf c.u c.g x.lane = some r) : s.rldLane c t o x =
    (snapped s c x r).1.modGang c.u c.g fun G =>
      G.modLane x.lane (rldStep t o x (c.G.lane x.lane) (snapped s c x r).2 r.inputs.length) := by
  unfold State.rldLane
  rw [hreg]
  rfl

theorem rldStep_counted {T : Lane} {r : Region} (hreg : T.region = some r) (n : Nat) (z : BitVec 1024 × Nat) :
    rldStep t o x { T with region := some (moreWords n r) } z r.inputs.length { T with region := some (moreWords n r) } =
      rldThread t o x n T z r := by
  rw [rldStep, rigidRegs_region _ rfl, rigidInputs_moreWords hreg, Lane.modRegion]
  simp only [Option.map_some, rldThread, rldRegion, Region.withSnap, moreWords]
  split <;> rfl

end Load

/-! ### The statement for rld (R141) -/

section Rld
variable {h : Hdr} {g : BitVec 3} {t o : BitVec 7} {b : BitVec 4} {xs : List Spot} {u : State}

/-- An rld's access: its lines are fetched by the home, for the snapshot. -/
def rldAccess : Access := { Access.load 4 with fetch := false }

/-- What an rld does to its gang. -/
def rldEffect (t o : BitVec 7) (b : BitVec 4) (c : Ctx) (s : State) : Eff :=
  match regionAccess c rldAccess (fun r => decide (8 ≤ r.inputs.length)) 0x20 o b s with
  | .error e => e
  | .ok (s, xs) =>
    let fresh := xs.filter fun x => match (c.G.lane x.lane).region with
      | some r => (r.snapOf (lineOf x.pa)).isNone
      | none => false
    let s := if fresh.isEmpty then s else s.gangAccess c.u c.g (spotItems fresh 4) false
    .done (xs.foldl (fun s x => s.rldLane c t o x) s)

theorem execRld_eq : exec (.rld h g t o b) s = issue (.rld h g t o b) h g (rldEffect t o b) s := rfl

theorem rldEffect_of_ok {G : Gang} (hG : u.gang? c.u c.g = some G) (hchunk : G.chunk = none)
    (hok : regionAccess c rldAccess (fun r => decide (8 ≤ r.inputs.length)) 0x20 o b s = .ok (u, xs)) :
    rldEffect t o b c s = .done (xs.foldl (fun s x => s.rldLane c t o x) u) := by
  rw [rldEffect, hok]
  simp only [gangAccess_unrecorded hG hchunk, ite_self]

theorem rld_reads (hr : Ready (.rld h g t o b) h g s c) (hclean : noDirty s)
    (hreach : Reaches c s { rldAccess with region := true } (globalAt c b.toNat o) xs)
    (hroom : ∀ x ∈ xs, ∃ r, (c.G.lane x.lane).region = some r ∧ r.inputs.length < 8 ∧ r.noRoom (lineOf x.pa) = false) :
    ∃ u G', exec (.rld h g t o b) s = .next (after c u) ∧ SnapshotWork c.u s u ∧ u.gang? c.u c.g = some G' ∧ GangKept c G' ∧
      (∀ l < 32, c.act.getLsbD l = false → LaneIs c G' l (c.G.lane l)) ∧
      ∀ x ∈ xs, ∀ r, (c.G.lane x.lane).region = some r →
        LaneEq c G' x.lane (rldThread t o x c.n (c.G.lane x.lane) (snapOrFresh s x r) r) := by
  have hpassed := regionAccess_ready hr hreach 0x20 (full := fun r => decide (8 ≤ r.inputs.length)) (fun _ => rfl) fun x hx => by
    obtain ⟨r, hreg, hinputs, hnoRoom⟩ := hroom x hx
    exact ⟨r, hreg, decide_eq_false (by omega), hnoRoom⟩
  have hregion (x : Spot) (hx : x ∈ xs) : ∃ r, (c.G.lane x.lane).region = some r := by
    obtain ⟨r, hreg, -⟩ := hroom x hx
    exact ⟨r, hreg⟩
  have hG := checked_gang hr hreach
  let W (x : Spot) : Lane := (c.G.lane x.lane).region.elim (c.G.lane x.lane) fun r =>
    rldThread t o x c.n (c.G.lane x.lane) (snapOrFresh s x r) r
  obtain ⟨G', hwork, hG', hset⟩ := foldl_lanes (P := SnapshotWork c.u s) (f := fun s x => s.rldLane (countedCtx c) t o x) (W := W)
    (fun x => (counted c c.G).lane x.lane) (spots_distinct hreach) (fun x hx => (spots_active hreach hx).1)
    (fun x hx u G hu hG hlane => by
      obtain ⟨r, hreg⟩ := hregion x hx
      have hT := spot_counted hr hreach hx hreg
      have hopen : u.regionOf c.u c.g x.lane = some (moreWords c.n r) := by rw [State.regionOf, hG, Option.bind_some, hlane, hT]
      obtain ⟨hsnap, hblocks, hz⟩ := snapped_work (c := countedCtx c) hu (hreach.here x hx) (moreWords c.n r)
      have hz' : (snapped u (countedCtx c) x (moreWords c.n r)).2 = snapOrFresh s x r := hz
      have hgang : (snapped u (countedCtx c) x (moreWords c.n r)).1.gang? c.u c.g = u.gang? c.u c.g := by
        rw [State.gang?, State.block?, hblocks]
        rfl
      have heq : u.rldLane (countedCtx c) t o x = _ := rldLane_eq t o x (c := countedCtx c) hopen
      refine ⟨_, _, heq ▸ hsnap.blockOnly (blockOnly_modGang ..), hgang, heq, ?_⟩
      rw [countedCtx_G, hz', hT]
      exact (rldStep_counted t o x hreg c.n _).trans (by simp only [W, hreg, Option.elim_some]))
    (.checked hclean _) hG fun _ _ => rfl
  have hst : ∀ x ∈ xs, (W x).st = (c.G.lane x.lane).st := fun x hx => by
    obtain ⟨r, hreg⟩ := hregion x hx
    simp only [W, hreg, Option.elim_some]
    rfl
  have htag : TagsItself (.rld h g t o b) := fun _ _ _ _ => rfl
  obtain ⟨hnext, hgang, hkept⟩ := region_goesOn hr htag rfl (rldEffect_of_ok hG hreach.chunk hpassed) hG' hset hst
  refine ⟨_, _, hnext, hwork.blockOnly (blockOnly_modGang ..), hgang, hkept, fun l hl hact => ?_, fun x hx r hreg => ?_⟩
  · exact laneIs_moved hl (hset.rest l hl (inactive_not_spot hreach hact))
  · refine laneEq_moved (spots_active hreach hx).1 ((hset.set x hx).trans ?_) rfl rfl
    simp only [W, hreg, Option.elim_some]

end Rld

/-! ### The statement -/

/-- A line that a region has, or for which it has room, is not one too many (R145). -/
theorem noRoom_eq_false {r : Region} {line : Nat} (h : r.lines.any (fun y => decide (y.line = line)) = true ∨ r.lines.length < 8) :
    r.noRoom line = false := by
  rw [Region.noRoom]
  obtain h | h := h
  · rw [h]
    rfl
  · rw [decide_eq_false (by omega), Bool.and_false]

/-- Settles O26: the lanes of an access take their steps one after another, each on its own thread. -/
theorem regionAccesses : Obligations.RegionAccesses := by
  unfold Obligations.RegionAccesses
  intro h g t o b w s c xs
  refine ⟨fun hr hclean hreach hroom => ?_, fun hr hreach hroom => ?_⟩
  · obtain ⟨u, G', hnext, hwork, hG, hkept, hrest, hset⟩ := rld_reads hr hclean hreach fun x hx => by
      obtain ⟨r, hreg, hinputs, hroom⟩ := hroom x hx
      exact ⟨r, hreg, hinputs, noRoom_eq_false hroom⟩
    refine ⟨u, G', hnext, hwork.caches, hwork.bytes, hwork.requests, hG, hkept, hrest, fun x hx r hreg => ?_⟩
    have hlane := hset x hx r hreg
    rw [rldThread, rldRegion, Region.withSnap, apply_ite Region.lines] at hlane
    exact hlane
  · obtain ⟨u, G', hnext, hblock, hG, hkept, hrest, hset⟩ := rst_records hr hreach fun x hx => by
      obtain ⟨r, hreg, hstores, hroom⟩ := hroom x hx
      exact ⟨r, hreg, hstores, noRoom_eq_false hroom⟩
    refine ⟨u, G', hnext, hblock, hG, hkept, hrest, fun x hx r hreg => ?_⟩
    have hlane := hset x hx
    rw [rstThread, hreg] at hlane
    exact hlane

end Sys2Proof.Proofs.RegionAccesses
end

section
/-! PROOFS. The commit of an atomic region: the lines are locked, the region is judged on what they hold, its stores are written, and
the run ends (R143, R146-R151). -/

namespace Sys2Proof.Proofs.CommitEngine
open Sys2Proof.Machine Sys2Proof.Safety Sys2Proof.Laws Sys2Proof.Proofs.Caches Sys2Proof.Proofs.MemoryFrame Sys2Proof.Proofs.QuietHomes
open Sys2Proof.Proofs.RunEnd Sys2Proof.Proofs.RegisterEvents Sys2Proof.Proofs.RegionControl Sys2Proof.Proofs.RegionAccesses

variable {s t v : State} {u g l n : Nat} {pc : Word} {m : BitVec 32} {b : Block} {L : Launch} {G G' : Gang} {S : Sheaf} {r : Region}

/-! ### A gang and the memory beside it -/

/-- From s to t the gang g of block u, which was G, has become G', and homes and caches have worked. -/
def Progress (s : State) (u g : Nat) (G G' : Gang) (t : State) : Prop := ∃ F : Gang → Gang, F G = G' ∧ MemoryWork (s.modGang u g F) t

theorem Progress.refl (s : State) (u g : Nat) (G : Gang) : Progress s u g G G s :=
  ⟨id, rfl, by rw [modGang_id _ _ _ id fun _ => rfl]; exact .refl s⟩

theorem Progress.memory (h : Progress s u g G G' t) (hv : MemoryWork t v) : Progress s u g G G' v := by
  obtain ⟨F, hF, hwork⟩ := h
  exact ⟨F, hF, hwork.trans hv⟩

theorem Progress.modGang (h : Progress s u g G G' t) (f : Gang → Gang) : Progress s u g G (f G') (t.modGang u g f) := by
  obtain ⟨F, rfl, hwork⟩ := h
  refine ⟨fun G => f (F G), rfl, ?_⟩
  rw [hwork, ← modGang_modGang]
  rfl

theorem Progress.gang (h : Progress s u g G G' t) (hG : s.gang? u g = some G) : t.gang? u g = some G' := by
  obtain ⟨F, rfl, hwork⟩ := h
  rw [hwork]
  exact (gang?_modGang s u g F).trans (by rw [hG]; rfl)

theorem Progress.launch (h : Progress s u g G G' t) : t.launchOf u = s.launchOf u := by
  obtain ⟨F, -, hwork⟩ := h
  rw [hwork]
  exact launchOf_modGang s u g F

/-! ### The region and its gang at the rend -/

/-- The gang g of block u waits at a rend with one thread's region r, in a launch that goes on and is not recorded; the region's
lines stand where they stood, and their homes can serve them; the region's stores lie in its lines. -/
structure Commits (u g l n : Nat) (pc : Word) (m : BitVec 32) (s : State) (b : Block) (L : Launch) (G : Gang) (S : Sheaf) (r : Region) :
    Prop where
  block : s.block? u = some b
  launch : s.launchOf u = some L
  gang : s.gang? u g = some G
  sheaf : G.sheaf = some S
  waits : S.commit = some (m, pc, n)
  fp : S.fp = none
  parked : G.parked = none
  drained : G.drained = false
  chunk : G.chunk = none
  status : L.status = 0
  det : L.r.det = false
  lane : l < 32
  mask : m &&& G.inRegion = BitVec.twoPow 32 l
  region : (G.lane l).region = some r
  eligible : (G.lane l).st = .eligible
  running : G.running.getLsbD l = true
  alive : s.dieFailed = 0
  clean : noDirty s
  lines : ∀ x ∈ r.lines, ∃ pa, s.regionPlace (.thread b.core (g % 4)) L.part x.va.toNat ⟨true, true, false⟩ = .ok pa x.key ∧
    lineOf pa = x.line ∧ s.local (x.line * 128) = true ∧ s.poisonBits x.line x.key = 0 ∧ Served s x.line x.key ∧
    ∀ y ∈ r.lines, y.line = x.line → y = x
  stores : ∀ w ∈ r.stores, w.pa % 128 + w.size ≤ 128 ∧ w.size ≤ 8 ∧ ∃ x ∈ r.lines, x.line = lineOf w.pa

/-! ### The region's lines have their places (R147) -/

theorem lanesOf_twoPow (hl : l < 32) : lanesOf (BitVec.twoPow 32 l) = [l] := by
  interval_cases l <;> rfl

/-- A region whose lines stand where they stood. -/
def stays (r : Region) : List (Nat × Nat × Nat) := r.lines.map fun x => (x.line, x.line, x.key)

theorem relocate_stays (honce : ∀ x ∈ r.lines, ∀ y ∈ r.lines, y.line = x.line → y = x) (s : State) :
    r.relocate s (stays r) = r := by
  have hnew (line : Nat) : (((stays r).find? fun x => decide (x.1 = line)).map (·.2.1)).getD line = line := by
    cases hfind : (stays r).find? fun x => decide (x.1 = line) with
    | none => rfl
    | some y =>
      obtain ⟨x, -, rfl⟩ := List.mem_map.1 (List.mem_of_find?_eq_some hfind)
      simpa using List.find?_some hfind
  have hkey : ∀ x ∈ r.lines, (((stays r).find? fun y => decide (y.1 = x.line)).map (·.2.2)).getD x.key = x.key := fun x hx => by
    cases hfind : (stays r).find? fun y => decide (y.1 = x.line) with
    | none => rfl
    | some z =>
      obtain ⟨y, hy, rfl⟩ := List.mem_map.1 (List.mem_of_find?_eq_some hfind)
      rw [honce x hx y hy (by simpa using List.find?_some hfind)]
      rfl
  have hpa (a : Nat) : lineOf a * 128 + a % 128 = a := by
    rw [lineOf]
    omega
  unfold Region.relocate
  simp only [hnew, hpa]
  congr 1
  · exact List.map_id _
  · exact (List.map_congr_left fun x hx => by simp only [hkey x hx, and_self, if_true]; rfl).trans (List.map_id _)
  · exact List.map_id _

/-- The commit's first state: the region stands where it stood. -/
def located (s : State) (u g l : Nat) (r : Region) : State :=
  s.modGang u g fun G => G.modLane l fun T => T.modRegion fun r' => r'.relocate s (stays r)

theorem execCommit_eq (h : Commits u g l n pc m s b L G S r) :
    exec (.commit u g) s = .next ((located s u g l r).doCommit u g (clusterOf b.core) [l] pc n) := by
  have hplaces : ∀ x ∈ r.lines, ∃ pa, s.regionPlace (.thread b.core (g % 4)) L.part x.va.toNat ⟨true, true, false⟩ = .ok pa x.key ∧
      lineOf pa = x.line ∧ s.local pa = true := fun x hx => by
    obtain ⟨pa, hplace, hline, hhere, -⟩ := h.lines x hx
    exact ⟨pa, hplace, hline, by rw [← local_line, hline, hhere]⟩
  choose! pa hplace hline hhere using hplaces
  have hcs : (r.lines.map fun x =>
      { lane := l, x := x,
        place := s.regionPlace (.thread b.core (g % 4)) L.part x.va.toNat ⟨true, true, false⟩ : CLine }) =
      r.lines.map fun x => { lane := l, x := x, place := .ok (pa x) x.key } :=
    List.map_congr_left fun x hx => by rw [hplace x hx]
  have hparked : G.isParked = false := by rw [Gang.isParked, h.parked]
  have haway (k : Nat) : (r.lines.any fun x => decide (l = k) && !s.local (pa x)) = false :=
    List.any_eq_false.2 fun x hx => by simp [hhere x hx]
  have hstays : (r.lines.map fun x => (x.line, lineOf (pa x), x.key)) = stays r := List.map_congr_left fun x hx => by rw [hline x hx]
  show execCommit u g s = _
  unfold execCommit
  simp only [h.block, h.launch, h.gang, h.sheaf, h.waits, h.mask, lanesOf_twoPow h.lane, List.flatMap_cons, List.flatMap_nil,
    List.append_nil, h.region, hcs, List.filterMap_map, Function.comp_def, hparked,
    List.filterMap_none, List.any_map, haway, maskOf_false, abortRegions_none, List.foldl_cons, List.foldl_nil, List.filter_map, decide_true,
    List.filter_true, List.filterMap_eq_map', hstays, Bool.false_eq_true, if_false]
  rw [List.filter_eq_self.2 fun k _ => by simp]
  rfl

theorem vset_lane (G : Gang) (l : Nat) : vset G.lanes l (G.lane l) = G.lanes := by
  ext k hk : 1
  by_cases hlk : l = k
  · subst hlk
    simp [vset, Gang.lane, vget, hk]
  · rw [vset, Vector.getElem_setIfInBounds_ne hk hlk]

theorem located_gang (h : Commits u g l n pc m s b L G S r) : Progress s u g G G (located s u g l r) := by
  have honce : ∀ x ∈ r.lines, ∀ y ∈ r.lines, y.line = x.line → y = x := fun x hx => by
    obtain ⟨-, -, -, -, -, -, honce⟩ := h.lines x hx
    exact honce
  have hlane : (G.lane l).modRegion (fun r' => r'.relocate s (stays r)) = G.lane l := by
    rw [Lane.modRegion, h.region, Option.map_some, relocate_stays honce, ← h.region]
  have hgang : (G.modLane l fun T => T.modRegion fun r' => r'.relocate s (stays r)) = G := by
    rw [Gang.modLane, hlane, vset_lane]
  have hprogress := (Progress.refl s u g G).modGang fun G => G.modLane l fun T => T.modRegion fun r' => r'.relocate s (stays r)
  rwa [hgang] at hprogress

/-! ### The lines are locked (R149) -/

theorem releaseCluster_eq_self (hclean : noDirty s) (cl : Nat) : s.releaseCluster cl = s :=
  foldl_eq_self fun _ _ => writeBack_eq_self hclean ..

theorem gangAccesses_unrecorded (hG : s.gang? u g = some G) (hchunk : G.chunk = none) (reads writes : List Item) :
    s.gangAccesses u g reads writes = s := by
  unfold State.gangAccesses
  rw [hG, Option.bind_some, hchunk]
  split <;> trivial

theorem idleEntry_bytes (s : State) (line key : Nat) : SameBytes s (s.idleEntry line key) := by
  unfold State.idleEntry
  dsimp only
  split
  · exact fun _ _ => rfl
  · obtain ⟨-, hl3, hlines⟩ := setEntry_kept s { s.entry line key with
      st := .i, sharers := 0, priv := false, acks := 0, req := none, held := [], masks := [] }
    exact byteAt_congr hl3 hlines (setEntry_mem ..)

/-- A commit locks its lines, which changes no byte of them, judges its regions and writes their stores, and releases the locks. -/
theorem doCommit_locks (hclean : noDirty s) (cl : Nat) : ∃ k, Quiet s k ∧ (∀ G', (k.commitLanes u g [l]).1.gang? u g = some G' →
    G'.chunk = none → (k.commitLanes u g [l]).2.2.2 = [] → ∃ t, MemoryWork (k.commitLanes u g [l]).1 t ∧
      SameBytes (k.commitLanes u g [l]).1 t ∧ s.doCommit u g cl [l] pc n = t.endCommit u g pc n none) := by
  unfold State.doCommit
  extract_lets lines flushed locked commits released z wr accessed unlocked acquired
  have hflushed : flushed = s := foldl_eq_self fun _ _ => writeBack_eq_self hclean ..
  have hlocked : Quiet s locked := by
    have hquiet : Quiet s flushed := by rw [hflushed]; exact .refl hclean
    exact hquiet.foldl (fun _ _ hu => hu.lockLine ..) _
  have hreleased : released = locked := by
    dsimp only [released]
    rw [releaseCluster_eq_self hlocked.noDirty, ite_self]
  refine ⟨locked, hlocked, fun G' hG' hchunk hpoison => ?_⟩
  have hz : z = locked.commitLanes u g [l] := congrArg (·.commitLanes u g [l]) hreleased
  rw [← hz] at hG' hpoison ⊢
  have haccessed : accessed = z.1 := gangAccesses_unrecorded hG' hchunk ..
  have hunlocked : MemoryWork z.1 unlocked ∧ SameBytes z.1 unlocked := by
    refine foldl_keeps (fun t => MemoryWork z.1 t ∧ SameBytes z.1 t) _ (fun t x ht => ?_) lines accessed
      (haccessed ▸ ⟨.refl _, fun _ _ => rfl⟩)
    obtain ⟨hwork, hbytes⟩ := ht
    refine ⟨hwork.trans (memoryWork_idleEntry ..), fun key pa => ?_⟩
    rw [← hbytes key pa]
    exact idleEntry_bytes ..
  obtain ⟨hwork, hbytes⟩ := hunlocked
  refine ⟨acquired, .ite (hwork.trans rfl) hwork, ?_, ?_⟩
  · intro key pa
    dsimp only [acquired]
    split <;> exact hbytes key pa
  · rw [hpoison]

/-! ### The judgement (R146, R147) -/

/-- The region's lines are sound, so none of them is poisoned. -/
theorem poisonedLine_sound (hsound : ∀ x ∈ r.lines, Sound s x.line x.key) : s.poisonedLine r = none := by
  unfold State.poisonedLine
  rw [List.findSome?_eq_none_iff]
  intro x hx
  simp [(hsound x hx).clean]

/-- What the homes do for the locks changes no judgement. -/
theorem judge_quiet (hquiet : Quiet s t) (hsound : ∀ x ∈ r.lines, Sound s x.line x.key) : t.judge r = s.judge r := by
  have hconflicts : t.conflicts = s.conflicts := by
    funext x
    unfold State.conflicts State.writesOf
    rw [hquiet.writes]
  have hinput : t.inputConflicts r = s.inputConflicts r := by
    funext i
    rw [State.inputConflicts, hconflicts, State.inputConflicts]
  have hbytes (key pa n : Nat) : t.bytesAt key pa n = s.bytesAt key pa n := List.map_congr_left fun _ _ => hquiet.bytes ..
  have hvalue : t.inputValue r = s.inputValue r := by
    funext i
    unfold State.inputValue
    simp only [hconflicts, hbytes]
  unfold State.judge
  rw [poisonedLine_sound hsound, poisonedLine_sound fun x hx => hquiet.sound _ _ (hsound x hx)]
  simp only [hinput, hvalue]

section Judge
variable {k : Nat}

theorem judge_conflict (hpoison : s.poisonedLine r = none) (hk : (r.inputs.findIdx? fun i => i.rigid && s.inputConflicts r i) = some k) :
    s.judge r = .abort 0x10 k := by
  unfold State.judge
  rw [hpoison, hk]

variable (hnone : ∀ i ∈ r.inputs, i.rigid = true → s.inputConflicts r i = false)
include hnone

theorem no_rigid_conflict : (r.inputs.findIdx? fun i => i.rigid && s.inputConflicts r i) = none := by
  rw [List.findIdx?_eq_none_iff]
  intro i hi
  cases hrigid : i.rigid with
  | false => rfl
  | true => exact hnone i hi hrigid

variable (hpoison : s.poisonedLine r = none)
include hpoison

theorem judge_constraint (hk : (r.cons.findIdx? fun q => !q.holds ((r.inputs.map (s.inputValue r)).getD q.k 0)) = some k) :
    s.judge r = .abort 0x11 k := by
  unfold State.judge
  rw [hpoison, no_rigid_conflict hnone]
  dsimp only
  rw [hk]

theorem judge_commit (hcons : ∀ q ∈ r.cons, q.holds ((r.inputs.map (s.inputValue r)).getD q.k 0) = true) :
    s.judge r = .commit (r.inputs.any (s.inputConflicts r)) (r.inputs.map (s.inputValue r)) := by
  have hk : (r.cons.findIdx? fun q => !q.holds ((r.inputs.map (s.inputValue r)).getD q.k 0)) = none := by
    rw [List.findIdx?_eq_none_iff]
    intro q hq
    rw [hcons q hq]
    rfl
  unfold State.judge
  rw [hpoison, no_rigid_conflict hnone]
  dsimp only
  rw [hk]

end Judge

/-! ### How the one lane's region ends (R147, R150) -/

theorem commitLanes_abort {cause detail : Nat} (hreg : s.regionOf u g l = some r) (hjudge : s.judge r = .abort cause detail) :
    (s.commitLanes u g [l]).1 = s.abortRegions u g (BitVec.twoPow 32 l) cause (fun _ => detail) ∧ (s.commitLanes u g [l]).2.2.2 = [] := by
  simp only [State.commitLanes, hreg, hjudge, and_self]

theorem commitLanes_commit {rep : Bool} {xs : List Word} (hreg : s.regionOf u g l = some r) (hjudge : s.judge r = .commit rep xs) :
    (s.commitLanes u g [l]).1 = (s.commitStores u g r xs).modGang u g (fun G => G.modLane l fun T => T.committed r rep xs) ∧
    (s.commitLanes u g [l]).2.2.2 = [] := by
  simp only [State.commitLanes, hreg, hjudge, and_self]

theorem abortRegions_unlogged {cause : Nat} (detail : Nat → Nat) (hG : s.gang? u g = some G) (hm : m &&& G.inRegion ≠ 0)
    (hcause : loggedAbort cause = false) :
    s.abortRegions u g m cause detail = s.modGang u g fun G => G.abort m cause detail := by
  unfold State.abortRegions
  simp only [hG, if_neg hm, hcause, Bool.false_eq_true, if_false]

/-! ### The stores (R147) -/

/-- The number that a region's store writes: its recorded bits, or the fresh value of its input. -/
def storeValue (xs : List Word) (w : RStore) : Nat := match w.sym with | some (k, c) => (xs.getD k 0 + c).toNat | none => w.bits.toNat

/-- A region's key of a line. -/
def keyOf (r : Region) (line : Nat) : Nat := ((r.lines.find? fun x => decide (x.line = line)).map (·.key)).getD 0

theorem keyOf_line {x : RLine} (hx : x ∈ r.lines) (honce : ∀ y ∈ r.lines, y.line = x.line → y = x) : keyOf r x.line = x.key := by
  obtain ⟨y, hy⟩ := Option.isSome_iff_exists.1 (List.find?_isSome.2 ⟨x, hx, decide_eq_true rfl⟩ :
    (r.lines.find? fun y => decide (y.line = x.line)).isSome = true)
  rw [keyOf, hy, honce y (List.mem_of_find?_eq_some hy) (by simpa using List.find?_some hy)]
  rfl

/-- The commit engine writes one store. -/
def writeStore (u g : Nat) (r : Region) (xs : List Word) (s : State) (w : RStore) : State :=
  (s.physWrite (keyOf r (lineOf w.pa)) w.pa (bytesOf w.size (storeValue xs w))).digestWrite u g (w.va.toNat % 2 ^ 64)
    (storeValue xs w % 2 ^ (8 * w.size))

theorem commitStores_eq (s : State) (u g : Nat) (r : Region) (xs : List Word) :
    s.commitStores u g r xs = r.stores.foldl (writeStore u g r xs) s := rfl

theorem bytesOf_length (k v : Nat) : (bytesOf k v).length = k := by
  induction k generalizing v with
  | zero => rfl
  | succ k ih => rw [bytesOf, List.length_cons, ih]

theorem bytesOf_getD {i k : Nat} (hi : i < k) (v : Nat) : (bytesOf k v).getD i 0 = BitVec.ofNat 8 (v / 256 ^ i) := by
  induction k generalizing v i with
  | zero => omega
  | succ k ih =>
    cases i with
    | zero => simp [bytesOf]
    | succ i => rw [bytesOf, List.getD_cons_succ, ih (by omega), Nat.div_div_eq_div_mul, Nat.pow_succ']

theorem Progress.stores {xs : List Word} (h : Progress s u g G G' t) (hchunk : G'.chunk = none) (ws : List RStore) :
    Progress s u g G G' (ws.foldl (writeStore u g r xs) t) := by
  refine foldl_keeps (Progress s u g G G') _ (fun t w ht => ?_) ws t h
  have hkept : ({ G' with chunk := none } : Gang) = G' := by rw [← hchunk]
  have hwritten := (ht.memory (memoryWork_physWrite t (keyOf r (lineOf w.pa)) w.pa (bytesOf w.size (storeValue xs w)))).modGang
    fun G => { G with chunk := G.chunk.map fun c =>
      { c with digest := digestStep c.digest (w.va.toNat % 2 ^ 64) (storeValue xs w % 2 ^ (8 * w.size)) } }
  rwa [hchunk, Option.map_none, hkept] at hwritten

/-- A byte of a region's line after the stores is the last one's that reaches it. -/
theorem byteAt_stores {xs : List Word} {x : RLine} {pa : Nat} (hx : x ∈ r.lines) (hpa : lineOf pa = x.line)
    (honce : ∀ y ∈ r.lines, y.line = x.line → y = x) {ws : List RStore} (hfits : ∀ w ∈ ws, w.pa % 128 + w.size ≤ 128) (s : State) :
    (ws.foldl (writeStore u g r xs) s).byteAt x.key pa =
      ((ws.reverse.find? fun w => decide (w.pa ≤ pa ∧ pa < w.pa + w.size)).map fun w =>
        BitVec.ofNat 8 (storeValue xs w / 256 ^ (pa - w.pa))).getD (s.byteAt x.key pa) := by
  induction ws using List.reverseRecOn with
  | nil => rfl
  | append_singleton ws w ih =>
    have hbytes (t : State) : (writeStore u g r xs t w).byteAt x.key pa =
        (t.physWrite (keyOf r (lineOf w.pa)) w.pa (bytesOf w.size (storeValue xs w))).byteAt x.key pa := rfl
    rw [List.foldl_append, List.foldl_cons, List.foldl_nil, hbytes, byteAt_physWrite, bytesOf_length, List.reverse_append,
      List.reverse_singleton, List.singleton_append, List.find?_cons]
    by_cases hin : w.pa ≤ pa ∧ pa < w.pa + w.size
    · have hline : lineOf w.pa = x.line := by
        have hfit := hfits w (by simp)
        rw [← hpa, lineOf, lineOf]
        omega
      have hkey : keyOf r (lineOf w.pa) = x.key := hline ▸ keyOf_line hx honce
      rw [if_pos ⟨hkey, hin⟩, decide_eq_true hin, bytesOf_getD (by omega)]
      rfl
    · rw [if_neg fun h => hin h.2, decide_eq_false hin, ih fun w' hw' => hfits w' (by simp [hw'])]

/-! ### The tagged registers (R147) -/

/-- The tagged registers of a thread follow the fresh values. -/
def rewritten (xs : List Word) (tags : List RTag) (T : Lane) : Lane := tags.foldl (fun T q => T.setReg q.reg (xs.getD q.k 0 + q.c)) T

theorem rewritten_kept (xs : List Word) (tags : List RTag) (T : Lane) :
    rewritten xs tags T = { T with v := (rewritten xs tags T).v } := by
  have hvector : ∃ v, rewritten xs tags T = { T with v := v } :=
    foldl_keeps (fun U : Lane => ∃ v, U = { T with v := v }) (fun U (q : RTag) => U.setReg q.reg (xs.getD q.k 0 + q.c))
      (fun U q ⟨v, hU⟩ => ⟨vset v q.reg (xs.getD q.k 0 + q.c), by rw [hU]; rfl⟩) tags T ⟨T.v, rfl⟩
  obtain ⟨v, hv⟩ := hvector
  rw [hv]

theorem committed_eq (T : Lane) (r : Region) (rep : Bool) (xs : List Word) : T.committed r rep xs =
    { T with
      v := (rewritten xs r.tags T).v
      region := none
      rstat := BitVec.ofNat 32 ((if rep then 2 else 1) + 2 ^ 16 * r.count) } := by
  have hcommitted : T.committed r rep xs =
      { rewritten xs r.tags T with region := none, rstat := rstatValue (if rep then 2 else 1) 0 r.count } := rfl
  rw [hcommitted, rewritten_kept, rstatValue]
  simp only [Nat.zero_mod, Nat.mul_zero, Nat.add_zero]

theorem rewritten_reg (xs : List Word) (tags : List RTag) (T : Lane) {d : Nat} (hd : d < 112) : (rewritten xs tags T).reg d =
    ((tags.reverse.find? fun q => decide (q.reg = d)).map fun q => xs.getD q.k 0 + q.c).getD (T.reg d) := by
  induction tags using List.reverseRecOn with
  | nil => rfl
  | append_singleton tags q ih =>
    rw [rewritten, List.foldl_append, List.foldl_cons, List.foldl_nil, ← rewritten, setReg_reg, List.reverse_append,
      List.reverse_singleton, List.singleton_append, List.find?_cons]
    by_cases hq : q.reg = d
    · rw [if_pos ⟨hq, hq ▸ hd⟩, decide_eq_true hq]
      rfl
    · rw [if_neg fun h => hq h.1, decide_eq_false hq, ih]

/-! ### The run ends (R147) -/

/-- A gang that no longer waits at its rend. -/
def released (G : Gang) : Gang := { G with sheaf := G.sheaf.map fun S => { S with commit := none } }

theorem released_running (G : Gang) : (released G).running = G.running := by
  unfold Gang.running released
  cases G.sheaf <;> rfl

theorem loggedTrap_none (hG : s.gang? u g = some G) (hchunk : G.chunk = none) : s.loggedTrap u g = none := by
  unfold State.loggedTrap
  rw [hG, Option.bind_some, hchunk]
  split <;> trivial

theorem endCommit_eq (t : State) (u g : Nat) (pc : Word) (n : Nat) :
    t.endCommit u g pc n none = ((t.modGang u g released).countWords u g n).endRun u g false := rfl

/-- The threads that have not left the run at an abort stand after its rend. -/
theorem endCommit_ends (h : Commits u g l n pc m s b L G S r) {S' : Sheaf} (ht : Progress s u g G G' t) (hsheaf : G'.sheaf = some S')
    (hfp : S'.fp = none) (hdrained : G'.drained = false) (hchunk : G'.chunk = none) (helig : (G'.lane l).st = .eligible) :
    SameBytes t (t.endCommit u g pc n none) ∧ ∃ G'', (t.endCommit u g pc n none).gang? u g = some G'' ∧ G''.sheaf = none ∧
      G''.lane l = if G'.running.getLsbD l then { G'.lane l with pc := S'.pc } else G'.lane l := by
  have hkept : ({ released G' with chunk := none } : Gang) = released G' := by
    rw [released, hchunk]
  have hprogress := (ht.modGang released).modGang fun G => { G with chunk := G.chunk.map fun c => { c with count := c.count + n } }
  have hnone : (released G').chunk = none := hchunk
  rw [hnone, Option.map_none, hkept] at hprogress
  have hgang := hprogress.gang h.gang
  have hlaunch := hprogress.launch.trans h.launch
  obtain ⟨B, hB, -⟩ := Option.bind_eq_some_iff.1 hgang
  have heligible : (released G').eligible ≠ 0 := fun h0 => by
    have hlane := eligible_lane (released G') h.lane
    rw [h0] at hlane
    simp [Lane.eligible, show ((released G').lane l).st = .eligible from helig] at hlane
  obtain ⟨F, hend, hF, hlanes⟩ := runEnds u g false _ B L (released G') { S' with commit := none } hB hlaunch hgang
    (by rw [released, hsheaf]; rfl) hfp h.status h.det hdrained heligible (by rw [loggedTrap_none hgang hchunk]; simp)
  have hended : t.endCommit u g pc n none = _ := hend
  rw [hended]
  refine ⟨fun _ _ => rfl, F (released G'), ?_, by rw [hF], ?_⟩
  · exact (gang?_modGang _ u g F).trans (by rw [hgang]; rfl)
  · rw [hlanes l h.lane, released_running]
    rfl

/-! ### From the rend to the end of the run -/

/-- The commit has locked the region's lines in state k: what it goes on with, and where it ends. -/
structure Locked (u g l n : Nat) (pc : Word) (s : State) (G : Gang) (r : Region) (k : State) : Prop where
  progress : Progress s u g G G k
  bytes : SameBytes s k
  judge : k.judge r = s.judge r
  ends : ∀ G', (k.commitLanes u g [l]).1.gang? u g = some G' → G'.chunk = none → (k.commitLanes u g [l]).2.2.2 = [] →
    ∃ t, MemoryWork (k.commitLanes u g [l]).1 t ∧ SameBytes (k.commitLanes u g [l]).1 t ∧
      exec (.commit u g) s = .next (t.endCommit u g pc n none)

theorem Commits.sound (h : Commits u g l n pc m s b L G S r) {x : RLine} (hx : x ∈ r.lines) : Sound s x.line x.key := by
  obtain ⟨-, -, -, hhere, hclean, hserved, -⟩ := h.lines x hx
  exact ⟨h.alive, hhere, hserved.good, hclean⟩

theorem Commits.locks (h : Commits u g l n pc m s b L G S r) : ∃ k, Locked u g l n pc s G r k := by
  have hclean : noDirty (located s u g l r) := h.clean
  have hsound : ∀ x ∈ r.lines, Sound (located s u g l r) x.line x.key := fun x hx =>
    ⟨(h.sound hx).alive, (h.sound hx).here, (h.sound hx).good, (h.sound hx).clean⟩
  obtain ⟨k, hquiet, hends⟩ := doCommit_locks (u := u) (g := g) (l := l) (n := n) (pc := pc) hclean (clusterOf b.core)
  have hjudge : (located s u g l r).judge r = s.judge r := rfl
  refine ⟨k, (located_gang h).memory hquiet.work, hquiet.bytes, (judge_quiet hquiet hsound).trans hjudge,
    fun G' hG' hchunk hpoison => ?_⟩
  obtain ⟨t, hwork, hbytes, hcommit⟩ := hends G' hG' hchunk hpoison
  exact ⟨t, hwork, hbytes, by rw [execCommit_eq h, hcommit]⟩

theorem Progress.region (h : Progress s u g G G' t) (hG : s.gang? u g = some G) (l : Nat) : t.regionOf u g l = (G'.lane l).region := by
  rw [State.regionOf, h.gang hG, Option.bind_some]

/-- A region that aborts: nothing is written, and its thread goes on at the fallback PC. -/
theorem abort_ends (h : Commits u g l n pc m s b L G S r) {cause detail : Nat} (hjudge : s.judge r = .abort cause detail)
    (hcause : loggedAbort cause = false) : ∃ t, SameBytes s t ∧ exec (.commit u g) s = .next t ∧ ∃ G', t.gang? u g = some G' ∧
      G'.sheaf = none ∧ G'.lane l = { G.lane l with
        region := none
        rstat := BitVec.ofNat 32 (cause + 2 ^ 8 * (detail % 256) + 2 ^ 16 * r.count)
        pc := r.fallback } := by
  obtain ⟨k, hprogress, hbytes, hsame, hends⟩ := h.locks
  have hreg : k.regionOf u g l = some r := (hprogress.region h.gang l).trans h.region
  have hin : G.inRegion.getLsbD l = true := by rw [inRegion_lane G l h.lane, h.region]; rfl
  have hbit : (BitVec.twoPow 32 l).getLsbD l = true := by simp [h.lane]
  have hmask : BitVec.twoPow 32 l &&& G.inRegion ≠ 0 := fun h0 => by
    have hzero := congrArg (·.getLsbD l) h0
    simp only [BitVec.getLsbD_and, hin, hbit] at hzero
    simp at hzero
  obtain ⟨hlanes, hpoison⟩ := commitLanes_abort (g := g) hreg (hsame.trans hjudge)
  rw [abortRegions_unlogged _ (hprogress.gang h.gang) hmask hcause] at hlanes
  have haborted := hprogress.modGang fun G => G.abort (BitVec.twoPow 32 l) cause fun _ => detail
  rw [← hlanes] at haborted
  obtain ⟨t, hwork, hkept, hexec⟩ := hends _ (haborted.gang h.gang) h.chunk hpoison
  have hlane : (G.abort (BitVec.twoPow 32 l) cause fun _ => detail).lane l = (G.lane l).abort cause detail := by
    refine (modLanes_lane _ _ _ l h.lane).trans (if_pos hbit)
  have hsheaf : (G.abort (BitVec.twoPow 32 l) cause fun _ => detail).sheaf =
      some { S with out := S.out ||| (BitVec.twoPow 32 l &&& G.inRegion) } := congrArg (Option.map _) h.sheaf
  have hleft : (G.abort (BitVec.twoPow 32 l) cause fun _ => detail).running.getLsbD l = false := by
    rw [Gang.running, hsheaf]
    simp only [BitVec.getLsbD_and, BitVec.getLsbD_not, BitVec.getLsbD_or, hin, hbit, h.lane, decide_true, Bool.and_true,
      Bool.or_true, Bool.not_true, Bool.and_false, Bool.false_and]
  have helig : ((G.abort (BitVec.twoPow 32 l) cause fun _ => detail).lane l).st = .eligible := by
    rw [hlane, Lane.abort, h.region]
    exact h.eligible
  obtain ⟨hend, G'', hgang, hnone, hthread⟩ := endCommit_ends h (haborted.memory hwork) hsheaf h.fp h.drained h.chunk helig
  refine ⟨_, fun key pa => ?_, hexec, G'', hgang, hnone, ?_⟩
  · rw [hend key pa, hkept key pa, hlanes]
    exact hbytes key pa
  · rw [hthread, hleft, hlane, Lane.abort, h.region]
    rfl

theorem modLane_running {f : Lane → Lane} (hf : ∀ T, (f T).st = T.st) (G : Gang) (k : Nat) : (G.modLane k f).running = G.running := by
  have hlive : (G.modLane k f).live = G.live := by
    refine mask_ext _ _ fun j hj => ?_
    rw [Gang.live, Gang.live, maskOf_lane _ j hj, maskOf_lane _ j hj, modLane_lane G k f hj]
    split
    · rw [Lane.live, hf, Lane.live]
    · rfl
  rw [Gang.running, hlive]
  rfl

theorem committed_st (T : Lane) (r : Region) (rep : Bool) (xs : List Word) : (T.committed r rep xs).st = T.st := by
  rw [committed_eq]

/-- A region that commits: its stores are written, and its thread goes on after the rend with the fresh values. -/
theorem commit_ends (h : Commits u g l n pc m s b L G S r) {rep : Bool} {xs : List Word} (hjudge : s.judge r = .commit rep xs) :
    ∃ t, (exec (.commit u g) s = .next t ∧ ∃ G', t.gang? u g = some G' ∧ G'.sheaf = none ∧ G'.lane l = { G.lane l with
        v := (rewritten xs r.tags (G.lane l)).v
        region := none
        rstat := BitVec.ofNat 32 ((if rep then 2 else 1) + 2 ^ 16 * r.count)
        pc := S.pc }) ∧
      ∀ x ∈ r.lines, ∀ pa, lineOf pa = x.line → t.byteAt x.key pa =
        ((r.stores.reverse.find? fun w => decide (w.pa ≤ pa ∧ pa < w.pa + w.size)).map fun w =>
          BitVec.ofNat 8 (storeValue xs w / 256 ^ (pa - w.pa))).getD (s.byteAt x.key pa) := by
  obtain ⟨k, hprogress, hbytes, hsame, hends⟩ := h.locks
  have hreg : k.regionOf u g l = some r := (hprogress.region h.gang l).trans h.region
  obtain ⟨hlanes, hpoison⟩ := commitLanes_commit (g := g) hreg (hsame.trans hjudge)
  have hcommitted := (hprogress.stores (r := r) (xs := xs) h.chunk r.stores).modGang fun G => G.modLane l fun T => T.committed r rep xs
  rw [← commitStores_eq, ← hlanes] at hcommitted
  obtain ⟨t, hwork, hkept, hexec⟩ := hends _ (hcommitted.gang h.gang) h.chunk hpoison
  have hlane : (G.modLane l fun T => T.committed r rep xs).lane l = (G.lane l).committed r rep xs :=
    (modLane_lane G l _ h.lane).trans (if_pos rfl)
  have hrunning := modLane_running (fun T => committed_st T r rep xs) G l
  have helig : ((G.modLane l fun T => T.committed r rep xs).lane l).st = .eligible := by
    rw [hlane, committed_st, h.eligible]
  obtain ⟨hend, G', hgang, hnone, hthread⟩ := endCommit_ends h (hcommitted.memory hwork) h.sheaf h.fp h.drained h.chunk helig
  refine ⟨_, ⟨hexec, G', hgang, hnone, ?_⟩, fun x hx pa hpa => ?_⟩
  · rw [hthread, hrunning, h.running, hlane, committed_eq]
    rfl
  · obtain ⟨-, -, -, -, -, -, honce⟩ := h.lines x hx
    have hstored := byteAt_stores (u := u) (g := g) (xs := xs) hx hpa honce (fun w hw => (h.stores w hw).1) k
    rw [← commitStores_eq, hbytes] at hstored
    rw [hend, hkept, hlanes]
    exact hstored

/-! ### The statement -/

/-- Settles O34: the region aborts for its first conflict or constraint that fails, and commits when there is none. -/
theorem commitResults : Obligations.CommitResults := by
  unfold Obligations.CommitResults
  intro u g l n pc m s b L G S r hb hL hG hS hwaits hfp hparked hdrained hchunk hstatus hdet hl hm hreg helig hrunning halive hclean
    hlines hstores xs any value ends
  have h : Commits u g l n pc m s b L G S r := ⟨hb, hL, hG, hS, hwaits, hfp, hparked, hdrained, hchunk, hstatus, hdet, hl, hm, hreg, helig,
    hrunning, halive, hclean, hlines, hstores⟩
  have hpoison : s.poisonedLine r = none := poisonedLine_sound fun x hx => h.sound hx
  refine ⟨fun k hk => abort_ends h (judge_conflict hpoison hk) rfl, fun hnone => ⟨fun k hk =>
    abort_ends h (judge_constraint hnone hpoison hk) rfl, fun hcons => ?_⟩⟩
  obtain ⟨t, hends, hbytes⟩ := commit_ends h (judge_commit hnone hpoison hcons)
  exact ⟨t, _, hends, fun d hd => rewritten_reg _ _ _ hd, hbytes⟩

end Sys2Proof.Proofs.CommitEngine
end
